-- ==== Sys2Proof/Word.lean ====
section
/-! DEFINITION. The word types of the block and their plainest arithmetic (spec 00, section 0.3.2: little-endian
multi-byte fields, binary sizes). -/

namespace Sys2Proof

/-- One byte (00, section 0.3.2). -/
abbrev Byte := BitVec 8
/-- A 16-bit field. -/
abbrev Half := BitVec 16
/-- A 32-bit field. -/
abbrev Quad := BitVec 32
/-- A 64-bit scalar register or field (03, Table 3-1). -/
abbrev Word := BitVec 64
/-- A compute-die index, CD_0 to CD_7 (01, Table 1-1). -/
abbrev Cd := Fin 8
/-- A PCIe function: 0 is PF 0, n is VF n (02, R23). -/
abbrev Func := Fin 64

/-- Upper bound of a saturating counter of `w` bits. -/
def maxOf (w : Nat) : Nat := 2 ^ w - 1

end Sys2Proof
end

