-- ==== Sys2Proof/Syntax.lean ====
section
/-! DEFINITION. The commands of the block: one constructor of `Instr` for each row of spec/opcode_table.json, with the
operand types that the chapters give them. -/

namespace Sys2Proof

/-! ## Shared names -/

/-- Status codes (00, Table 0-4); `other` is a code that is not in the table, passed on unchanged (R8). -/
inductive Status where
  | ok | busy | badArg | noAccess | notFound | conflict | timeout | peerReset | receiverReset | domainClosed | mismatch
  | lockBroken | version | tenantBlocked | folded | integrity | poison | gated | unsupported | overflow | dataLost
  | other (code : Byte)
deriving DecidableEq, Repr

/-- Where a seat command is written: a function's doorbell, or PF 0's SEAT_CMD (02, section 2.6). -/
inductive CmdPort where
  | doorbell (f : Func)
  | seatCmd
deriving DecidableEq, Repr

/-! ## Wait fields, signal fields and scalar operands (03, sections 3.2 to 3.5) -/

/-- A threshold: an immediate 0 to 65,535, or a scalar register (03, section 3.2). -/
inductive Threshold where
  | imm (n : Half)
  | reg (r : Fin 32)
deriving DecidableEq, Repr

/-- A wait condition (03, Table 3-2); indices are relative to the seat's ranges. -/
inductive Cond where
  | cdTally (n : Nat) (t : Threshold)
  | pkgTally (n : Nat) (t : Threshold)
  | flag (n : Nat) (v : Bool)
deriving DecidableEq, Repr

/-- A signal target (03, Table 3-2); `cd := none` names the issuing CD's own tally. -/
inductive Target where
  | cdTally (cd : Option Cd) (n : Nat) (amount : Byte)
  | pkgTally (n : Nat) (amount : Byte)
  | flag (n : Nat) (v : Bool)
  | host (n : Fin 24)
deriving DecidableEq, Repr

/-- A signal field: one target and a moment, @issue or @done (R63). -/
structure Signal where
  target : Target
  atDone : Bool
deriving DecidableEq, Repr

/-- What every sequencer instruction carries: the issuing sequencer, the bytes its private encoding takes in the
stream (03: the encoding is private), its wait field (at most two conditions, R62) and its signal field (R63). -/
structure Issue where
  cd     : Cd
  bytes  : Nat
  waits  : List Cond := []
  signal : Option Signal := none
deriving DecidableEq, Repr

/-- A destination register: a scalar or a gang register (03, Table 3-1). -/
inductive Dst where
  | s (r : Fin 32)
  | g (r : Fin 16)
deriving DecidableEq, Repr

/-- A source operand: a scalar register, a gang register, or an immediate already sign-extended (R588). -/
inductive Src where
  | s (r : Fin 32)
  | g (r : Fin 16)
  | imm (v : Word)
deriving DecidableEq, Repr

/-- The conditions of CMP.cc, B.cc and BG.cc (R588). -/
inductive Cc where
  | eq | ne | lt | le | gt | ge | ltu | leu | gtu | geu
deriving DecidableEq, Repr

/-- RDX operators (03, Table 3-4). -/
inductive RdxOp where
  | add | min | max | minu | maxu | and | or | xor | fadd | fmax | fmin
deriving DecidableEq, Repr

/-- VRED operators (07, Table 7-6). -/
inductive VredOp where
  | fadd | fmax | fmin | add | max | min | and | or | xor | count
deriving DecidableEq, Repr

/-- A tally object named by an instruction (03, Table 3-2). -/
inductive TallyRef where
  | own (n : Nat)
  | onCd (cd : Cd) (n : Nat)
  | pkg (n : Nat)
deriving DecidableEq, Repr

/-! ## Array, MVP and vector operands (05, 06, 07) -/

/-- One operand as an operand descriptor names it: slab rows of this CD's own share. The byte layout of the
descriptor is not given, so the command carries its fields (05, section 5.2). -/
structure Tensor where
  format     : Byte
  base       : Nat := 0
  rowStride  : Nat := 0
  scaleBase  : Nat := 0
  scaleRow   : Nat := 0
  trumpBase  : Nat := 0
  trump      : Bool := false
  coarse     : Quad := 0
  /-- rows and columns of this CD's share -/
  rows       : Nat := 0
  cols       : Nat := 0
  /-- rows of the logical operand before this CD's share -/
  firstRow   : Nat := 0
  /-- columns of the logical operand before this CD's share -/
  firstCol   : Nat := 0
  /-- true: scales run along the columns of a row; false: along the rows of a column -/
  blockCols  : Bool := true
  /-- N:M keep count, 0 dense (R151, R152), and the metadata array's slab offset -/
  keep       : Nat := 0
  metaBase   : Nat := 0
  /-- bytes between the metadata of two value rows -/
  metaStride : Nat := 0
deriving DecidableEq, Repr

/-- The shared attributes of an array operation (R69, R123) and the issuing CD's own share. -/
structure MmaArgs where
  tag        : Byte
  m : Nat
  n : Nat
  k : Nat
  tileRows   : Nat := 1024
  outFormat  : Byte
  outStationary : Bool := false
  transB     : Bool := false
  rounding   : Nat := 0
  seed       : Src := .imm 0
  sat        : Bool := false
  accumulate : Bool := false
  haltAtOnce : Bool := false
  toQueue    : Bool := false
  tileMap    : Option (List Nat) := none
  kcompact   : Bool := false
  /-- own share -/
  a          : Tensor
  b          : Tensor
  c          : Tensor
  zmap       : Option Nat := none
  record     : Option Nat := none
deriving DecidableEq, Repr

/-- WLD: binds the stationary operand (R125). -/
structure WldArgs where
  tag    : Byte
  n      : Nat
  k      : Nat
  transB : Bool := false
  b      : Tensor
deriving DecidableEq, Repr

/-- MMAG: the descriptor's slab offset and the attributes that stand in the instruction (R165). -/
structure MmagArgs where
  tag        : Byte
  desc       : Nat
  haltAtOnce : Bool := false
  tileMap    : Option (List Nat) := none
  /-- scale and trump arrays of A, where its format has them; the group descriptor does not name them -/
  aScales    : Tensor := { format := 0 }
  /-- the operand descriptors that the segments' b_desc addresses lead to, in segment order -/
  bs         : List Tensor := []
  record     : Option Nat := none
deriving DecidableEq, Repr

/-- MVP: immediate fields and operands (R147, R150). W is named by a seat address, vectors and outputs by slab
offsets. -/
structure MvpArgs where
  batch      : Nat
  n          : Src
  k          : Src
  wAddr      : Word
  w          : Tensor
  x          : Tensor
  out        : Tensor
  rounding   : Nat := 0
  seed       : Src := .imm 0
  sat        : Bool := false
  accumulate : Bool := false
  zmap       : Option Nat := none
  record     : Option Nat := none
deriving DecidableEq, Repr

/-- An operand of an element-program instruction (R202). -/
inductive EOp where
  | e (r : Fin 16)
  | inp (n : Fin 4)
  | p (n : Fin 4)
  | imm (v : Quad)
deriving DecidableEq, Repr

/-- Comparison predicates of element programs (R115, Table 7-3). -/
inductive ECc where
  | eq | ne | lt | le | gt | ge
deriving DecidableEq, Repr

/-- The functions of Table 7-4. -/
inductive EFun where
  | frcp | fsqrt | frsq | fexp | fexp2 | flog | flog2 | fsin | fcos | ftanh | ferf | fsigm | fsilu | fgelu | fgelut
deriving DecidableEq, Repr

/-- Two-operand arithmetic of Table 7-3. -/
inductive EBin where
  | fadd | fsub | fmul | fdiv | fmin | fmax | iadd | isub | imul | imin | imax | and | or | xor | shl | shr | sra
deriving DecidableEq, Repr

/-- Element-program operations (07, Table 7-3). -/
inductive EInstr where
  | bin (op : EBin) (d : Fin 16) (a b : EOp)
  | fma (d : Fin 16) (a b c : EOp)
  | fabs (d : Fin 16) (a : EOp)
  | fneg (d : Fin 16) (a : EOp)
  | fcmp (cc : ECc) (m : Fin 4) (a b : EOp)
  | icmp (cc : ECc) (m : Fin 4) (a b : EOp)
  | fsel (d : Fin 16) (m : Fin 4) (a b : EOp)
  | cvt (fmt : Byte) (d : Fin 16) (a : EOp)
  | cvtfi (d : Fin 16) (a : EOp)
  | cvtif (d : Fin 16) (a : EOp)
  | mand (d a b : Fin 4)
  | mor (d a b : Fin 4)
  | mnot (d a : Fin 4)
  | mov (d : Fin 16) (a : EOp)
  | idxR (d : Fin 16)
  | idxC (d : Fin 16)
  | gath (d : Fin 16) (a : EOp)
  | func (f : EFun) (d : Fin 16) (a : EOp)
  | rsum (d : Fin 16) (a : EOp)
  | rmax (d : Fin 16) (a : EOp)
  | rmin (d : Fin 16) (a : EOp)
  | rarg (d : Fin 16) (a : EOp)
  | st (out : Fin 2) (a : EOp)
deriving DecidableEq, Repr

/-- One instruction with its predicate: `some (m, true)` is ?mN, `some (m, false)` is ?!mN (R208). -/
structure EStep where
  op   : EInstr
  pred : Option (Fin 4 × Bool) := none
deriving DecidableEq, Repr

/-- VRUN and VRED operands: the block's slab offset and up to four parameter registers (07, section 7.2). -/
structure VrunArgs where
  block  : Nat
  params : List (Fin 32) := []
deriving DecidableEq, Repr

/-- The immediate fields of one MVP instruction that ACTIVATE reads: batch, vector element format, and K where it is an
immediate (05, R150). -/
structure MvpImm where
  batch   : Nat
  xFormat : Byte
  k       : Option Nat := none
  /-- N of an operand in N:M form, 0 for dense operands (R151) -/
  keep    : Nat := 0
deriving DecidableEq, Repr

/-- What ACTIVATE reads in the private encodings of the deck: its element programs, the format codes and the format pairs
with their output that its instructions fix, the immediates of its MVP instructions (R92, R118, R150, R202). The encodings
are private, so the command brings what they decode to; ACTIVATE judges it. -/
structure DeckFacts where
  eprogs     : List (List EStep) := []
  eprogBytes : Nat := 0
  /-- immediate format codes of the streams -/
  formats    : List Byte := []
  /-- input formats and output format of the products whose formats the streams fix -/
  pairs      : List (Byte × Byte × Byte) := []
  mvps       : List MvpImm := []
  /-- no element-program instruction encodes a register or stream out of range, which a decoded one cannot say (R202) -/
  rangesOk   : Bool := true
deriving DecidableEq, Repr, Inhabited

/-! ## Wire and message operands (10, 11, 12, 13, 16, 17) -/

/-- A memory of the package: a CD's slab, near tier or far-tier stack (08, Table 8-1). -/
inductive MemUnit where
  | slab (cd : Cd)
  | near (cd : Cd)
  | far (stack : Fin 8)
deriving DecidableEq, Repr

/-- One slice of one direction of a die link: links 0 to 13 are WDL edges, 16 to 31 IPS links (Table 18-3). -/
structure SliceId where
  link  : Fin 32
  dir   : Bool
  slice : Fin 129
deriving DecidableEq, Repr

/-- A packet (11, Table 11-5). -/
structure Packet where
  op       : Byte
  status   : Byte := 0
  tag      : Half := 0
  tenant   : Half := 0
  group    : Half := 0xFFFF
  srcPos   : Nat := 0
  dstPos   : Nat := 0
  incarnation : Quad := 0
  arg      : Word := 0
  ext      : Word := 0
  data     : List Byte := []
  /-- len of a READ_REQ, which carries no data; the len of every other packet is that of its data -/
  reqLen   : Nat := 0
deriving DecidableEq, Repr

/-- What a receiver takes: the blocks that arrive, the payload as decryption gives it, and the outcomes of FEC and tag check. -/
structure FlitGot where
  blocks   : List (BitVec 257) := []
  /-- codewords of the flit that the FEC corrected -/
  fecFixed : Nat := 0
  fecOk    : Bool := true
deriving DecidableEq, Repr

/-- A flit: its header and its payload in clear (11, Table 11-2, Table 11-3). -/
structure Flit where
  seq      : Nat := 0
  ack      : Nat := 0
  nak      : Bool := false
  kind     : Fin 4 := 0
  keyPhase : Bool := false
  crBulk   : Bool := false
  crUnits  : Nat := 0
  nullCtr  : Nat := 0
  payload  : List Byte := []
  /-- as sent: its eight blocks (11, R309) -/
  blocks   : List (BitVec 257) := []
deriving DecidableEq, Repr

/-- A HELLO payload (11, Table 11-8). -/
structure HelloMsg where
  revision : Nat
  tableId  : Half
  position : Nat
  port     : Nat
  serial   : Word
  trumpCredits : Nat
  bulkCredits  : Nat
  count    : Quad
  echo     : Quad
deriving DecidableEq, Repr

/-- A spine frame (11, Table 11-10), with what R334 and R335 check of one that arrives and the bytes of one that is sent. -/
structure SpineFrame where
  conn    : Nat
  bulk    : Bool
  keyPhase : Bool := false
  psn     : Nat
  cumAck  : Nat := 0
  sack    : Quad := 0
  ecnEcho : Bool := false
  ce      : Bool := false
  packets : List Packet := []
  /-- it carries an extension header or a fragment -/
  extension : Bool := false
  /-- FCS and UDP checksum are good -/
  sumsOk  : Bool := true
  /-- destination address and UDP port -/
  dst     : Nat := 0
  dstPort : Nat := 7612
  /-- it is no spine frame at all: PAUSE, PFC, or any other Ethernet frame (11, Table 11-1, R334) -/
  other   : Bool := false
  /-- as received, the 16 bytes of its GCM tag -/
  tag     : List Byte := []
  /-- as sent, from the Ethernet header to the FCS -/
  bytes   : List Byte := []
deriving DecidableEq, Repr

/-- A spine CTRL payload (12, Table 12-3). -/
structure CtrlMsg where
  status   : Status := .ok
  revision : Nat
  tableId  : Half
  position : Nat
  slot     : Nat
  serial   : Word
  connection : Nat
  redirect : Nat := 0
  /-- the 64-bit IV counter of R558 and the source address it came from -/
  ctr      : Word := 0
  srcAddr  : Nat := 0
  /-- spine port on which it arrived -/
  port     : Nat := 64
  /-- the receiver's connection id of the spine header -/
  toConn   : Nat := 0
  /-- it carries an extension header or a fragment -/
  extension : Bool := false
  /-- FCS and UDP checksum are good -/
  sumsOk   : Bool := true
  /-- destination address and UDP port -/
  dst      : Nat := 0
  dstPort  : Nat := 7612
  /-- as received, the 16 bytes of its GCM tag -/
  tag      : List Byte := []
  /-- as sent, from the Ethernet header to the FCS -/
  bytes    : List Byte := []
deriving DecidableEq, Repr

/-- One roster entry (12, Table 12-2). -/
structure RosterEntry where
  state    : Nat := 0
  slot     : Nat := 0xFF
  revision : Nat := 0
  serial   : Word := 0
deriving DecidableEq, Repr

/-- One late record (R383). -/
structure LateRecord where
  group    : Half
  position : Nat
  lateness : Nat
  sequence : Nat
deriving DecidableEq, Repr

/-- A late-list entry (12, Table 12-9). -/
structure LateEntry where
  lastCount : Nat := 0
  lateCount : Nat := 0
  lateSum   : Nat := 0
deriving DecidableEq, Repr

/-- A ROSTER packet payload (12, Table 12-2). -/
structure RosterMsg where
  dealer   : Nat
  sender   : Nat
  ownState : Nat := 2
  epoch    : Nat
  tableId  : Half
  revision : Nat := 0
  reach    : BitVec 18 := 0
  entries  : List RosterEntry := []
  late     : List LateEntry := []
  records  : List LateRecord := []
deriving DecidableEq, Repr

/-- A TIME packet payload (13, Table 13-2) with the ingress stamp and whether its flit came after a nak. -/
structure TimeMsg where
  state    : Nat := 0
  exchange : Half
  epoch    : Quad := 0
  stamp    : Word := 0
  valid    : Bool := true
  grandmaster : Word := 0
  /-- TIME64 stamp of the receiver at ingress (t2, t4) -/
  ingress  : Word := 0
  /-- its flit was accepted after a nak -/
  afterNak : Bool := false
  srcPos   : Nat := 0
deriving DecidableEq, Repr

/-- The channel a dictionary request came by (17, Table 17-1a). `net n` is DTLS association n; `mctp b eid secured`
is an MCTP endpoint on I3C (b = false) or PCIe VDM (b = true). -/
inductive Channel where
  | mailbox (f : Func)
  | net (assoc : Nat)
  | mctp (vdm : Bool) (eid : Nat) (secured : Bool)
deriving DecidableEq, Repr

/-- A KDP request (17, Table 17-5). -/
structure KdpMsg where
  major   : Nat := 1
  sequence : Half := 0
  last    : Bool := false
  session : Quad := 0
  index   : Nat := 0
  sub     : Nat := 0
  offset  : Nat := 0
  length  : Nat := 0
  data    : List Byte := []
deriving DecidableEq, Repr

/-- What the checks of an Ohmeg image find (19, Table 19-3, Table 19-4): the manifest's fields, and whether each
signature and digest verifies. -/
structure ImageFacts where
  manifestOk : Bool := true
  part       : Nat := 8
  rootIndex  : Option Nat := some 0
  ecdsaOk    : Bool := true
  mldsaOk    : Bool := true
  digestsOk  : Bool := true
  version    : Nat := 0
  svn        : Nat := 0
  revoke     : BitVec 4 := 0
  wireRevision : Nat := 6
  svnSince   : List Nat := []
  digest     : Nat := 0
  handoverOk : Bool := true
deriving DecidableEq, Repr

/-- How the read of an image or deck from the host ended (15, Table 15-11). -/
inductive ReadEnd where
  | good | error | poisoned
deriving DecidableEq, Repr

/-- A budget report of one die (14, Table 14-7). -/
structure BudgetReportMsg where
  die     : Fin 10
  interval : Half
  energyFixed  : Quad
  energyScaled : Quad
  tmax    : Int
  goodSensors : Nat
  flags   : Nat := 0
  vddMv   : Nat
deriving DecidableEq, Repr

/-- What a die has measured in a ledger interval (14, R422, R427): its energies in µJ after calibration, the readings of its junction sensors in
1/16 °C, 16 on a CD and 4 on an edge die, and its rail in mV. -/
structure DieReading where
  die     : Fin 10
  energyFixed  : Quad
  energyScaled : Quad
  sensors : List Int
  vddMv   : Nat
deriving DecidableEq, Repr

/-- What a regulator answers to a PMBus poll beside STATUS_WORD (14, R419): READ_VOUT in mV, READ_IOUT in mA, READ_TEMPERATURE_1 in 1/16 °C. -/
structure Telemetry where
  vout : Nat := 0
  iout : Nat := 0
  temp : Int := 0
deriving DecidableEq, Repr

/-- A report of a DIGEST record, a READY record and the other COLL_CTRL records name their group and sequence (R374). -/
structure CollRec where
  group    : Half
  tenant   : Half
  rank     : Nat
  sequence : Nat
  hash     : Nat := 0
  issueTime : Word := 0
  dstBase  : Word := 0
  seat     : Nat := 0
  incarnation : Quad := 0
  status   : Status := .ok
  credits  : Nat := 0
  chunk    : Option Nat := none
  digest   : Nat := 0
deriving DecidableEq, Repr

/-- A debug token (19, Table 19-10) with what its signature checks find. -/
structure DebugTokenMsg where
  level    : Nat
  tenant   : Half
  serial   : Word
  notAfter : Word
  nonce    : Nat
  magicOk  : Bool := true
  ecdsaOk  : Bool := true
  mldsaOk  : Bool := true
  rootIndex : Option Nat := none
deriving DecidableEq, Repr

/-- An MBX message between packages that is none of the types with a row of their own (16, R474). -/
structure MbxPacketMsg where
  srcPos   : Nat
  type     : Half
  sequence : Half
  reply    : Bool
  status   : Status := .ok
  senderInc   : Quad
  receiverInc : Quad
  notice   : Bool := false
  payload  : List Byte := []
deriving DecidableEq, Repr

/-- A DUMMY_OPEN, DUMMY_CLOSE or DUMMY_NOTICE message (18, R530, R531). -/
structure DummyMsg where
  srcPos : Nat
  serial : Word
  seat   : Nat
  tenant : Half := 0
  base   : Nat
  length : Nat := 0
  half   : Nat := 0
  reason : Nat := 0
  /-- header fields of the MBX message (16, Table 16-4) -/
  sequence : Half := 0
  senderInc : Quad := 0
  receiverInc : Quad := 0
deriving DecidableEq, Repr

/-- What reaches the wait limit (09, R279, R280; 06, R179; 12, R372; 18, R535): the stall of the sequencer, its oldest TADD.R, a unit
without a slot, the deal phase or the collectives of the CD's groups in flight, or an epoch's wait. -/
inductive WaitKind where
  | stall | tadd | unit | deal | coll
  | epoch (seat : Nat)
deriving DecidableEq, Repr

/-- The seat-table registers (02, Table 2-10). -/
inductive SeatTableReg where
  | base | size
deriving DecidableEq, Repr

/-! ## The commands -/

/-- One constructor for each row of the opcode table, in the table's order. -/
inductive Instr where
  -- host interface and seats (02)
  | play (p : CmdPort) (seat : Nat)
  | halt (p : CmdPort) (seat : Nat)
  | resume (p : CmdPort) (seat : Nat)
  | reset (p : CmdPort) (seat : Nat)
  | activate (seat : Nat) (facts : DeckFacts)
  | activateComplete
  | seat (seat : Nat)
  | park (seat : Nat)
  | release (seat : Nat)
  | releaseScrubComplete
  | pin (seat : Nat)
  | unpin (seat : Nat)
  | seatTableWrite (reg : SeatTableReg) (v : Word)
  | registerWrite (f : Func) (off : Nat) (data : List Byte)
  | hifEventPop (f : Func)
  | irqCauseClear (f : Func) (v : Quad) (setAgain : Quad)
  | irqMaskWrite (f : Func) (v : Quad)
  | mbxInPost (f : Func)
  | messageAccept (f : Func)
  | mbxOutClear (f : Func)
  | mbxOutWrite (f : Func)
  | functionLevelReset (f : Func)
  | vfDisable (numVfs : Nat)
  | bar2Access (write : Bool) (off : Nat) (len : Nat) (data : List Byte) (ep : Bool)
  | seatChoose
  | seatLoad (seat : Nat)
  | seatSwitch
  | seatFirstIssue
  | seatResetComplete (seat : Nat)
  -- scalar instructions (03)
  | add (i : Issue) (d : Dst) (a b : Src)
  | sub (i : Issue) (d : Dst) (a b : Src)
  | mul (i : Issue) (d : Dst) (a b : Src)
  | and (i : Issue) (d : Dst) (a b : Src)
  | or (i : Issue) (d : Dst) (a b : Src)
  | xor (i : Issue) (d : Dst) (a b : Src)
  | shl (i : Issue) (d : Dst) (a b : Src)
  | shr (i : Issue) (d : Dst) (a b : Src)
  | sra (i : Issue) (d : Dst) (a b : Src)
  | min (i : Issue) (d : Dst) (a b : Src)
  | max (i : Issue) (d : Dst) (a b : Src)
  | minu (i : Issue) (d : Dst) (a b : Src)
  | maxu (i : Issue) (d : Dst) (a b : Src)
  | mov (i : Issue) (d : Dst) (a : Src)
  | li (i : Issue) (d : Dst) (v : Word)
  | cmpCc (i : Issue) (cc : Cc) (d : Dst) (a b : Src)
  | ldN (i : Issue) (d : Dst) (off : Src)
  | stN (i : Issue) (off : Src) (v : Src)
  | ldC (i : Issue) (d : Dst) (off : Src)
  | cdid (i : Issue) (d : Dst)
  | rdcyc (i : Issue) (d : Dst)
  | rdtime (i : Issue) (d : Dst)
  | rdtel (i : Issue) (d : Dst)
  | seedHw (i : Issue) (d : Dst)
  | registerResultLand (cd : Cd) (d : Dst)
  -- vector, matrix, data movement, deal, collective (05 to 08, 12)
  | vlen (i : Issue) (v : Src)
  | vrun (i : Issue) (a : VrunArgs)
  | vred (i : Issue) (op : VredOp) (d : Dst) (a : VrunArgs)
  | wld (i : Issue) (a : WldArgs)
  | mma (i : Issue) (a : MmaArgs)
  | mmag (i : Issue) (a : MmagArgs)
  | mvp (i : Issue) (a : MvpArgs)
  | dma (i : Issue) (engine : Fin 4) (desc : Nat)
  | xps (i : Issue) (desc : Nat)
  | dealCnt (i : Issue) (desc : Nat)
  | dealXch (i : Issue) (desc : Nat)
  | dealCap (i : Issue) (desc : Nat)
  | dealGth (i : Issue) (desc : Nat)
  | dealCmb (i : Issue) (desc : Nat)
  | allReduce (i : Issue) (desc : Nat)
  | reduceScatter (i : Issue) (desc : Nat)
  | allGather (i : Issue) (desc : Nat)
  | broadcast (i : Issue) (desc : Nat)
  | reduce (i : Issue) (desc : Nat)
  | allToAll (i : Issue) (desc : Nat)
  | barrier (i : Issue) (desc : Nat)
  | digest (i : Issue) (desc : Nat)
  | create (i : Issue) (desc : Nat)
  | destroy (i : Issue) (desc : Nat)
  -- synchronisation, loops, branches, package (03, 09)
  | nop (i : Issue)
  | tadd (i : Issue) (t : TallyRef) (amount : Src)
  | tld (i : Issue) (d : Dst) (t : TallyRef)
  | fset (i : Issue) (n : Nat)
  | fclr (i : Issue) (n : Nat)
  | lock (i : Issue) (d : Dst) (n : Nat)
  | lockStatus (cd : Cd)
  | unlock (i : Issue) (n : Nat)
  | unlockRelease (cd : Cd)
  | loop (i : Issue) (lvl : Fin 4) (count : Src) (last : Quad) (lastBytes : Nat)
  | b (i : Issue) (target : Quad)
  | bCc (i : Issue) (cc : Cc) (a b : Src) (target : Quad)
  | bgCc (i : Issue) (cc : Cc) (a b : Src) (target : Quad)
  | rdx (i : Issue) (tag : Byte) (op : RdxOp) (g : Fin 16) (a : Src)
  | setph (i : Issue) (tag : Byte) (n : Nat)
  | swpt (i : Issue) (tag : Byte) (k : Nat)
  | swptDrainEnd
  | end_ (i : Issue) (tag : Byte)
  | endComplete
  | taddR (i : Issue) (d : Dst) (group : Half) (rank : Src) (n : Nat) (amount : Src)
  | fetchFault (cd : Cd)
  | gangPoint
  | haltComplete
  | signalDone (op : Nat)
  | tallyAddApply (unit : Option Cd)
  | waitTimeout (cd : Cd) (what : WaitKind)
  | phaseChange
  | arrayOperationStart
  | checkColumnCompare (cd : Cd) (tile row : Nat) (bad : Option Nat)
  | checkRowReadd (cd : Cd) (tile : Nat) (bad : Option Nat)
  | arrayOperationEnd
  | softJokerAssign (cd : Cd) (row : Bool) (index : Nat)
  | mvpCompare (cd : Cd) (tile : Nat) (differ : Bool)
  | mvpEnd (cd : Cd)
  | tileBandClaim (cd : Cd)
  | tileEntryAvailable (cd : Cd)
  | tileEntryConsume (cd : Cd)
  -- memory (08)
  | dmaBurstStart (cd : Cd) (engine : Fin 4)
  | stagingForward (burst : Nat)
  | burstCommit (burst : Nat)
  | correctedWriteback (m : MemUnit) (sector : Nat)
  | scrubStep (m : MemUnit) (errs : List Nat)
  | refresh (m : MemUnit) (channel : Nat)
  | refreshMultiplierChange (m : MemUnit) (temp : Int)
  | ftBandModeWrite (ch : Channel) (v : Word)
  | tallyRegionWrite (off : Nat) (v : Word)
  | dbgSyncSelWrite (v : Word)
  -- die links (10)
  | frameSend (sl : SliceId) (payload : List (BitVec 128))
  | frameReceive (sl : SliceId) (beats : List (BitVec 128)) (spares : List (BitVec 4))
  | linkLock (sl : SliceId) (beats : List (BitVec 128)) (spares : List (BitVec 4))
  | acceptanceCount (sl : SliceId) (accepted : Bool) (ringRows : Bool)
  | controlMessageRelease (sl : SliceId) (beat : Fin 255)
  | linkFail (link : Fin 32) (slice : Nat) (dir : Bool)
  | wireRepair (sl : SliceId) (wire : Nat)
  -- fabric ports (11)
  | flitSend (tp : Nat)
  | flitReceive (tp : Nat) (got : FlitGot)
  | nakRepeatTimer (tp : Nat)
  | ackTimeout (tp : Nat)
  | creditPartialReturn (tp : Nat) (bulk : Bool)
  | portTraining (port : Nat)
  | trainingTimeout (port : Nat)
  | failedRetry (port : Nat)
  | helloSend (tp : Nat)
  | hello (tp : Nat) (m : HelloMsg)
  | closingFlit (tp : Nat)
  | keyReady (tp : Nat) (generation : Nat) (confirm : Bool) (nonce : Nat)
  | write (p : Packet)
  | writeAck (p : Packet)
  | readReq (p : Packet)
  | readData (p : Packet)
  | taddPacket (p : Packet)
  | taddStatus (p : Packet)
  | collData (p : Packet)
  | createRecord (r : CollRec)
  | ready (r : CollRec)
  | credit (r : CollRec)
  | doneRecord (r : CollRec)
  | abort (r : CollRec)
  | digestRecord (r : CollRec)
  | dealCount (p : Packet)
  | dealRow (p : Packet)
  | mbxPacket (m : MbxPacketMsg)
  | notice (p : Packet)
  | packetUnknownOp (p : Packet)
  | spineDataFrame (port : Nat) (fr : SpineFrame)
  | spineAckFrame (port : Nat) (fr : SpineFrame)
  | spineAckTimer (conn : Nat) (bulk : Bool)
  | retransmitTimeout (conn : Nat) (bulk : Bool) (psn : Nat)
  | ctrlOpen (m : CtrlMsg)
  | openAck (m : CtrlMsg)
  | redirect (m : CtrlMsg)
  | close (m : CtrlMsg)
  | closeAck (m : CtrlMsg)
  | ctrlResendTimer (conn : Nat)
  | neighborDiscovery (port : Nat) (dstAddr : Nat) (echo : Bool)
  -- table, dealer, time (12, 13)
  | reportSendTimer
  | rosterSendTimer
  | report (m : RosterMsg)
  | roster (m : RosterMsg)
  | claim (m : RosterMsg)
  | reportTimeout (pos : Nat)
  | claimTimer
  | promoteSlot (ch : Channel) (n : Nat)
  | syncIntervalTimer
  | sync (m : TimeMsg)
  | followUp (m : TimeMsg)
  | delayReq (m : TimeMsg)
  | delayResp (m : TimeMsg)
  | exchangeTimeout
  | slewEnd
  | holdoverEntry
  | ptpSync (seq : Half) (twoStep : Bool) (seconds nanos : Nat) (ingress : Word)
  | ptpFollowUp (seq : Half) (seconds nanos : Nat)
  | ptpDelayResp (seq : Half) (seconds nanos : Nat)
  | ptpAnnounce (grandmaster : Word) (rank : Nat) (arb : Bool) (domain : Nat)
  -- clocks, power, thermal (14)
  | crystalStable
  | crystalTimeout
  | referenceLoss
  | clkCclkDivWrite (v : Word)
  | dividerChange
  | powerBrakeAssert
  | powerBrakeRelease
  | thermalThrottle (memory : Bool) (temp : Int)
  | thermalThrottleEnd (memory : Bool) (temp : Int)
  | thermtrip (temp : Int)
  | ledgerIntervalEnd (rs : List DieReading)
  | budgetReport
  | budgetGrant (die : Fin 10)
  | grantMissFallback (die : Fin 10)
  | reportMiss (die : Fin 10)
  | avsStepDone (rail : Fin 10) (readMv : Nat)
  | avsStepTimeout (rail : Fin 10)
  | pmbusPoll (rail : Nat) (faultBit : Bool) (tel : Telemetry) (answered : Bool)
  | clockGate (dom : Fin 44)
  | domainClose (dom : Fin 13)
  | domainOff (dom : Fin 13)
  | closeTimeout (dom : Fin 13)
  | domainOpen (dom : Fin 13)
  | dozeRequest (ch : Channel)
  | wakeNLow
  | wakeRequest (ch : Channel)
  | dozeTimerExpiry
  -- reset and bring-up (15, 20)
  | powerOn
  | supplyFault (rail : Nat)
  | resetNAssert
  | resetNRelease
  | perstNAssert
  | perstNRelease
  | pcieLinkDown
  | resetRequestWarm (ch : Channel) (seq : Half)
  | resetRequestCold (ch : Channel) (seq : Half)
  | pwrResetReqWarm
  | pwrResetReqCold
  | pwrResetReqRecovery (reason : Nat)
  | jtagReset
  | blockReset (block : Nat)
  | boardRecordWrite (ch : Channel) (data : List Byte) (readBackOk : Bool)
  -- firmware and mailbox services (15, 16)
  | load (f : Func) (seq : Half)
  | loadImageRead (r : ReadEnd) (facts : ImageFacts)
  | fwWatchdogExpiry (core : Fin 14)
  | watchdogKick (core : Fin 5) (v : Word)
  | componentFault (comp : Nat) (ownReport : Bool) (crcOk : Bool)
  | open_ (f : Func) (seq : Half)
  | tallyAdd (f : Func) (seq : Half)
  | object (f : Func) (seq : Half)
  | updateStage (f : Func) (seq : Half)
  | updateCommit (f : Func) (seq : Half)
  | componentHandover
  | updateCancel (f : Func) (seq : Half)
  | telemetrySample (inTime : Bool)
  | coreBusyWindow (busy : List Nat)
  -- dictionary (17)
  | openSession (ch : Channel) (m : KdpMsg)
  | closeSession (ch : Channel) (m : KdpMsg)
  | kdpRead (ch : Channel) (m : KdpMsg)
  | kdpWrite (ch : Channel) (m : KdpMsg)
  | writeIf (ch : Channel) (m : KdpMsg)
  | describe (ch : Channel) (m : KdpMsg)
  | keepalive (ch : Channel) (m : KdpMsg)
  | sessionIdleTimeout (session : Quad)
  | snapshotLapse (ch : Channel) (session : Quad)
  | stagingLapse (ch : Channel) (session : Quad)
  | dtlsHandshake (expertChain basicChain : Bool) (peer : Quad) (addr : Fin 3)
  | objectWrite (ch : Channel) (index sub : Nat) (data : List Byte)
  | powerCapWrite (ch : Channel) (v : Quad)
  | tpEnableWrite (ch : Channel) (port : Nat) (v : Byte)
  | spAddressWrite (ch : Channel) (q : Fin 8) (gateway : Bool) (v : Nat)
  | logClear (ch : Channel) (v : Byte)
  | foldRequest (ch : Channel) (v : Byte)
  | sessionClose (ch : Channel) (session : Quad)
  | anchorWrite (ch : Channel) (expert : Bool) (v : Nat)
  | kdpEnableWrite (ch : Channel) (v : Byte)
  -- security (19)
  | fabricSecret (ch : Channel) (v : Nat)
  | keySlotClear (ch : Channel) (slot : Byte)
  | floorRaise (ch : Channel) (v : Byte)
  | debugToken (ch : Channel) (m : DebugTokenMsg)
  | seatBreakpoint (ch : Channel) (seat : Nat) (entry : Fin 4) (mask : Byte) (pc : Quad) (enable : Bool)
  | breakpointHit (cd : Cd)
  -- MCTP, PLDM, SPDM (17, 19)
  | setEndpointId (vdm : Bool) (eid : Byte)
  | getEndpointId (vdm : Bool)
  | getMctpVersionSupport (vdm : Bool) (msgType : Byte)
  | getMessageTypeSupport (vdm : Bool)
  | getVendorDefinedMessageSupport (vdm : Bool) (selector : Byte)
  | getTid (vdm : Bool)
  | setTid (vdm : Bool) (tid : Byte)
  | getPldmTypes (vdm : Bool)
  | getPldmCommands (vdm : Bool) (ptype : Byte)
  | getPldmVersion (vdm : Bool) (ptype : Byte)
  | getPdrRepositoryInfo (vdm : Bool)
  | getPdr (vdm : Bool) (handle : Nat)
  | getSensorReading (vdm : Bool) (sensor : Nat)
  | getStateSensorReadings (vdm : Bool) (sensor : Nat)
  | getMeasurements (vdm : Bool) (index : Byte)
  -- maintenance and the dummy (18)
  | ppr (ch : Channel) (stack channel pseudo bank : Nat) (row : Quad)
  | repairStepEnd (good : Bool) (spareLeft : Bool)
  | retrain (ch : Channel) (port : Nat)
  | sweep (ch : Option Channel)
  | restoreByEpoch (ch : Channel) (seat : Nat) (epoch : Word)
  | restoreByHeartbeat (ch : Channel) (seat : Nat) (heartbeat : Word)
  | restoreQuery (ch : Channel) (seat : Nat)
  | restoreComplete (seat : Nat)
  | scrubFar (ch : Channel)
  | scrubNear (ch : Channel)
  | scrubSlab (ch : Channel)
  | shadowSet (ch : Channel) (seat : Nat) (all : Bool) (mask : Half)
  | dummyPool (ch : Channel) (mask : BitVec 48)
  | epochOpen
  | dummyOpen (m : DummyMsg)
  | dummyClose (m : DummyMsg)
  | dummyNotice (m : DummyMsg)
  | dummyScrubEnd (base : Nat)
  | rekeyDue (port : Nat)
  -- later rows of the table
  | blockResetComplete
  | railGood (rail : Nat)
  | portTrainingComplete (port : Nat)
  | fecAlignmentLoss (port : Nat)
  | pmbAlertNChange (low : Bool)
  | watchdogRestartTimeout (core : Fin 5)
  | clockUngate (dom : Fin 44)
  | hostReadCompletion (tag : Nat) (data : List Byte) (ep : Bool)
  | vfEnable (numVfs : Nat)
  | updateStaged (r : ReadEnd) (facts : ImageFacts)
  | ptpMasterLoss
  | mgmtLinkChange (state : Fin 3)
  | keyExchange (vdm : Bool) (eid : Nat) (mutualAuth expertChain : Bool)
  | resetDelayExpiry
  | msiXTableWrite (f : Func) (vector : Fin 32) (masked : Bool)
deriving DecidableEq, Repr

end Sys2Proof
end

