-- ==== Sys2Proof/Decode.lean ====
section
/-! DEFINITION. Decoding of command words. The opcode table gives no row any bits: commands reach the block as register
accesses, packets, pins and events, and the sequencers' binary encoding is private (03). So no word spells a command. -/

namespace Sys2Proof

/-- The command that a word of `nbits` bits spells by the opcode table's bits: none, since no row has any. -/
def decodeTableWord (_nbits _w : Nat) : Option Instr := none

end Sys2Proof
end

