-- ==== Sys2Proof/Config.lean ====
section
/-! DEFINITION. What the spec leaves open and the model leaves free: opaque constants without a body, so that no proof
can see a value of them. Each is named in the assumption log. -/

namespace Sys2Proof.Config

/-- A free 64-bit value; the step reads it at the model's counter `freeCtr` and advances the counter (log 3). Used where
the spec says that a value results and does not say which: random draws, telemetry words, free fields. -/
opaque freeValue : Nat → Word

/-- A far-tier byte that was written under key `kw` and is read under key `kr`: other bytes, with no error (08, R243).
Arguments: the two keys, the physical cell, the 16-byte block that holds it (log 4). -/
opaque otherKeyByte : Nat → Nat → Nat → List Byte → Byte

/-- Byte `i` of the 3,712 bytes of a context area whose layout is private (03, R58), as a function of the numbers that the
eight contexts hold (log 9). -/
opaque contextByte : List Nat → Nat → Byte

/-- Number `k` of CD `c`'s context in a context area, read back through the private layout (03, R58; log 9). -/
opaque contextNumber : List Byte → Nat → Nat → Nat

/-- The place of the 1 KiB row that holds a far-tier sector, by stack and sector: channel in bits [4:0], pseudo-channel [5], bank [13:6],
row above. JEDEC's mapping inside a stack is not in the spec (log 41). -/
opaque rowPlace : Nat → Nat → Nat

/-- Sector `i` of a row's 16, by stack and place (log 41). -/
opaque rowSector : Nat → Nat → Nat → Nat

/-- What the spec names without a value: 0 SHA-384 of the boot ROM, 1 rom_version, 2 fci_minor_max, 3 dict_revision, 5 the bytes of the default board record that have no default, 6 the figures of the PDR repository, 7 the PCI vendor ID, 8 the version
of the vendor-defined command set, 9 and 10 the PLDM versions of types 0 and 2, 16 + t the version of MCTP message type t (log 42). -/
opaque identity : Nat → Nat

/-- A signature verifies: public key, message, signature (19, Table 19-4, R563); the model does not compute it (log 43). -/
opaque verifies : List Byte → List Byte → List Byte → Bool

/-- The MAC address that Neighbor Discovery finds for an IPv6 address on a spine port's link (11, R334; log 162). -/
opaque neighbor : Nat → List Byte → List Byte

/-- The device identity: the key pair of FIPS 186-5 from its random input, private and public part (19, R546; log 164). -/
opaque keyPair : List Byte → List Byte × List Byte

/-- An ECDSA P-384 signature of a message under a private key (19, R546, R561; log 164). -/
opaque signature : List Byte → List Byte → List Byte

/-- The record of the PDR repository with a handle, empty where there is none; the repository is fixed for the part, and the spec does
not give it (17, R508; log 42). -/
opaque pdr : Nat → List Byte

/-- What the private parts of a deck decode to when ACTIVATE is written to SEAT_CMD as a register, where no operand brings it
(02, R45; 03, R84): a free value, by the model's counter (log 142). -/
opaque deckFacts : Nat → DeckFacts

/-- An input of a vector stream of kind none, which the spec does not give: by the VRUN's block, stream, row and column, so that equal runs
read equal values (07, Table 7-2; 03, R87; log 3). -/
opaque absentInput : List Byte → Nat → Nat → Nat → Quad

/-- Bytes that the fetch of an instruction takes at a stream address where the bytes decode to none; the encoding is private (03, R61, R590;
log 170). -/
opaque badLength : Nat → Nat

/-- A TLD in flight reads its tally after an add of the package's own units, not before it: by CD, unit, tally, value before and after, and
the sequencer's pc, so that equal runs read equal values (09, R262; 03, R87; log 24). -/
opaque tldSeesAdd : List Nat → Bool

/-- The status byte of a report for whose event no rule names a status: by report code and sequence number (18, Table 18-1; log 138). -/
opaque reportStatus : Nat → Nat → Byte

end Sys2Proof.Config
end

