-- ==== Sys2Proof/Machine/Bytes.lean ====
section
/-! DEFINITION. Byte-order and bit-field helpers, and the codes of the named enumerations (00, section 0.3.2: multi-byte
fields are little-endian). -/

namespace Sys2Proof.Machine

/-- The `n` low bytes of `v`, least significant first. -/
def leBytes : Nat → Nat → List Byte
  | 0, _ => []
  | n + 1, v => BitVec.ofNat 8 v :: leBytes n (v / 256)

/-- The number that little-endian bytes spell. -/
def leNat : List Byte → Nat
  | [] => 0
  | b :: t => b.toNat + 256 * leNat t

/-- The field of `len` bytes at offset `off`; a field beyond the end reads as 0 (16, R467). -/
def field (bs : List Byte) (off len : Nat) : Nat := leNat ((bs.drop off).take len)

/-- Bits `lo` to `lo + w - 1` of `v`. -/
def bits (v lo w : Nat) : Nat := v / 2 ^ lo % 2 ^ w

/-- Bit `n` of `v`. -/
def bit (v n : Nat) : Bool := v / 2 ^ n % 2 == 1

/-- `v` as a signed number of `w` bits. -/
def signed (w v : Nat) : Int := if v < 2 ^ (w - 1) then v else (v : Int) - 2 ^ w

/-- A signed number in `w` bits of two's complement. -/
def unsigned (w : Nat) (v : Int) : Nat := (v % (2 ^ w : Int)).toNat

/-- 1 for true. -/
def b2n (b : Bool) : Nat := if b then 1 else 0

/-- `n` zero bytes. -/
def zeros (n : Nat) : List Byte := List.replicate n 0

/-- `bs` cut or padded with zero bytes to `n` bytes. -/
def padTo (n : Nat) (bs : List Byte) : List Byte := (bs ++ zeros (n - bs.length)).take n

/-- `a` rounded up to a multiple of `m`. -/
def roundUp (a m : Nat) : Nat := (a + m - 1) / m * m

/-- The 8-bit code of a status (00, Table 0-4). -/
def statusCode : Status → Byte
  | .ok => 0x00 | .busy => 0x01 | .badArg => 0x02 | .noAccess => 0x03 | .notFound => 0x04 | .conflict => 0x05
  | .timeout => 0x06 | .peerReset => 0x07 | .receiverReset => 0x08 | .domainClosed => 0x09 | .mismatch => 0x0A
  | .lockBroken => 0x0B | .version => 0x0C | .tenantBlocked => 0x0D | .folded => 0x0E | .integrity => 0x0F
  | .poison => 0x10 | .gated => 0x11 | .unsupported => 0x12 | .overflow => 0x13 | .dataLost => 0x14
  | .other c => c

/-- The status that a code names; a code that is not in Table 0-4 is passed on unchanged (00, R8). -/
def statusOf (c : Byte) : Status :=
  match c.toNat with
  | 0x00 => .ok | 0x01 => .busy | 0x02 => .badArg | 0x03 => .noAccess | 0x04 => .notFound | 0x05 => .conflict
  | 0x06 => .timeout | 0x07 => .peerReset | 0x08 => .receiverReset | 0x09 => .domainClosed | 0x0A => .mismatch
  | 0x0B => .lockBroken | 0x0C => .version | 0x0D => .tenantBlocked | 0x0E => .folded | 0x0F => .integrity
  | 0x10 => .poison | 0x11 => .gated | 0x12 => .unsupported | 0x13 => .overflow | 0x14 => .dataLost
  | _ => .other c

/-- Highest FCI minor that the running firmware accepts (03, R84; 17 Table 17-13): the spec gives no number (log 42). -/
def fciMinorMax : Nat := Config.identity 2 % 256

/-- Whether a status is retryable (00, Table 0-4; R7, R8). -/
def retryable : Status → Bool
  | .busy | .conflict | .domainClosed | .gated => true
  | _ => false

end Sys2Proof.Machine
end

