-- ==== Sys2Proof/Machine/Formats.lean ====
section
/-! DEFINITION. Number formats (04): exact values, decoding, rounding, conversion with its counts, FP32 arithmetic, the MX and KX
block encoders, comparison and order. All arithmetic is exact on rationals and rounded once where the rules say so. -/

namespace Sys2Proof.Machine

/-- An exact value: NaN, an infinity, or a signed magnitude n / d (d > 0; zero keeps its sign). -/
inductive Num where
  | nan
  | inf (neg : Bool)
  | fin (neg : Bool) (n d : Nat)
deriving DecidableEq, Repr

/-! ## Exact arithmetic -/

/-- n / d times 2 to the power e. -/
def scale2 (n d : Nat) (e : Int) : Nat × Nat :=
  if 0 ≤ e then (n * 2 ^ e.toNat, d) else (n, d * 2 ^ (-e).toNat)

/-- floor(log2(n / d)) for n, d > 0, exact. -/
def ilog2 (n d : Nat) : Int :=
  let e : Int := (Nat.log2 n : Int) - Nat.log2 d
  let (a, b) := scale2 n d (-e)
  if b ≤ a then e else e - 1

def Num.isNan : Num → Bool | .nan => true | _ => false
def Num.isZero : Num → Bool | .fin _ n _ => n == 0 | _ => false
def Num.neg : Num → Num
  | .nan => .nan | .inf s => .inf !s | .fin s n d => .fin (!s) n d
def Num.abs : Num → Num
  | .nan => .nan | .inf _ => .inf false | .fin _ n d => .fin false n d
def Num.ofInt (v : Int) : Num := .fin (decide (v < 0)) v.natAbs 1
/-- A finite value times a power of two. -/
def Num.scale (v : Num) (e : Int) : Num :=
  match v with | .fin s n d => let (a, b) := scale2 n d e; .fin s a b | x => x

/-- Product, exact (04, R119): 0 times an infinity is NaN. -/
def Num.mul : Num → Num → Num
  | .nan, _ | _, .nan => .nan
  | .inf s, .inf t => .inf (s != t)
  | .inf s, .fin t n _ | .fin t n _, .inf s => if n = 0 then .nan else .inf (s != t)
  | .fin s n d, .fin t m e => .fin (s != t) (n * m) (d * e)

/-- Quotient, exact; x / 0 is an infinity, 0 / 0 and inf / inf are NaN. -/
def Num.div : Num → Num → Num
  | .nan, _ | _, .nan => .nan
  | .inf _, .inf _ => .nan
  | .inf s, .fin t _ _ => .inf (s != t)
  | .fin s _ _, .inf t => .fin (s != t) 0 1
  | .fin s n d, .fin t m e =>
    if m = 0 then (if n = 0 then .nan else .inf (s != t)) else .fin (s != t) (n * e) (d * m)

/-- Sum, exact; a sum of zeros is −0 only when both are −0, and x + (−x) is +0 (04, R114). -/
def Num.add : Num → Num → Num
  | .nan, _ | _, .nan => .nan
  | .inf s, .inf t => if s = t then .inf s else .nan
  | .inf s, _ | _, .inf s => .inf s
  | .fin s n d, .fin t m e =>
    let v : Int := (if s then -(n * e : Int) else n * e) + (if t then -(m * d : Int) else m * d)
    if v = 0 then .fin (n == 0 && m == 0 && s && t) 0 1 else .fin (decide (v < 0)) v.natAbs (d * e)

/-- Exact sum of a list of products: NaN, infinities and the sign of zero as R137; the empty sum is −0 here and its callers
say what it counts as. -/
def Num.sum (l : List Num) : Num := l.foldl Num.add (.fin true 0 1)

/-- Exact comparison of magnitudes n / d ≤ m / e. -/
def leMag (n d m e : Nat) : Bool := decide (n * e ≤ m * d)

/-- Key of a value for numeric comparison: the order of the extended reals. -/
def Num.lt : Num → Num → Bool
  | .nan, _ | _, .nan => false
  | .inf s, .inf t => s && !t
  | .inf s, .fin _ _ _ => s
  | .fin _ _ _, .inf t => !t
  | .fin s n d, .fin t m e =>
    decide ((if s then -(n * e : Int) else n * e) < (if t then -(m * d : Int) else m * d))

/-- Predicates EQ, NE, LT, LE, GT, GE (04, R115). -/
def Num.cmp (cc : ECc) (a b : Num) : Bool :=
  let unordered := a.isNan || b.isNan
  let eq := !unordered && !a.lt b && !b.lt a
  match cc with
  | .eq => eq | .ne => !eq | .lt => a.lt b | .le => a.lt b || eq | .gt => b.lt a | .ge => b.lt a || eq

def Num.signBit : Num → Bool | .nan => false | .inf s => s | .fin s _ _ => s

/-- totalOrder as R117 uses it: a NaN above +infinity, −0 below +0. -/
def Num.totalLt (a b : Num) : Bool :=
  match a, b with
  | .nan, _ => false
  | _, .nan => true
  | _, _ => a.lt b || (!b.lt a && a.signBit && !b.signBit)

/-- minimumNumber and maximumNumber (04, R116). -/
def Num.minNum (a b : Num) : Num := if a.isNan then b else if b.isNan then a else if b.totalLt a then b else a
def Num.maxNum (a b : Num) : Num := if a.isNan then b else if b.isNan then a else if a.totalLt b then b else a

/-! ## Formats (04, Tables 4-1, 4-2, 4-8) -/

/-- A floating-point layout: exponent bits, mantissa bits, bias, and how its top codes are used: 0 IEEE, 1 E4M3, 2 none. -/
structure FloatFmt where
  eb : Nat
  mb : Nat
  bias : Nat
  style : Nat
deriving DecidableEq, Repr

/-- Kinds of the codes of Table 4-1. -/
inductive Fmt where
  | float (f : FloatFmt)
  | int (bits : Nat) (isSigned : Bool)
  | mx (elem : Byte) (emax : Int)
  | kx (elem : Byte) (emaxN emaxD : Nat)
deriving DecidableEq, Repr

/-- Table 4-1 with Table 4-2; none for a code that is not in it (04, R92). -/
def fmtOf (c : Byte) : Option Fmt :=
  match c.toNat with
  | 0x01 => some (.float ⟨8, 23, 127, 0⟩) | 0x02 => some (.float ⟨8, 7, 127, 0⟩) | 0x03 => some (.float ⟨5, 10, 15, 0⟩)
  | 0x04 => some (.float ⟨4, 3, 7, 1⟩) | 0x05 => some (.float ⟨5, 2, 15, 0⟩) | 0x06 => some (.float ⟨3, 2, 3, 2⟩)
  | 0x07 => some (.float ⟨2, 3, 1, 2⟩) | 0x08 => some (.float ⟨2, 1, 1, 2⟩)
  | 0x09 => some (.int 8 true) | 0x0A => some (.int 8 false) | 0x0B => some (.int 4 true) | 0x0C => some (.int 4 false)
  | 0x0D => some (.int 32 true)
  | 0x10 => some (.mx 0x04 8) | 0x11 => some (.mx 0x05 15) | 0x12 => some (.mx 0x06 4) | 0x13 => some (.mx 0x07 2)
  | 0x14 => some (.mx 0x08 2) | 0x15 => some (.mx 0x09 0)
  | 0x18 => some (.kx 0x04 448 1) | 0x19 => some (.kx 0x07 15 2) | 0x1A => some (.kx 0x08 6 1)
  | _ => none

/-- Element code of a format: its own, or that of its block elements. -/
def elemFmt (c : Byte) : Byte :=
  match fmtOf c with | some (.mx e _) | some (.kx e _ _) => e | _ => c

/-- Bits of one stored element. -/
def elemBits (c : Byte) : Nat :=
  match fmtOf (elemFmt c) with
  | some (.float f) => 1 + f.eb + f.mb
  | some (.int b _) => b
  | _ => 8

/-- Elements that share a scale: 32 for MX, 16 for KX, 1 otherwise. -/
def blockSize (c : Byte) : Nat := match fmtOf c with | some (.mx _ _) => 32 | some (.kx _ _ _) => 16 | _ => 1

def isScaled (c : Byte) : Bool := blockSize c != 1
def isIntFmt (c : Byte) : Bool := match fmtOf c with | some (.int _ _) => true | _ => false

/-- MAC per cell and cycle of a format's class, 0 for a format that is no array input (04, Table 4-8). -/
def rateOf (c : Byte) : Nat :=
  match c.toNat with
  | 0x02 | 0x03 => 1
  | 0x04 | 0x05 | 0x09 | 0x0A | 0x10 | 0x11 | 0x15 | 0x18 => 2
  | 0x06 | 0x07 | 0x08 | 0x0B | 0x0C | 0x12 | 0x13 | 0x14 | 0x19 | 0x1A => 4
  | _ => 0

/-- The class of a pair: that of its wider operand. -/
def pairRate (a b : Byte) : Nat := min (rateOf a) (rateOf b)

/-- A product of two formats with an output format is accepted (04, R118). -/
def pairOk (a b out : Byte) : Bool :=
  rateOf a != 0 && rateOf b != 0 &&
    (out == 1 || out == 2 || out == 3 || (out == 0x0D && isIntFmt a && isIntFmt b))

/-! ## Decoding (04, R93, R96) -/

/-- Value of a floating-point code. -/
def decodeFloat (f : FloatFmt) (code : Nat) : Num :=
  let s := bit code (f.eb + f.mb)
  let e := bits code f.mb f.eb
  let m := bits code 0 f.mb
  let top := 2 ^ f.eb - 1
  if f.style = 0 && e = top then (if m = 0 then .inf s else .nan)
  else if f.style = 1 && e = top && m = 2 ^ f.mb - 1 then .nan
  else if e = 0 then (Num.fin s m 1).scale (1 - (f.bias : Int) - f.mb)
  else (Num.fin s (2 ^ f.mb + m) 1).scale ((e : Int) - f.bias - f.mb)

/-- Exact value of one element code of an unscaled format; MXINT8 elements take their 2⁻⁶ in `decodeMx`. -/
def decodeElem (c : Byte) (code : Nat) : Num :=
  match fmtOf c with
  | some (.float f) => decodeFloat f code
  | some (.int b s) => Num.ofInt (if s then signed b (code % 2 ^ b) else (code % 2 ^ b : Nat))
  | _ => .nan

/-- FP32 layout. -/
def fp32 : FloatFmt := ⟨8, 23, 127, 0⟩

/-- Value of an FP32 code. -/
def ofF32 (w : Quad) : Num := decodeFloat fp32 w.toNat

/-- Value of a UE5M3 fine-scale code, none for 0xF8 to 0xFF (04, R102). -/
def ue5m3 (q : Nat) : Option (Nat × Nat) :=
  if 0xF8 ≤ q then none
  else if q < 8 then some (q, 2 ^ 17)
  else
    let (n, d) := scale2 (8 + q % 8) 8 ((q / 8 : Nat) - (15 : Int))
    some (n, d)

/-- The coarse scale is a positive, normal, finite FP32 value (04, R101). -/
def coarseOk (w : Quad) : Bool := !w.getLsbD 31 && bits w.toNat 23 8 != 0 && bits w.toNat 23 8 != 255

/-! ## Rounding (04, R107, R108) -/

/-- The 16-bit draw of SR (04, R108). -/
def srDraw (seed : Word) (index : Nat) : Nat :=
  let z : Word := seed + (BitVec.ofNat 64 (index + 1)) * 0x9E3779B97F4A7C15
  let z := (z ^^^ (z >>> 30)) * 0xBF58476D1CE4E5B9
  let z := (z ^^^ (z >>> 27)) * 0x94D049BB133111EB
  let z := z ^^^ (z >>> 31)
  (z >>> 48).toNat

/-- How a conversion rounds and saturates: mode of Table 4-6, seed, sat. -/
structure Rnd where
  mode : Nat := 0
  seed : Word := 0
  sat  : Bool := false
deriving DecidableEq, Repr

/-- Round a magnitude n / d to a multiple of 2 to the power q (04, R107, R108). -/
def roundTo (r : Rnd) (neg : Bool) (index n d : Nat) (q : Int) : Nat :=
  let (a, b) := scale2 n d (-q)
  let lo := a / b
  let rem := a % b
  if rem = 0 then lo
  else
    let up := match r.mode with
      | 0 => decide (b < 2 * rem) || (2 * rem == b && lo % 2 == 1)
      | 2 => neg
      | 3 => !neg
      | 4 => decide (65536 ≤ rem * 65536 / b + srDraw r.seed index)
      | _ => false
    if up then lo + 1 else lo

/-- A converted code with what it counts (04, R111). -/
structure Conved where
  code  : Nat
  under : Nat := 0
  sat   : Nat := 0
  nan   : Nat := 0
deriving DecidableEq, Repr

/-- Overflow of the rounding mode goes toward zero (04, Table 4-7). -/
def overflowToMax (mode : Nat) (neg : Bool) : Bool := mode == 1 || (mode == 2 && !neg) || (mode == 3 && neg)

/-- Convert a value to a floating-point layout (04, R110, R111). A finite value beyond the largest finite that is written as the
largest finite counts as a saturation in every mode (log 151). `always`: the target always saturates; `nanZero`: it has no
NaN; `block`: it is a block element, whose zero is +0 and counted as an underflow. -/
def toFloat (f : FloatFmt) (r : Rnd) (index : Nat) (block : Bool) (v : Num) : Conved :=
  let always := f.style != 0
  let sgn := fun (s : Bool) => if s then 2 ^ (f.eb + f.mb) else 0
  let infCode := (2 ^ f.eb - 1) * 2 ^ f.mb
  let maxCode := if f.style = 0 then infCode - 1 else if f.style = 1 then 2 ^ (f.eb + f.mb) - 2 else 2 ^ (f.eb + f.mb) - 1
  match v with
  | .nan =>
    if f.style = 2 then { code := 0, nan := 1 }
    else if f.style = 1 then { code := 2 ^ (f.eb + f.mb) - 1 }
    else { code := infCode + 2 ^ (f.mb - 1) }
  | .inf s => if always || r.sat then { code := sgn s + maxCode, sat := 1 } else { code := sgn s + infCode }
  | .fin s n d =>
    if n = 0 then { code := if block then 0 else sgn s }
    else
      let emin : Int := 1 - (f.bias : Int)
      let q := max (ilog2 n d) emin - f.mb
      let k := roundTo r s index n d q
      let mag := (q - (emin - f.mb)).toNat * 2 ^ f.mb + k
      let beyond := match decodeFloat f maxCode with | .fin _ m e => !leMag n d m e | _ => false
      if maxCode < mag then
        if always || r.sat || overflowToMax r.mode s then { code := sgn s + maxCode, sat := 1 } else { code := sgn s + infCode }
      else if beyond then { code := sgn s + maxCode, sat := 1 }
      else if mag = 0 && block then { code := 0, under := 1 }
      else { code := sgn s + mag }

/-- Convert a value to an integer code of `b` bits whose magnitude is at most `limit` of its sign (04, R110, R111). A finite value beyond
the range that is written as its end counts as a saturation in every mode, and as an underflow too where it rounds to 0 (log 151). -/
def toIntTo (b : Nat) (limit : Bool → Nat) (r : Rnd) (index : Nat) (v : Num) : Conved :=
  let code := fun (s : Bool) (m : Nat) => unsigned b (if s then -(m : Int) else m)
  match v with
  | .nan => { code := 0, nan := 1 }
  | .inf s => { code := code s (limit s), sat := 1 }
  | .fin s n d =>
    if n = 0 then { code := 0 }
    else
      let k := roundTo r s index n d 0
      if !leMag n d (limit s) 1 then { code := code s (limit s), sat := 1, under := if k = 0 then 1 else 0 }
      else if k = 0 then { code := 0, under := 1 }
      else { code := code s k }

/-- Convert a value to an integer format (04, R96, R110). -/
def toInt (b : Nat) (isSigned : Bool) (r : Rnd) (index : Nat) (v : Num) : Conved :=
  toIntTo b (fun s => if isSigned then (if s then 2 ^ (b - 1) else 2 ^ (b - 1) - 1) else if s then 0 else 2 ^ b - 1) r index v

/-- A conversion to an unscaled format (04, section 4.7). -/
def convert (c : Byte) (r : Rnd) (index : Nat) (v : Num) : Conved :=
  match fmtOf c with
  | some (.float f) => toFloat f r index false v
  | some (.int b s) => toInt b s r index v
  | _ => { code := 0 }

/-- The sat default of a target (04, R110). -/
def satDefault (c : Byte) : Bool := c == 0x05

/-! ## FP32 arithmetic -/

/-- Round once to FP32, to nearest even. -/
def toF32 (v : Num) : Quad := BitVec.ofNat 32 (toFloat fp32 {} 0 false v).code
/-- The value after one rounding to FP32, to nearest even (04, R98; 05, R134). -/
def rne32 (v : Num) : Num := ofF32 (toF32 v)
/-- IEEE 754-2019 binary32 addition, to nearest even. -/
def faddRne (a b : Num) : Num := rne32 (a.add b)

/-! ## MX and KX elements (04, R98, R104) -/

/-- Exact value of an MX element under its scale code, before any rounding. -/
def decodeMx (elem : Byte) (scale code : Nat) : Num :=
  if scale = 0xFF then .nan
  else (decodeElem elem code).scale ((scale : Int) - 127 - (if elem = 0x09 then 6 else 0))

/-- Exact value of a KX element: x times f times c, or the trump's value times c. `pos` is its place in the block. -/
def decodeKx (elem : Byte) (coarse : Quad) (scale : Nat) (trump : Option Nat) (pos code : Nat) : Num :=
  if !coarseOk coarse then .nan
  else match ue5m3 scale with
    | none => .nan
    | some (fn, fd) =>
      let own := match trump with
        | some t => bit t 31 && bits t 16 4 == pos
        | none => false
      if own then (decodeFloat ⟨8, 7, 127, 0⟩ (trump.getD 0 % 65536)).mul (ofF32 coarse)
      else if scale = 0 then .fin false 0 1
      else ((decodeElem elem code).mul (.fin false fn fd)).mul (ofF32 coarse)

/-! ## Block encoders (04, R99, R105, R106) -/

/-- An encoded block: scale byte, element codes, trump record, and what its conversions count. -/
structure Block where
  scale : Nat := 0
  elems : List Nat := []
  trump : Nat := 0
  under : Nat := 0
  sat   : Nat := 0
  nan   : Nat := 0
deriving DecidableEq, Repr

/-- The largest finite magnitude of a list, as n / d. -/
def maxMag (l : List Num) : Nat × Nat :=
  l.foldl (fun m v => match v with | .fin _ n d => if leMag n d m.1 m.2 then m else (n, d) | _ => m) (0, 1)

/-- Add up the counts of converted elements. -/
def Block.ofElems (scale trump : Nat) (extra : Nat) (l : List Conved) : Block :=
  { scale := scale, trump := trump, elems := l.map (·.code), under := l.foldl (· + ·.under) 0
    sat := l.foldl (· + ·.sat) extra, nan := l.foldl (· + ·.nan) 0 }

/-- A block element: block targets always saturate, +0 for zeros, underflows counted. MXINT8 codes are −127 to 127 (04, R96). -/
def blockElem (elem : Byte) (r : Rnd) (index : Nat) (v : Num) : Conved :=
  let r := { r with sat := true }
  match fmtOf elem with
  | some (.float f) => toFloat f r index true v
  | some (.int b s) => if elem = 0x09 then toIntTo 8 (fun _ => 127) r index v else toInt b s r index v
  | _ => { code := 0 }

/-- An element with the index of its SR draw; none for a pad or a masked element, which takes no part. -/
abbrev Slot4 := Option (Num × Nat)

/-- Encode one MX block (04, R99). -/
def encodeMx (elem : Byte) (emax : Int) (r : Rnd) (xs : List Slot4) : Block :=
  let vals := xs.filterMap fun x => x.map (·.1)
  if vals.any Num.isNan then { scale := 0xFF, elems := xs.map fun _ => 0 }
  else
    let a := maxMag vals
    let infs := vals.any fun v => match v with | .inf _ => true | _ => false
    if a.1 = 0 && !infs then { scale := 0, elems := xs.map fun _ => 0 }
    else
      let shared : Int := if a.1 = 0 then 127 else max (-127) (min 127 (ilog2 a.1 a.2 - emax))
      let up := if elem = 0x09 then 6 else 0
      Block.ofElems (shared + 127).toNat 0 0 (xs.map fun x =>
        match x with
        | none => { code := 0 }
        | some (v, i) => blockElem elem r i (v.scale (up - shared)))

/-- Smallest fine-scale code from 0x01 to 0xF7 whose value times c·emax covers a; 0xF7 when none does (04, R105). -/
def kxScale (a : Nat × Nat) (cn cd en ed : Nat) : Nat :=
  ((List.range 0xF7).map (· + 1)).find? (fun q =>
    match ue5m3 q with
    | some (fn, fd) => leMag a.1 a.2 (fn * cn * en) (fd * cd * ed)
    | none => false) |>.getD 0xF7

/-- Index of the largest magnitude of a block; infinities are largest, ties to the lowest (04, R105). -/
def kxTrump (xs : List Slot4) : Option Nat :=
  let mag := fun (v : Num) => match v with | .inf _ => Num.inf false | x => x.abs
  ((xs.zipIdx).foldl (fun b x =>
    match x.1 with
    | none => b
    | some (v, _) =>
      match b with
      | none => some (x.2, mag v)
      | some (i, m) => if m.lt (mag v) then some (x.2, mag v) else some (i, m)) (none : Option (Nat × Num))).map (·.1)

/-- Encode one KX block under coarse scale `c` (04, R105). A supplied scale that R101 calls invalid goes through the same steps where they
are defined; a NaN or an infinite one gives a NaN block (DESIGN CHOICE, log 152). -/
def encodeKx (elem : Byte) (en ed : Nat) (c : Quad) (trumpOn : Bool) (r : Rnd) (xs : List Slot4) : Block :=
  let vals := xs.filterMap fun x => x.map (·.1)
  let blank := xs.map fun _ => 0
  if vals.any Num.isNan then { scale := 0xFF, elems := blank }
  else
    let cv := ofF32 c
    let t := if trumpOn && vals.any (fun v => !v.isZero) then kxTrump xs else none
    let tr : Conved := match t with
      | none => { code := 0 }
      | some i => match xs.getD i none with
        | none => { code := 0 }
        | some (v, ix) => toFloat ⟨8, 7, 127, 0⟩ { r with sat := false } ix false (v.div cv)
    let rec' := match t with | none => 0 | some i => tr.code + i * 65536 + 2 ^ 31
    let rest := xs.zipIdx.map fun x => if t = some x.2 then none else x.1
    let rv := rest.filterMap fun x => x.map (·.1)
    if rv.all Num.isZero then { scale := 0, elems := blank, trump := rec', sat := tr.sat }
    else
      let a := maxMag rv
      match cv with
      | .fin _ cn cd =>
        let q := if a.1 = 0 then 0xF7 else kxScale a cn cd en ed
        let (fn, fd) := (ue5m3 q).getD (1, 1)
        Block.ofElems q rec' tr.sat (rest.map fun x =>
          match x with
          | none => { code := 0 }
          | some (v, i) => blockElem elem r i (v.div (.fin false (cn * fn) (cd * fd))))
      | _ => { scale := 0xFF, elems := blank }

/-- The coarse scale that the quantise operation computes: a_t / (Emax × 61,440) toward +infinity, at least 2⁻¹²⁶ (04, R106). -/
def autoCoarse (a : Nat × Nat) (en ed : Nat) : Quad :=
  if a.1 = 0 then 0x3F800000
  else
    let v := Num.fin false (a.1 * ed) (a.2 * en * 61440)
    let w := BitVec.ofNat 32 (toFloat fp32 { mode := 3 } 0 false v).code
    if w.toNat < 0x00800000 then 0x00800000 else w

/-! ## Packed bytes (04, R97) -/

/-- The `b`-bit field at bit `off` of little-endian bytes given by `rd`. -/
def bitField (rd : Nat → Byte) (off b : Nat) : Nat :=
  let n := (off % 8 + b + 7) / 8
  bits (leNat ((List.range n).map fun i => rd (off / 8 + i))) (off % 8) b

end Sys2Proof.Machine
end

