-- ==== Sys2Proof/Machine/State.lean ====
section
/-! DEFINITION. The machine's state, as plain data: every register, queue, counter, mode and pin that the spec gives the
package, the queue of commands that wait, and the state after reset. Each field's comment gives its width, the file
and rule of spec/ that names it, and its reset value. -/

namespace Sys2Proof.Machine

/-! ## Stops -/

/-- Faults: the machine stops. No command raises one at present: every error the spec describes is an effect on the
state (a halt cause, a status, a report). The type is kept closed and non-empty for the host's interface. -/
inductive Fault where
  /-- Raised by no command. Safe: it can only stop a run. -/
  | unreachable
deriving DecidableEq, Repr

/-- Refusals: the model gives the command no meaning. -/
inductive Refusal where
  /-- Raised by an arm of `exec` whose command has no meaning yet. Safe: the run stops. -/
  | notModelled (mnemonic : String)
deriving DecidableEq, Repr

/-! ## Names of states -/

/-- Device states (00, Table 0-5; codes 02, Table 2-9). -/
inductive DevState where
  | cold | options | rom | staging | live | doze | recovering | folded | optionConflict
deriving DecidableEq, Repr

/-- Seat states (00, Table 0-6; codes 02, section 2.4). -/
inductive SeatState where
  | free | parked | seated | playing | halted | resetting
deriving DecidableEq, Repr

/-- The commands of a doorbell or SEAT_CMD (02, Table 2-15). -/
inductive SeatOp where
  | play | halt | resume | reset | activate | seat | park | release | pin | unpin
deriving DecidableEq, Repr

/-! ## Host interface (02) -/

/-- An event of an event FIFO (02, Table 2-6). -/
structure Event where
  seat        : Nat
  state       : SeatState
  haltCause   : Byte
  incarnation : Quad
deriving DecidableEq, Repr

/-- One MSI-X table entry of a function (02, Table 2-3; PCIe layout). -/
structure Msix where
  /-- 64 bits. 02 Table 2-3 (MSI-X table). Reset DESIGN CHOICE 0 (log 6) -/
  addr   : Word := 0
  /-- 32 bits. 02 Table 2-3 (MSI-X table). Reset DESIGN CHOICE 0 (log 6) -/
  data   : Quad := 0
  /-- 1 bit. 02 R34 (vector masking in the MSI-X table). Reset PRESUMED 1, masked, as PCIe resets it (log 6) -/
  masked : Bool := true
deriving DecidableEq, Repr

/-- The command that SEAT_CMD executes until a later event ends it (02, Table 2-10). -/
structure HeldCmd where
  op   : SeatOp
  port : CmdPort
  seat : Nat
deriving DecidableEq, Repr

/-- A write to HIF_DOORBELL or SEAT_CMD: its port, command code, seat, and what an ACTIVATE brings beside them (02, Table 2-4). -/
structure CmdWrite where
  port  : CmdPort
  code  : Nat
  seat  : Nat
  facts : DeckFacts := {}
deriving DecidableEq, Repr

/-- The function page of one PCIe function, and what the package keeps for it (02, Tables 2-3 to 2-8; 16, R470). -/
structure FnPage where
  /-- Up to 16 doorbells. 02 R31. Reset empty -/
  doorbells : List CmdWrite := []
  /-- HIF_DOORBELL_STATUS.status, 8 bits. 02 Table 2-5. Reset 0x00 -/
  dbStatus  : Byte := 0
  /-- HIF_DOORBELL_STATUS.command, 4 bits. 02 Table 2-5. Reset 0x0 -/
  dbCommand : BitVec 4 := 0
  /-- HIF_DOORBELL_STATUS.seat, 12 bits. 02 Table 2-5. Reset 0x000 -/
  dbSeat    : BitVec 12 := 0
  /-- HIF_DOORBELL_STATUS.retry_after, 16 bits. 02 Table 2-5. Reset 0 -/
  dbRetry   : Half := 0
  /-- HIF_DOORBELL_STATUS.sequence, 24 bits. 02 Table 2-5. Reset 0 -/
  dbSeq     : BitVec 24 := 0
  /-- HIF_HOST_UPPER.upper, 16 bits. 02 Table 2-6. Reset 0x0000 -/
  hostUpper : Half := 0
  /-- Event FIFO, 64 entries. 02 R33. Reset empty -/
  events    : List Event := []
  /-- HIF_EVENT_POP.overflow, 1 bit. 02 R33, Table 2-6. Reset 0 -/
  eventsLost : Bool := false
  /-- IRQ_CAUSE_0, 32 bits. 02 Table 2-7. Reset 0 -/
  cause     : Quad := 0
  /-- IRQ_MASK_0, 32 bits. 02 section 2.3.3. Reset all fields 1 (masked); reserved bits [7:5] read 0 -/
  mask      : Quad := 0xFFFFFF1F
  /-- MBX_IN_CTRL_0.post, 1 bit. 02 Table 2-8. Reset 0 -/
  inPost    : Bool := false
  /-- MBX_IN_CTRL_0.accept_status, 8 bits. 02 Table 2-8. Reset 0x00 -/
  accept    : Byte := 0
  /-- MBX_IN_CTRL_0.length, 11 bits. 02 Table 2-8. Reset 0 -/
  inLen     : BitVec 11 := 0
  /-- MBX_IN_0, 1,280 bytes. 02 Table 2-3. Reset DESIGN CHOICE 0 (log 7) -/
  inWin     : Tbl Byte := []
  /-- MBX_OUT_CTRL_0.full, 1 bit. 02 Table 2-8. Reset 0 -/
  outFull   : Bool := false
  /-- MBX_OUT_CTRL_0.length, 11 bits. 02 Table 2-8. Reset 0 -/
  outLen    : BitVec 11 := 0
  /-- MBX_OUT_0, 1,280 bytes. 02 Table 2-3. Reset DESIGN CHOICE 0 (log 7) -/
  outWin    : Tbl Byte := []
  /-- MSI-X table, 32 entries. 02 Table 2-3. Reset per entry as above -/
  msix      : Tbl Msix := []
  /-- MSI-X pending-bit array, 32 bits used. 02 Table 2-3, R34. Reset 0 -/
  pba       : Quad := 0
  /-- host_incarnation, 32 bits. 16 R471. Reset 0 -/
  hostInc   : Quad := 0
  /-- Outbound queue, 16 messages, the oldest first. 16 R470. Reset empty -/
  outQ      : List (List Byte) := []
  /-- Messages that components hold because the queue is full. 16 R470. Reset empty -/
  outHeld   : List (List Byte) := []
  /-- The package's count of notices to this function, 16 bits. 16 Table 16-4 (sequence). Reset DESIGN CHOICE 0 (log 8) -/
  noticeSeq : Half := 0
deriving DecidableEq, Repr

/-- The registers of PF 0 outside the function page, and the seat engine's own (02, Tables 2-9 and 2-10). -/
structure HostIf where
  /-- 64 function pages, key 0 PF 0, n VF n. 02 R27. Reset per page as above -/
  fns         : Tbl FnPage := []
  /-- Enabled VFs (VF Enable set and NumVFs), 0 to 63. 02 R26. Reset 0 -/
  numVfs      : Nat := 0
  /-- HIF_BAR2_OFFSET.offset_gib, 9 bits. 02 Table 2-9. Reset 0 -/
  bar2Offset  : BitVec 9 := 0
  /-- SEAT_TABLE_BASE.base, 40 bits (device address bits [55:16]). 02 Table 2-10. Reset 0 -/
  tableBase   : BitVec 40 := 0
  /-- SEAT_TABLE_SIZE.entries, 13 bits. 02 Table 2-10. Reset 0 -/
  tableSize   : BitVec 13 := 0
  /-- SEAT_CMD_STATUS.busy, 1 bit, with the command that executes. 02 Table 2-10. Reset 0 -/
  cmdBusy     : Option HeldCmd := none
  /-- SEAT_CMD_STATUS.lost, 1 bit. 02 Table 2-10. Reset 0 -/
  cmdLost     : Bool := false
  /-- SEAT_CMD_STATUS.status, 8 bits. 02 Table 2-10. Reset 0x00 -/
  cmdStatus   : Byte := 0
  /-- SEAT_CMD_STATUS.command, 4 bits. 02 Table 2-10. Reset 0x0 -/
  cmdCommand  : BitVec 4 := 0
  /-- SEAT_CMD_STATUS.seat, 12 bits. 02 Table 2-10. Reset 0x000 -/
  cmdSeat     : BitVec 12 := 0
  /-- SEAT_CMD_STATUS.retry_after, 16 bits. 02 Table 2-10. Reset 0 -/
  cmdRetry    : Half := 0
  /-- SEAT_CMD_STATUS.sequence, 16 bits. 02 Table 2-10. Reset 0 -/
  cmdSeq      : Half := 0
  /-- Doorbell and SEAT_CMD writes held in DOZE, oldest first. 02 R49. Reset empty -/
  heldCmds    : List CmdWrite := []
  /-- SEAT_CACHE_CTRL.pin_limit, 6 bits. 02 Table 2-10. Reset 56 -/
  pinLimit    : BitVec 6 := 56
  /-- SEAT_CACHE_CTRL.evict_halted, 1 bit. 02 Table 2-10. Reset 0 -/
  evictHalted : Bool := false
  /-- SEAT_CACHE_CTRL.hold_halted, 1 bit. 02 Table 2-10. Reset 0 -/
  holdHalted  : Bool := false
  /-- SEAT_CACHE_STATUS.evictions, 32 bits. 02 Table 2-10. Reset 0 -/
  evictions   : Quad := 0
  /-- SEAT_PLAYING.plays, 32 bits. 02 Table 2-10. Reset 0 -/
  playsAll    : Quad := 0
  /-- SEAT_SWITCH_MAX.switch_ns, 32 bits. 02 Table 2-10. Reset 0 -/
  switchNs    : Quad := 0
  /-- SEAT_SWITCH_MAX.load_ns, 32 bits. 02 Table 2-10. Reset 0 -/
  loadNs      : Quad := 0
  /-- The PCIe link to the host is up (PERST_N high and trained). 15 R436. Reset false -/
  linkUp      : Bool := false
  /-- Size of BAR2, 2ⁿ GiB, n 0 to 9; the host's configuration writes set it. 02 R27, Table 2-1. Reset 4, 16 GiB -/
  bar2Log     : Nat := 4
  /-- PF 0 is in D3hot, not D0; the host's configuration writes set it. 02 Table 2-1. Reset PRESUMED D0 (log 143) -/
  d3hot       : Bool := false
  /-- AER uncorrectable error status, 32 bits. 02 Table 2-1. Reset PRESUMED 0 (log 143) -/
  aerStatus   : Quad := 0
  /-- AER uncorrectable error mask, 32 bits. 02 Table 2-1. Reset PRESUMED 0 (log 143) -/
  aerMask     : Quad := 0
  /-- AER uncorrectable error severity, 32 bits, 1 fatal. 02 Table 2-1. Reset PRESUMED 0x00462030 (log 143) -/
  aerSeverity : Quad := 0x00462030
deriving DecidableEq, Repr

/-! ## Seats (02, 03, 18) -/

/-- A segment window (02, Table 2-13). -/
structure Window where
  low  : Nat := 0
  base : Nat := 0
  size : Nat := 0
  r    : Bool := false
  w    : Bool := false
  x    : Bool := false
  k    : Bool := false
  c    : Bool := false
deriving DecidableEq, Repr

/-- The RW fields of a seat-table entry (02, Table 2-12). -/
structure Entry where
  format       : Nat := 0
  tenant       : Half := 0
  owner        : Nat := 0
  prio         : Nat := 0
  balance      : Bool := false
  resetWindow  : Nat := 0
  resetLimit   : Nat := 0
  keySlot      : Nat := 0
  heartbeat    : Nat := 0
  deckHandle   : Nat := 0
  contextArea  : Nat := 0
  cdBase       : Nat := 0
  cdCount      : Nat := 0
  pkgBase      : Nat := 0
  pkgCount     : Nat := 0
  lockBase     : Nat := 0
  lockCount    : Nat := 0
  mbxQuota     : Nat := 0
  groupQuota   : Nat := 0
  playQuota    : Nat := 0
  buddy        : Nat := 0
  epochPeriod  : Nat := 0
  dummyBase    : Nat := 0
  dummyHalf    : Nat := 0
  windows      : List Window := []
deriving DecidableEq, Repr

/-- One stream of a deck header (03, Table 3-7). -/
structure Stream where
  off   : Nat := 0
  len   : Nat := 0
  entry : Nat := 0
deriving DecidableEq, Repr

/-- The deck header (03, Table 3-7). -/
structure Deck where
  magic       : Nat := 0
  fciVersion  : Nat := 0
  headerSize  : Nat := 0
  flags       : Nat := 0
  size        : Nat := 0
  minFirmware : Nat := 0
  part        : Nat := 0
  cdTallies   : Nat := 0
  pkgTallies  : Nat := 0
  locks       : Nat := 0
  groups      : Nat := 0
  hostSignals : Nat := 0
  phaseCount  : Nat := 0
  unitMapReq  : Nat := 0
  eprogCount  : Nat := 0
  phaseOff    : Nat := 0
  eprogOff    : Nat := 0
  constOff    : Nat := 0
  constSize   : Nat := 0
  streams     : List Stream := []
  digest      : Nat := 0
deriving DecidableEq, Repr

/-- A hardware loop level (03, Table 3-1): count, start and end, 32 bits each; `lastLen` is the length of the
instruction at `last`, which the private encoding gives. -/
structure LoopLvl where
  active  : Bool := false
  count   : Quad := 0
  start   : Quad := 0
  last    : Quad := 0
  lastLen : Nat := 0
deriving DecidableEq, Repr

/-- The state of one sequencer that a seat's context saves (03, R58, Table 3-1). -/
structure Ctx where
  /-- s1–s31, 32 × 64 bits with s0. 03 Table 3-1. Seat start 0 -/
  s     : Tbl Word := []
  /-- g0–g15, 16 × 64 bits. 03 Table 3-1. Seat start 0 -/
  g     : Tbl Word := []
  /-- f0–f63, 64 × 1 bit. 03 Table 3-1. Seat start 0 -/
  f     : Tbl Bool := []
  /-- lc0–lc3, 4 × (32 count, 32 start, 32 end). 03 Table 3-1. Seat start inactive -/
  lc    : Tbl LoopLvl := []
  /-- pc, 32 bits. 03 Table 3-1. Seat start: entry offset of the stream table; DESIGN CHOICE 0 before a deck (log 9) -/
  pc    : Quad := 0
  /-- phase, 6 bits. 03 Table 3-1. Seat start 0 -/
  phase : BitVec 6 := 0
  /-- vl, 11 bits. 03 Table 3-1. Seat start 1,024 -/
  vl    : BitVec 11 := 1024
  /-- cyc, 64 bits. 03 Table 3-1. Seat start 0 -/
  cyc   : Word := 0
deriving DecidableEq, Repr

/-- One conversion counter set (04, R112): three saturating U32. -/
structure Conv where
  /-- underflows, 32 bits. 04 R112. Seat start 0 -/
  under : Nat := 0
  /-- saturations, 32 bits. 04 R112. Seat start 0 -/
  sat   : Nat := 0
  /-- NaNs written as 0, 32 bits. 04 R112. Seat start 0 -/
  nan   : Nat := 0
deriving DecidableEq, Repr

/-- What the seat object shows while the seat is cached: the values at its last save or load (17, Table 17-14). -/
structure SeatShown where
  /-- incarnation, 32 bits. 17 Table 17-14. Reset 0 -/
  inc         : Quad := 0
  /-- reset_count, 16 bits. 17 Table 17-14. Reset 0 -/
  resetCount  : Half := 0
  /-- reset_window_start, 64 bits. 17 Table 17-14, the entry. Reset 0 -/
  windowStart : Word := 0
  /-- plays, 32 bits. 17 Table 17-14. Reset 0 -/
  plays       : Quad := 0
  /-- heartbeat, 64 bits. 17 Table 17-14. Reset 0 -/
  heartbeat   : Nat := 0
deriving DecidableEq, Repr

/-- What the seat engine and OHM-REL keep for one seat. -/
structure SeatInfo where
  /-- state, 8 bits (0–5). 02 Table 2-12 offset 0x000. Reset FREE -/
  state        : SeatState := .free
  /-- halt_cause, 8 bits. 02 Table 2-12 offset 0x007. Reset 0 -/
  haltCause    : Byte := 0
  /-- incarnation, 32 bits. 02 Table 2-12 offset 0x008. Reset 0 -/
  inc          : Quad := 0
  /-- reset_count, 16 bits. 02 Table 2-12 offset 0x00C. Reset 0 -/
  resetCount   : Half := 0
  /-- reset_window_start, 64 bits. 02 Table 2-12 offset 0x018. Reset 0 -/
  windowStart  : Word := 0
  /-- full TIME_EPOCH of reset_window_start. 18 R519. Reset 0 -/
  windowEpoch  : Quad := 0
  /-- last_epoch, 64 bits. 02 Table 2-12 offset 0x068. Reset 0 -/
  lastEpoch    : Word := 0
  /-- RW fields as last validated or loaded. 02 R40. Reset: all 0 -/
  entry        : Entry := {}
  /-- The entry's 512 bytes as last loaded, rewritten at eviction or park. 02 R40. Reset: all 0 -/
  raw          : List Byte := []
  /-- Pending flag, with its order among the seats. 02 R50. Reset clear -/
  pending      : Option Nat := none
  /-- The seat holds a cache entry. 02 R55. Reset false -/
  cached       : Bool := false
  /-- The seat is pinned. 02 R56. Reset false -/
  pinned       : Bool := false
  /-- slab_intact. 02 R47. Reset false -/
  slabIntact   : Bool := false
  /-- The seat went to HALTED from PLAYING. 02 R47. Reset false -/
  fromPlaying  : Bool := false
  /-- Order in which the seat last left PLAYING. 02 R55. Reset 0, never played -/
  leftOrder    : Nat := 0
  /-- plays, 32 bits. 02 Table 2-11. Reset 0 -/
  plays        : Quad := 0
  /-- What the seat object shows of a cached seat. 17 Table 17-14. Reset all 0 -/
  shown        : SeatShown := {}
  /-- A load is in progress: its start time and the command that started it. 02 R54. Reset none -/
  loading      : Option (Word × SeatOp) := none
  /-- Commands that take effect when the load or switch in progress ends. 02 R44. Reset empty -/
  deferred     : List SeatOp := []
  /-- Eight saved sequencer contexts, key CD. 03 R58. Reset: seat-start values -/
  ctx          : Tbl Ctx := []
  /-- Saved conversion counters, key 4 × CD + set. 04 R112. Reset 0 -/
  conv         : Tbl Conv := []
  /-- Deck header accepted at ACTIVATE. 03 R84. Reset: none -/
  deck         : Option Deck := none
  /-- Constant pool of a deck that lies outside the package. 03 R591. Reset empty -/
  consts       : List (Byte × Bool) := []
  /-- Phase table of a deck that lies outside the package. 03 R84, R587. Reset empty -/
  phases       : List (Byte × Bool) := []
  /-- Decoded element programs of the deck. 07 R202. Reset empty -/
  eprogs       : List (List EStep) := []
  /-- End of the release scrub in progress, in timebase ns. 02 R44, 19 R553. Reset none -/
  releasing    : Option Nat := none
  /-- Start of the seat reset in progress: time, and source (1 command, 2 FLR, 3 host-port reset). 02 R45, 18 R516. Reset none -/
  resetting    : Option (Word × Nat) := none
  /-- The seat reset in progress began from PARKED. 02 R48. Reset false -/
  resetParked  : Bool := false
  /-- The seat becomes PARKED when its reset ends, because its VF ceased to exist. 02 R26. Reset false -/
  parkAfter    : Bool := false
  /-- The seat is folded. 18 R520. Reset false -/
  folded       : Bool := false
  /-- Shadow mask, 16 bits. 18 R528. Reset all windows -/
  shadow       : Half := 0xFFFF
  /-- Shadow mask that applies from the next epoch. 18 Table 18-13. Reset none -/
  shadowNext   : Option Half := none
  /-- Timebase second index of the last epoch boundary that opened an epoch, or of ACTIVATE or restore. 18 R533. Reset 0 -/
  epochMark    : Word := 0
  /-- The report of a dummy that cannot be opened has been made. 18 R527. Reset false -/
  epochBad     : Bool := false
deriving DecidableEq, Repr

/-! ## The play and the sequencers (02, 03) -/

/-- What the PLAYING seat is doing. -/
inductive PlayPhase where
  /-- a switch into the seat is in progress (02 R44) -/
  | switching
  /-- ready; issues at the next period boundary (02 R57, 01 R20) -/
  | ready
  /-- issuing instructions -/
  | issuing
  /-- SWPT waits for the drain; the k field (03 R81) -/
  | draining (k : Nat)
  /-- END waits for the units (03 R71) -/
  | ending
  /-- a halt waits for the operations already issued; its cause (02 R46) -/
  | halting (cause : Byte)
  /-- at a switch point the seat has been found to leave; the switch out of it is in progress (02 R51) -/
  | leaving
deriving DecidableEq, Repr

/-- The play in progress: SEAT_PLAYING.valid and .seat (02, Table 2-10). -/
structure Play where
  seat     : Nat
  phase    : PlayPhase
  /-- time at which the active slot-schedule phase became active (03, R79) -/
  phaseSince : Word := 0
  /-- cyc at the start of the play (03, R82) -/
  startCyc : Word := 0
  /-- time at which the switch into the seat began -/
  began    : Word := 0
  /-- this play resumes a seat with slab_intact (02, R47) -/
  intact   : Bool := false
deriving DecidableEq, Repr

/-- Where a pending register write comes from (03, R66). -/
inductive PendSrc where
  | ldn | ldc | tld | vred | rdx | lock | taddR
deriving DecidableEq, Repr

/-- A register write that has not landed (03, R66): the destination, its source, and the value once known. -/
structure Pend where
  dst   : Dst
  src   : PendSrc
  value : Option Word := none
  /-- the @done signal of LD.N, LD.C, LOCK (03, R63) -/
  done  : Option Target := none
  /-- the operation that gives the value, when a unit computes it -/
  op    : Option Nat := none
  /-- TLD: the tally unit and absolute index that it reads (09, R262) -/
  tally : Option (Nat × Nat) := none
deriving DecidableEq, Repr

/-- A timed stall of a sequencer or unit (09, R279, Table 9-7). -/
structure Stall where
  kind      : Nat
  objKind   : Nat
  object    : Nat
  threshold : Word
  since     : Word
  pc        : Quad
  /-- the conditions of the wait field that stalls (03, R62) -/
  conds     : List Cond := []
deriving DecidableEq, Repr

/-- One sequencer (03): its live context, pending writes, stall, and the gang instruction it has issued early. -/
structure Seq where
  /-- live sequencer state. 03 R58. Reset: seat-start values -/
  ctx    : Ctx := {}
  /-- pending register writes, oldest first. 03 R66. Reset empty -/
  pend   : List Pend := []
  /-- gang instruction issued before its gang point. 03 R68. Reset none -/
  gang   : Option Instr := none
  /-- descriptor bytes that the gang instruction read at issue. 03 R69. Reset empty -/
  gangDesc : List Byte := []
  /-- stall in progress. 09 R279. Reset none -/
  stall  : Option Stall := none
  /-- a LOCK is outstanding: absolute lock index. 09 R275. Reset none -/
  lock   : Option Nat := none
  /-- Conversion counters of the CD, four sets. 04 R112. Reset 0 -/
  conv   : Tbl Conv := []
deriving DecidableEq, Repr

/-! ## Tallies, flags and locks (09) -/

/-- Where an add comes from, in the order of R259. -/
inductive AddSrc where
  | own (unit : Nat)
  | cd (src : Nat) (unit : Nat)
  | remote (pos : Nat) (inc : Quad)
  | host
deriving DecidableEq, Repr

/-- An add that waits in a tally unit's inbox (09, R259): absolute index, amount, source, and the seat that issued it. -/
structure Add where
  tally  : Nat
  amount : Nat
  src    : AddSrc
  seat   : Option Nat
  /-- a remote add to answer: its port or connection, and its packet (09 R271) -/
  reply  : Option (Nat × Packet) := none
deriving DecidableEq, Repr

/-- A lock (09, R274, Table 9-6). -/
structure Lock where
  /-- state, 2 bits: 0 FREE, 1 HELD, 2 BROKEN. 09 Table 9-6. Reset FREE -/
  state   : Nat := 0
  /-- owner seat, incarnation, CD. 09 R274. Reset none -/
  owner   : Option (Nat × Quad × Nat) := none
  /-- waiter queue, 8 requests, seat, incarnation and CD. 09 R275. Reset empty -/
  waiters : List (Nat × Quad × Nat) := []
deriving DecidableEq, Repr

/-- A release that a CD holds until earlier writes have committed (09, R276). -/
structure Unlock where
  cd   : Nat
  lock : Nat
  seat : Nat
  inc  : Quad
  /-- operations issued before it by the same sequencer -/
  after : List Nat
  done : Option Target := none
deriving DecidableEq, Repr

/-- A TADD.R whose status has not returned (09, R270): its tag, its issuer and destination register, the operations that it
waits for, and the packet to a member's table and slot. -/
structure RemoteAdd where
  tag   : Half
  seat  : Nat
  inc   : Quad
  cd    : Nat
  dst   : Dst
  after : List Nat := []
  sent  : Bool := false
  /-- timed out: the status that returns late is discarded (09 R280) -/
  dead  : Bool := false
  table : Half
  slot  : Nat
  pkt   : Packet
  /-- time and pc of its issue (09, R280) -/
  since : Word := 0
  pc    : Quad := 0
deriving DecidableEq, Repr

/-- Tallies, locks and the debug window (09). -/
structure Sync where
  /-- CD tallies, 8 × 4,096 × 64 bits, key 4,096 × CD + n. 09 R254. Reset 0 -/
  cdTally  : Tbl Word := []
  /-- Package tallies, 16,384 × 64 bits. 09 R254. Reset 0 -/
  pkgTally : Tbl Word := []
  /-- Locks, 256. 09 R254. Reset FREE -/
  locks    : Tbl Lock := []
  /-- Inboxes of the tally units, key CD, 8 for ED_W; 256 entries and the adds held beyond them. 09 R259. Reset empty -/
  inbox    : Tbl (List Add) := []
  /-- UNLOCKs held at their CDs. 09 R276. Reset empty -/
  unlocks  : List Unlock := []
  /-- TADD.Rs issued whose status has not returned. 09 R270 to R272. Reset empty -/
  remotes  : List RemoteAdd := []
  /-- Member seats of this package that destroyed groups named: tenant, group, seat, recorded incarnation. 09 R271. Reset none -/
  gone     : List (Half × Half × Nat × Quad) := []
  /-- DBG_SYNC_SEL, 30 bits. 09 Table 9-9. Reset 0 -/
  dbgSel   : BitVec 30 := 0
  /-- DBG_SYNC_VAL, 64 bits. 09 Table 9-9. Reset 0 -/
  dbgVal   : Word := 0
deriving DecidableEq, Repr

/-! ## Memory (08) -/

/-- A DMA descriptor (08, Table 8-9a). -/
structure DmaDesc where
  src : Nat := 0
  dst : Nat := 0
  len : Nat := 0
  count1 : Nat := 0
  count2 : Nat := 0
  op  : Nat := 0
  poisonHalt : Bool := false
  srcStride1 : Int := 0
  dstStride1 : Int := 0
  srcStride2 : Int := 0
  dstStride2 : Int := 0
deriving DecidableEq, Repr

/-- A crossing of one link (10, Table 10-1): a WDL edge, or an IPS link, from a die to the next; CD n is n, ED_W 8, ED_E 9. -/
structure Hop where
  ips : Bool
  src : Nat
  dst : Nat
deriving DecidableEq, Repr

/-- The row of a deal that a burst carries (06, R182, R183): its group and deal, whether it returns to its source, and the place of its
piece among the gathered or the result rows. -/
structure RowMove where
  tenant  : Half
  group   : Half
  deal    : Nat
  combine : Bool
  off     : Nat
deriving DecidableEq, Repr

/-- A write burst of a DMA engine, or of a deal unit that moves a row inside the package (08, R237, R249 to R251): route-checked device
addresses, and how far it has come. -/
structure Burst where
  id     : Nat
  op     : Nat
  src    : Nat
  dst    : Nat
  len    : Nat
  /-- key slots of the two sides (08, R243) -/
  srcSlot : Nat := 0
  dstSlot : Nat := 0
  /-- bytes read, each with the poison mark of its sector -/
  data   : List (Byte × Bool) := []
  /-- 1 on its way, 2 at the target, 3 waits for a reply from outside -/
  stage  : Nat := 1
  /-- die-to-die hops still to cross (08, R236) -/
  hops   : List Hop := []
  /-- the hop at whose receiving end it waits in its owner's staging lane (08, R237); none: with its master or its target -/
  lane   : Option Hop := none
  /-- the row of a deal that it carries -/
  row    : Option RowMove := none
deriving DecidableEq, Repr

/-- Refresh state of one channel (08, R234): refreshes carried in the current sweep and the time it began. -/
structure Refresh where
  carried : Nat := 0
  began   : Word := 0
deriving DecidableEq, Repr

/-- Memories and their controllers (08). -/
structure Memory where
  /-- Bytes of slab, near tier and far tier. 08 Table 8-1; zeroed at cold reset (15 Table 15-9 step 9). Reset: nothing listed, 0 -/
  mem       : List Host.Cell := []
  /-- Poison marks, one per 64-byte sector, key cell / 64. 08 R239. Reset clear -/
  poison    : Tbl Bool := []
  /-- Key under which each far-tier sector was last written, key cell / 64. 08 R243. Reset: the zeroing's key -/
  sectorKey : Tbl Nat := []
  /-- Written bits of the slab rows, key 327,680 × CD + row. 08 R223. Reset clear -/
  written   : Tbl Bool := []
  /-- ft_band_mode, 48 bits. 08 R230, Table 8-9; loaded from the options at cold reset. Reset DESIGN CHOICE 0 before the options load (log 10) -/
  bandMode  : BitVec 48 := 0
  /-- Refresh multipliers of the 16 memories, key 0–7 near, 8–15 far. 08 R235. Reset 1 -/
  refMult   : Tbl Nat := []
  /-- Refresh sweeps, key 32 × memory + channel. 08 R234. Reset: sweep begun at 0 -/
  refresh   : Tbl Refresh := []
  /-- Scrub positions, next sector of slab (0–7), near (8–15), far (16–23). 08 R242. Reset 0 -/
  scrubPos  : Tbl Nat := []
  /-- Corrected sectors that wait for a reserved slot, memory and sector. 08 R240. Reset empty -/
  writeback : List (Nat × Nat) := []
  /-- Write stamp of each 64 KiB page of near and far tier, key device address / 65,536. 18 R534. Reset 0 -/
  pageStamp : Tbl Nat := []
  /-- Count of writes behind the page stamps. 18 R534. Reset 0 -/
  stamp     : Nat := 0
  /-- Bursts in flight. 08 R250. Reset empty -/
  bursts    : List Burst := []
deriving DecidableEq, Repr

/-! ## Operations of the units (03, R60) -/

/-- The units of a CD with a command queue; `array` is the gang unit. -/
inductive OpUnit where
  | dma (engine : Nat) | xps | vec | mvp | deal | coll | array | narrow
deriving DecidableEq, Repr

/-- An operation that a unit holds (03, R60; 09, R265). -/
structure Op where
  id     : Nat
  cd     : Nat
  unit   : OpUnit
  seat   : Nat
  inc    : Quad
  pc     : Quad
  instr  : Instr
  /-- @done signals, one per CD for a gang operation, indices relative to the seat's ranges -/
  done   : List (Nat × Target) := []
  /-- the operation's own work has ended -/
  fin    : Bool := false
  /-- descriptor or block bytes, as read at issue (07, R195; 08, R225) -/
  data   : List Byte := []
  /-- register values read at issue -/
  vals   : List Nat := []
  /-- time at which it entered its queue or came to its head (03, R79; 09, R279) -/
  since  : Word := 0
  /-- completion record not yet written, for want of slots: slab offset and bytes (12, R373; 03, R79) -/
  owed   : Option (Nat × List Byte) := none
deriving DecidableEq, Repr

/-! ## The array, the tile queues and the MVPs (05, 06, 07) -/

/-- One run of a product: an MMA is one, an MMAG one per non-empty segment (06, R167). -/
structure SegRun where
  m    : Nat
  aRow : Nat := 0
  cRow : Nat := 0
  /-- the eight CDs' shares of B -/
  b    : List Tensor
deriving DecidableEq, Repr

/-- One output tile with the slice that computes it (05, R130). -/
structure Tile where
  seg  : Nat
  row0 : Nat
  rows : Nat
  col0 : Nat
  cols : Nat
  cd   : Nat
deriving DecidableEq, Repr

/-- A gang product as its gang point fixed it (05, 06). -/
structure Prod where
  n : Nat
  k : Nat
  tileRows   : Nat := 1024
  outFormat  : Byte
  outStat    : Bool := false
  transB     : Bool := false
  rnd        : Rnd := {}
  accumulate : Bool := false
  haltAtOnce : Bool := false
  toQueue    : Bool := false
  kcompact   : Bool := false
  segs  : List SegRun
  /-- the eight CDs' shares of A and of C -/
  a     : List Tensor
  c     : List Tensor
  /-- A and C are in deal layout (06, R164) -/
  deal  : Bool := false
  /-- slab offsets of the zero maps, when one is in use -/
  zmaps   : Option (List Nat) := none
  /-- counter records (04, R113) -/
  records : List (Option Nat) := []
  tag   : Byte := 0
  tiles : List Tile := []
  /-- the WLD whose binding a weight-stationary MMA uses (05, R125) -/
  wld   : Option Nat := none
deriving DecidableEq, Repr

/-- A stationary tile as a slice's cells hold it (05, R125): columns from `col0` on, K indices, and for each index the row of cells; a
pruned position holds nothing (06, R155). Each value has its poison mark. -/
structure Plane where
  /-- the WLD that bound B; none: an MMAG -/
  wld   : Option Nat := none
  /-- it was loaded with transpose of B (05, R129) -/
  transB : Bool := false
  col0  : Nat := 0
  cols  : Nat := 0
  ks    : List Nat := []
  cells : List (List (Option (Num × Bool))) := []
  /-- it was loaded again after a failing re-add at the end of WLD's load (05, R140) -/
  again : Bool := false
deriving DecidableEq, Repr

/-- How far a slice has come in an array operation: its tile (index among its own), pass and row, rows of the pass already
written, and whether the pass is one that a retry restarted (05, R142, R143). -/
structure SliceProg where
  tile    : Nat := 0
  pass    : Nat := 0
  row     : Nat := 0
  written : Nat := 0
  retried : Bool := false
  /-- d0 to d3 of the failure that the running retry answers (18, report 0x0104) -/
  fail    : List Nat := []
  /-- row at which a retry stopped the slice, and when (05, R143) -/
  stopped : Option (Nat × Word) := none
  /-- the stationary tile of the pass is still to load, waiting for slots; true inside: a retry loads it again (05, R125, R143; 03, R79) -/
  toLoad  : Option Bool := none
  /-- when the partial stall that runs began (05, R133, R144) -/
  stall   : Option Word := none
  /-- tile-queue bands of the tile claimed so far (07, R213) -/
  bands   : Nat := 0
  /-- conversions of this operation, counted for its record (04, R113) -/
  counts  : Conv := {}
deriving DecidableEq, Repr

/-- An array operation: the product, and each slice's progress once it has started. -/
structure ArrOp where
  id      : Nat
  prod    : Prod
  started : Bool := false
  prog    : Tbl SliceProg := []
deriving DecidableEq, Repr

/-- One entry of a tile queue (07, R211): header, 128 × 128 FP32 values, key 128 × row + column. -/
structure TEntry where
  op   : Nat
  n    : Nat
  row0 : Nat
  col0 : Nat
  rows : Nat
  cols : Nat
  tag  : Byte
  /-- rows written so far -/
  filled : Nat := 0
  avail  : Bool := false
  data   : Tbl Quad := []
deriving DecidableEq, Repr

/-- The tile queue of one CD (07, section 7.7): 16 entries, and the operations that wait to pair. -/
structure TileQ where
  /-- up to 16 entries held, oldest first. 07 R211. Reset empty -/
  entries : List TEntry := []
  /-- tile-destination MMAs not yet consumed, in issue order. 07 R212. Reset empty -/
  mmas    : List Nat := []
  /-- tile-mode VRUNs not yet complete, in issue order. 07 R212. Reset empty -/
  vruns   : List Nat := []
  /-- entries the VRUN at the head has consumed. 07 R196. Reset 0 -/
  taken   : Nat := 0
  /-- reduction of the VRED at the head so far: exact value or 64 bits. 07 R217. Reset: none begun -/
  red     : Option (Num × Word) := none
  /-- conversions of the VRUN at the head. 04 R113. Reset 0 -/
  counts  : Conv := {}
  /-- elements of row and column vectors that the VRUN at the head has read, key 4 × index + stream. 07 R210. Reset: none -/
  vecs    : Tbl (Quad × Bool) := []
  /-- regions that it has stored: first row, rows, first column, columns. 07 R218. Reset: none -/
  covers  : List (Nat × Nat × Nat × Nat) := []
  /-- it has had an active element: only then are zero-map bits written. 07, edges of 7.5. Reset: none -/
  active  : Bool := false
  /-- MMAs whose VRUN has left the engine with a halt: their entries are dropped as they are claimed. 07 R212; log 140. Reset: none -/
  lost    : List Nat := []
deriving DecidableEq, Repr

/-- Progress of an MVP operation (05, R589). -/
structure MvpProg where
  /-- weight tiles compared in this run -/
  next      : Nat := 0
  restarted : Bool := false
  /-- column groups written -/
  written   : Nat := 0
  counts    : Conv := {}
deriving DecidableEq, Repr

/-- An indication of a faulty cell row or column (05, R144): slice, row or column, index, time. -/
structure Indic where
  cd    : Nat
  row   : Bool
  index : Nat
  time  : Word
deriving DecidableEq, Repr

/-- The array, its checks and the MVPs (05). -/
structure Arr where
  /-- B as WLD bound it, the eight CDs' operands. 05 R125. Reset none -/
  bind    : Option (List WldArgs) := none
  /-- The WLD operation that bound it. 05 R125. Reset none -/
  boundBy : Option Nat := none
  /-- WLDs in the queue, with the eight CDs' operands. 05 R125. Reset empty -/
  loads   : List (Nat × List WldArgs) := []
  /-- Stationary tiles, key CD. 05 R125. Reset: none loaded -/
  planes  : Tbl Plane := []
  /-- Array operations, oldest first. 05 R145. Reset empty -/
  prods   : List ArrOp := []
  /-- Accumulator files, 1,024 × 512 running sums, key 1,024 × CD + row. 05 R127. Reset empty -/
  acc     : Tbl (List Num) := []
  /-- Tile queues, key CD. 07 section 7.7. Reset empty -/
  queues  : Tbl TileQ := []
  /-- Progress of the MVP operation at the head, key CD. 05 R589. Reset: at the start -/
  mvp     : Tbl MvpProg := []
  /-- check_fail_col, key CD, 32 bits. 05 Table 5-4. Reset 0 -/
  failCol : Tbl Nat := []
  /-- check_fail_row, key CD, 32 bits. 05 Table 5-4. Reset 0 -/
  failRow : Tbl Nat := []
  /-- retries, key CD, 32 bits. 05 Table 5-4. Reset 0 -/
  retries : Tbl Nat := []
  /-- retry_halts, key CD, 16 bits. 05 Table 5-4. Reset 0 -/
  halts   : Tbl Nat := []
  /-- stall_cycles, key CD, 64 bits. 05 Table 5-4. Reset 0 -/
  stalls  : Tbl Nat := []
  /-- Indications of the last 24 h. 05 R144. Reset empty -/
  indics  : List Indic := []
  /-- Soft jokers assigned: slice, row or column, index (512 the check row or column). 05 section 5.6. Reset none -/
  soft    : List (Nat × Bool × Nat) := []
  /-- Faulty rows and columns that the fuses name. 05 section 5.6. Reset none (log 14) -/
  hard    : List (Nat × Bool × Nat) := []
deriving DecidableEq, Repr

/-! ## Die links (10) -/

/-- What a spare of a slice does (10, R301, R302). -/
inductive SpareUse where
  | monitor
  | carries (wire : Nat)
  | bad
deriving DecidableEq, Repr

/-- Sender of one slice of one direction of a die link (10, R293, R295). -/
structure LinkSend where
  /-- sequence of the next new frame, 16 bits. 10 Table 10-3. Reset 0 -/
  next    : Half := 0
  /-- up to 32 frames sent and not accepted, oldest first. 10 R293. Reset empty -/
  held    : List (Half × List (BitVec 128)) := []
  /-- place in `held` of the next frame of the resend in progress. 10 R295. Reset none -/
  resend  : Option Nat := none
  /-- times the 32 outstanding frames have been sent without acknowledgement. 10 R297. Reset 0 -/
  rounds  : Nat := 0
  /-- transmit queue, 32 frames' payload. 10 R293. Reset empty -/
  queue   : List (List (BitVec 128)) := []
  /-- CRC-32 of the frame sent last; none: no frame since training. 10 R287, R288. Reset none -/
  prevCrc : Option Quad := none
deriving DecidableEq, Repr

/-- A frame whose CRC arrives in the next beat 0 (10, R294). -/
structure LinkHeld where
  seq     : Half
  /-- its own beat 0 missed -/
  missed  : Bool
  /-- CRC-32 as computed over the received bits -/
  crc     : Quad
  /-- beats 1 to 255 as received. 10 R292 -/
  raw     : List (BitVec 128)
  /-- descrambled payload -/
  payload : List (BitVec 128)
  /-- mismatches seen by each monitoring spare: spare, wire, count -/
  mism    : List (Nat × Nat × Nat)
deriving DecidableEq, Repr

/-- Receiver of one slice of one direction of a die link (10, R291 to R296, R300 to R302). -/
structure LinkRecv where
  /-- lock lost since the training. 10 R292. Reset false -/
  lost     : Bool := false
  /-- first frame not accepted, 16 bits. 10 R294. Reset 0 -/
  expected : Half := 0
  /-- sequence of the frame received last, 16 bits. 10 R291. Reset 0xFFFF -/
  last     : Half := 0xFFFF
  /-- the frame received last. 10 R294. Reset none -/
  held     : Option LinkHeld := none
  /-- a nak goes out in each reverse frame. 10 R294. Reset true: when a receiver locks at the eighth marker of a training, the frame is above the
  expected frame 0, and it asks for that one -/
  nak      : Bool := true
  /-- consecutive beats 0 that missed. 10 R292. Reset 0 -/
  misses   : Nat := 0
  /-- consecutive frames that failed their CRC. 10 R292. Reset 0 -/
  fails    : Nat := 0
  /-- payload accepted by the slice, waiting for the link's acceptance. 10 R299. Reset empty -/
  inbox    : List (List (BitVec 128)) := []
  /-- frames that the link has accepted from this slice. 10 R299. Reset 0 -/
  taken    : Nat := 0
  /-- control slice: beats of the expected frame released. 10 R300. Reset 0 -/
  released : Nat := 0
  /-- control slice: resent beats still to discard. 10 R300. Reset 0 -/
  skip     : Nat := 0
  /-- control slice: beats are withheld until the frame is resent. 10 R300. Reset false -/
  withheld : Bool := false
  /-- beats received without lock that a marker of the search can still need. 10 R291, R292. Reset empty -/
  seen     : List (BitVec 128) := []
  /-- mismatches of the current monitoring step, key wire, or 200 + spare. 10 R302. Reset 0 -/
  counts   : Tbl Nat := []
  /-- current monitoring step, sequence / 256. 10 R302. Reset 0 -/
  mstep    : Nat := 0
deriving DecidableEq, Repr

/-- The die-to-die links (10). Keys of slices: (2 × link + direction) × 129 + slice. -/
structure Links where
  /-- the links have trained. 10 R305. Reset false -/
  trained : Bool := false
  send    : Tbl LinkSend := []
  recv    : Tbl LinkRecv := []
  /-- Use of the spares, key 4 × slice key + spare, both ends. 10 R301 to R304. Reset: every spare monitors -/
  spares  : Tbl SpareUse := []
  /-- Seeds of the 60 directions, 58 bits each: the model's free values from this number on (log 3). 10 R290. Reset: none drawn -/
  seeds   : Nat := 0
  /-- Links that have failed. 10 R297. Reset none -/
  failed  : List Nat := []
  /-- Wires that training finds bad, slice key and wire; the world outside the model sets them. 10 R305. Reset none (log 31) -/
  faulty  : List (Nat × Nat) := []
deriving DecidableEq, Repr

/-! ## Timebase (13) -/

/-- An exchange of table time or PTP in progress (13, R398, R401). -/
structure Exch where
  num : Nat := 0
  t1  : Option Word := none
  t2  : Option Word := none
  t3  : Option Word := none
  t4  : Option Word := none
  ok  : Bool := true
  epoch : Quad := 0
  began : Word := 0
  grandmaster : Word := 0
deriving DecidableEq, Repr

/-- The timebase (13). -/
structure Time where
  /-- Timebase, 64 bits, ns. 13 R386, R388. Reset 0 -/
  ns        : Word := 0
  /-- Fraction below it, 32 bits. 13 R386. Reset 0 -/
  frac      : Quad := 0
  /-- TIME_EPOCH, 32 bits. 13 R387, R388. Reset 0 -/
  epoch     : Quad := 0
  /-- time_state, 0 FREE to 3 STEP_PENDING. 13 Table 13-3, R388. Reset FREE -/
  state     : Nat := 0
  /-- freq_ppb, f in parts per 10⁹. 13 Table 13-4. Reset 0 -/
  freq      : Int := 0
  /-- slew s in ppm: −500, 0 or 500. 13 R393. Reset 0 -/
  slew      : Int := 0
  /-- slew_remaining, held in ps (the object shows ns). 13 R393, Table 13-4. Reset 0 -/
  remaining : Int := 0
  /-- offset, ns. 13 Table 13-4. Reset 0 -/
  offset    : Int := 0
  /-- source, 0 none, 1 dealer, 2 PTP. 13 Table 13-4. Reset 0 -/
  source    : Nat := 0
  /-- grandmaster, 8 bytes. 13 Table 13-4. Reset 0 -/
  grandmaster : Word := 0
  /-- The exchanges in progress, oldest first. 13 R398, R399. Reset none -/
  exchs     : List Exch := []
  /-- A step that takes effect at the next TCLK edge: offset and TIME_EPOCH. 13 R389. Reset none -/
  stepDue   : Option (Int × Quad) := none
  /-- Last exchange number sent by this dealer. 13 Table 13-2. Reset DESIGN CHOICE 0 (log 8) -/
  exchNum   : Half := 0
  /-- PTP master that the dealer has selected: clockIdentity and rank. 13 R401. Reset none -/
  master    : Option (Word × Nat) := none
  /-- Fraction of a CCLK cycle owed to cyc, in root-PLL ticks. 03 Table 3-1, 14. Reset 0 -/
  cclkPhase : Nat := 0
deriving DecidableEq, Repr

/-! ## Clocks and power (14) -/

/-- Clocks (14, sections 14.1 to 14.3). -/
structure Clk where
  /-- gated clock domains, 44 bits. 14 R412, Table 14-4. Reset DESIGN CHOICE 0, none gated (log 13) -/
  gated    : BitVec 44 := 0
  /-- domains whose ungating is in progress, 44 bits. 14 R413. Reset 0 -/
  ungating : BitVec 44 := 0
  /-- CLK_STATUS.source, 2 bits. 14 Table 14-3. Reset 0 -/
  source   : Nat := 0
  /-- CLK_STATUS.xtal_good, 1 bit. 14 Table 14-3. Reset 0 -/
  xtalGood : Bool := false
  /-- CLK_STATUS.pll_lock, 1 bit. 14 Table 14-3. Reset 0 -/
  pllLock  : Bool := false
  /-- the crystal has failed. 14 R407. Reset false -/
  xtalFail : Bool := false
  /-- CLK_STATUS.cclk_div, 4 bits: the divider in effect. 14 Table 14-3. Reset 8 -/
  div      : Nat := 8
  /-- CLK_CCLK_DIV.ledger, 4 bits. 14 Table 14-3. Reset 8 -/
  ledger   : Nat := 8
  /-- CLK_CCLK_DIV.thermal, 4 bits: junction. 14 Table 14-3, R428. Reset 0 -/
  thermalJ : Bool := false
  /-- CLK_CCLK_DIV.thermal, 4 bits: memory. 14 Table 14-3, R428. Reset 0 -/
  thermalM : Bool := false
  /-- CLK_CCLK_DIV.brake, 4 bits. 14 Table 14-3. Reset 0 -/
  brake    : Bool := false
  /-- CLK_CCLK_DIV.fallback, 4 bits: dies whose steward holds it. 14 Table 14-3, R425. Reset none -/
  fallback : List Nat := []
  /-- CLK_DIV_CHANGES.changes, 32 bits. 14 Table 14-3. Reset 0 -/
  changes  : Quad := 0
  /-- every clock but the keeper's has stopped after a trip. 14 Table 14-9, R581. Reset false -/
  tripped  : Bool := false
deriving DecidableEq, Repr

/-- One AVS rail (14, R420): target and previous target in mV, and whether a step is in progress. -/
structure Rail where
  target : Nat := 0
  prev   : Nat := 0
  step   : Bool := false
  /-- voltage read last, mV -/
  read   : Nat := 0
deriving DecidableEq, Repr

/-- What OHM-PWR keeps of one die (14, R423, R425): fixed power and scaled power at divider 4, in mW. -/
structure DiePower where
  fixed  : Nat := 0
  s4     : Nat := 0
  energy : Nat := 0
  tmax   : Int := 0
  power  : Nat := 0
  /-- intervals without a report -/
  missed : Nat := 0
deriving DecidableEq, Repr

/-- A grant (14, Table 14-8). -/
structure Grant where
  interval : Half := 0
  budget   : Nat := 0
  divider  : Nat := 8
  target   : Nat := 0
deriving DecidableEq, Repr

/-- Power (14, sections 14.4 to 14.9; 20). -/
structure Power where
  /-- States of the 13 power domains, 2 bits each: 0 OPEN, 1 CLOSING, 2 OFF, 3 OPENING. 14 R415, R416. Reset OPEN -/
  domains  : Tbl Nat := []
  /-- Requests that wait for OFF or OPEN: domain and whether it opens. 14 R418. Reset empty -/
  later    : List (Nat × Bool) := []
  /-- AVS rails, key RailSel 0 to 9. 14 R419, R420. Reset 0 mV, no step -/
  rails    : Tbl Rail := []
  /-- faster divider that waits for its rails. 14 R421. Reset none -/
  wanted   : Option Nat := none
  /-- Interval number, 16 bits. 14 R422. Reset 0 -/
  interval : Half := 0
  /-- Reports of the interval that ended last. 14 R422. Reset none -/
  reports  : List BudgetReportMsg := []
  /-- What OHM-PWR keeps per die, 10. 14 R423. Reset 0 -/
  dies     : Tbl DiePower := []
  /-- Consecutive intervals in which the next faster divider fitted. 14 R423. Reset 0 -/
  faster   : Nat := 0
  /-- Consecutive intervals with a die at or above t_ctrl. 14 Table 14-9. Reset 0 -/
  hot      : Nat := 0
  /-- Consecutive intervals with every die below t_ctrl − 5. 14 Table 14-9. Reset 0 -/
  cool     : Nat := 0
  /-- Junction sensors of each die that the last interval excluded, by number. 14 R427. Reset none -/
  excluded : Tbl (List Nat) := []
  /-- What each regulator answered last: READ_VOUT, READ_IOUT, READ_TEMPERATURE_1; key as in `good`. 14 R419. Reset 0 -/
  telemetry : Tbl Telemetry := []
  /-- Grants sent and not yet taken, key die. 14 R422. Reset none -/
  sent     : Tbl (Option Grant) := []
  /-- Last grant of each die. 14 Table 14-8. Reset none -/
  grants   : Tbl Grant := []
  /-- Rails that are good: 0 to 9 by RailSel, then VDD_KEEP, VDDA_PHY, VDDH_PHY, VDD_NT, VPP_NT, VDDC_FT, VDDQ_FT, VPP_FT,
  VDD_IO; 19 bits. 20 R572. Reset 0 -/
  good     : BitVec 19 := 0
  /-- Regulators whose STATUS_WORD reports a fault bit. 20 R580. Reset none -/
  faulty   : List Nat := []
  /-- PMB_ALERT_N is low. 20 R580. Reset false -/
  pmbAlert : Bool := false
  /-- THERMTRIP_N is driven low. 20 R581. Reset false -/
  tripLow  : Bool := false
  /-- memory_tmax, 1/16 °C: near tier 0 to 7, far-tier stacks 8 to 15. 14 Table 14-13. Reset 0 -/
  memTmax  : Tbl Int := []
  /-- DOZE: 0 no, 1 entering, 2 exiting. 14 R429, R431. Reset 0 -/
  dozing   : Nat := 0
  /-- a wake event has come during the entry. 14 section 14.9. Reset false -/
  wakeDue  : Bool := false
  /-- CD tallies copied to keeper retention SRAM in DOZE. 14 Table 14-10. Reset none -/
  tallies  : Option (Tbl Word) := none
deriving DecidableEq, Repr

/-! ## Reset, options and bring-up (15) -/

/-- One copy of a fuse block (15, R445): clean, and its data after correction. -/
structure FuseCopy where
  clean : Bool := true
  data  : List Byte := []
deriving DecidableEq, Repr

/-- Reset, options and bring-up (15). -/
structure Boot where
  /-- Fuse option blocks, key 3 × block + copy, 256 bytes each; the chip's own. 15 R445. Reset DESIGN CHOICE blank, zeros and clean (log 32) -/
  fuses    : Tbl FuseCopy := []
  /-- Board EEPROM records 0 and 1, 256 bytes each; the board's own. 15 R448. Reset DESIGN CHOICE blank, no valid record (log 32) -/
  eeprom   : Tbl (List Byte) := []
  /-- Voted contents of FB0 to FB3, 256 bytes each. 15 R446. Reset zeros -/
  voted    : Tbl (List Byte) := []
  /-- Vote bytes. 15 R446. Reset 0 -/
  votes    : Tbl Nat := []
  /-- Board record in use, 256 bytes; empty: the defaults. 15 R448. Reset defaults -/
  record   : List Byte := []
  /-- board_record_state, 8 bits. 15 Table 15-13. Reset DESIGN CHOICE 2, the defaults, before the options load (log 10) -/
  recState : Nat := 2
  /-- PWR_RESET_CAUSE.cause, 8 bits. 15 Table 15-3. Reset 0x01 at power-on; DESIGN CHOICE 0 before it (log 12) -/
  cause    : Nat := 0
  /-- PWR_RESET_CAUSE.scope, 3 bits. 15 Table 15-3. Reset 4 at power-on; DESIGN CHOICE 0 before it (log 12) -/
  scope    : Nat := 0
  /-- PWR_RESET_CAUSE.sequence, 16 bits. 15 Table 15-3. Reset 0 -/
  seq      : Half := 0
  /-- PWR_RESET_CAUSE.detail, 8 bits. 15 Table 15-3. Reset 0 -/
  detail   : Nat := 0
  /-- PWR_RESET_TIME, 64 bits. 15 Table 15-3. Reset 0 -/
  time     : Word := 0
  /-- PWR_BLOCK_RESET.block, 8 bits. 15 Table 15-3. Reset 0x00 -/
  block    : Nat := 0
  /-- PWR_BLOCK_RESET.status, 8 bits. 15 Table 15-3. Reset 0x00 -/
  blockSt  : Status := .ok
  /-- PWR_BLOCK_RESET.busy, 1 bit. 15 Table 15-3. Reset 0 -/
  blockBusy : Bool := false
  /-- block whose reset is in progress, 8 bits. 15 R440. Reset 0 -/
  blockNow : Nat := 0
  /-- the cold bring-up waits for the crystal. 15 Table 15-9 step 4. Reset false -/
  waiting  : Bool := false
  /-- reset held at its first step while RESET_N is low: scope and cause. 20 R579. Reset none -/
  held     : Option (Nat × Nat) := none
  /-- RESET_N is low. 20 Table 20-7. Reset false -/
  resetLow : Bool := false
  /-- PERST_N is low. 15 R436. Reset DESIGN CHOICE true, held low until it is released (log 33) -/
  perstLow : Bool := true
  /-- reset commanded and answered, which begins 1 ms after the reply leaves: scope, cause, and whether the reply has left. 15 R435. Reset none -/
  delayed  : Option (Nat × Nat × Bool) := none
  /-- the device has reached LIVE since the last cold reset. 15 R437. Reset false -/
  beenLive : Bool := false
  /-- LOAD in progress: sequence, host address and length. 15 R453. Reset none -/
  load     : Option (Half × Nat × Nat) := none
  /-- image in the code store. 15 R454. Reset none -/
  code     : Option ImageFacts := none
  /-- SHA-384 of the image recorded in keeper retention SRAM. 15 R455. Reset none -/
  digest   : Option Nat := none
  /-- scope of the reset that the next NOTICE RESTART names. 16 R472. Reset 0 -/
  told     : Nat := 0
deriving DecidableEq, Repr

/-! ## Fabric ports and the spine (11; 19, section 19.5) -/

/-- Port states (11, Table 11-7; codes 0 to 6 in this order). -/
inductive PortState where
  | off | training | hello | active | closing | failed | refused
deriving DecidableEq, Repr

/-- A sequenced flit in a replay buffer (11, R315). -/
structure TxFlit where
  seq     : Nat
  kind    : Fin 4
  phase   : Bool
  payload : List Byte
  /-- packets with bytes in this flit -/
  pkts    : List Packet := []
  /-- times sent -/
  sends   : Nat := 1
  /-- IV counter of its first sending (11, R311) -/
  ctr     : Nat := 0
deriving DecidableEq, Repr

/-- A key generation in progress on a table port (19, R557). A nonce is named by the number of its first free value (log 3). -/
structure KeyGen where
  gen       : Nat
  nonce     : Nat
  peerNonce : Option Nat := none
  /-- this end started the generation with confirm 0 -/
  asked     : Bool := false
  derived   : Bool := false
  confirmed : Bool := false
  /-- the derived set of this end's sending direction: key and salt, 36 bytes. 19 Table 19-6 -/
  set       : List Byte := []
deriving DecidableEq, Repr

/-- A fabric port: table ports 0 to 33, spine ports 64 to 71 (18, Table 18-3). -/
structure Port where
  /-- state, 3 bits. 11 Table 11-7. Reset OFF -/
  state      : PortState := .off
  /-- status recorded on REFUSED. 11 R331. Reset ST_OK -/
  status     : Status := .ok
  /-- medium in use, latched at TRAINING: 0 KR4 or chip-to-module, 1 CR4. 11 Table 11-1, Table 11-11. Reset 0 -/
  medium     : Nat := 0
  /-- the peer's last HELLO. 11 Table 11-11 tp_peer. Reset none -/
  peer       : Option HelloMsg := none
  /-- wire revision in use, 16 bits. 11 Table 11-11. Reset 0 -/
  revision   : Nat := 0
  /-- found miscabled. 12 R343. Reset false -/
  miscabled  : Bool := false
  /-- the peer has sent CLOSING. 11 R332. Reset false -/
  peerClosing : Bool := false
  /-- hello_count last sent, 32 bits. 11 Table 11-8. Reset DESIGN CHOICE 0 (log 8) -/
  helloCount : Quad := 0
  /-- sequence of the next new flit, 12 bits. 11 R314. Reset 0 -/
  nextSeq    : Nat := 0
  /-- replay buffers, 1,024 flits per class, oldest first. 11 R315. Reset empty -/
  held       : List TxFlit := []
  /-- place in `held` of the next flit of a resend. 11 R319. Reset none -/
  resend     : Option Nat := none
  /-- sequence and time of the last resend started on a nak. 11 R319. Reset none -/
  lastResend : Option (Nat × Nat) := none
  /-- control flits waiting: payloads. 11 R324. Reset empty -/
  ctl        : List (List Byte) := []
  /-- trump packet sent in part: packet and bytes left. 11 R325. Reset none -/
  restT      : Option (Packet × List Byte) := none
  /-- bulk packet sent in part. 11 R325. Reset none -/
  restB      : Option (Packet × List Byte) := none
  /-- credits held, trump. 11 R323. Reset 0 until HELLO -/
  credT      : Int := 0
  /-- credits held, bulk. 11 R323. Reset 0 until HELLO -/
  credB      : Int := 0
  /-- the starting counts have been learnt. 11 R323. Reset false -/
  credKnown  : Bool := false
  /-- consecutive flit times in which bulk waited on trump, 3 bits. 11 R324. Reset 0 -/
  starve     : Nat := 0
  /-- null flits sent under the current key, 63 bits. 11 R311. Reset 0 -/
  nullCtr    : Nat := 0
  /-- sequenced flits sent under the current key, 63 bits. 11 R311. Reset 0 -/
  txCtr      : Nat := 0
  /-- deficit round robin: group served last. 12 R376. Reset none -/
  drrKey     : Option Nat := none
  /-- deficit round robin: deficits in bytes, key group. 12 R376. Reset 0 -/
  drr        : Tbl Nat := []
  /-- expected sequence E, 12 bits. 11 R316. Reset 0 -/
  expect     : Nat := 0
  /-- E extended: sequenced flits accepted under the current receive set, 63 bits. 11 R312. Reset 0 -/
  rxCtr      : Nat := 0
  /-- a flit of the present gap has been discarded. 11 R318. Reset false -/
  gap        : Bool := false
  /-- the next flit sent carries a nak. 11 R318. Reset false -/
  nakDue     : Bool := false
  /-- last null counter accepted. 11 R312. Reset none -/
  lastNull   : Option Nat := none
  /-- credits to return, trump. 11 R323. Reset 0 -/
  owedT      : Int := 0
  /-- credits to return, bulk. 11 R323. Reset 0 -/
  owedB      : Int := 0
  /-- a partial credit unit is due for a class (true bulk). 11 R323. Reset none -/
  part       : Option Bool := none
  /-- bytes of a trump packet received in part. 11 R325. Reset empty -/
  inT        : List Byte := []
  /-- bytes of a bulk packet received in part. 11 R325. Reset empty -/
  inB        : List Byte := []
  /-- generation of the fabric secret that the port took at HELLO; 0 none. 19 R555. Reset 0 -/
  fs         : Nat := 0
  /-- the fabric secret that the port took at HELLO, 256 bits. 19 R555. Reset 0 -/
  secret     : Nat := 0
  /-- key and salt under which it sends, 36 bytes. 11 R313; 19 Table 19-6. Reset none -/
  txSet      : List Byte := []
  /-- key and salt of the generation that it waits to send under, 36 bytes. 19 R557. Reset none -/
  nextSet    : List Byte := []
  /-- key and salt under which it reads, 36 bytes. 11 R313; 19 Table 19-6. Reset none -/
  rxSet      : List Byte := []
  /-- key and salt of the next receive generation, held until its first flit has passed, 36 bytes. 11 R313. Reset none -/
  rxNext     : Option (List Byte) := none
  /-- key generation completed; 0 bring-up. 19 R557. Reset 0 -/
  gen        : Nat := 0
  /-- generation under which new flits are sent. 19 R557. Reset 0 -/
  txGen      : Nat := 0
  /-- generation of the last flit whose tag passed. 11 R313. Reset 0 -/
  rxGen      : Nat := 0
  /-- generation in progress. 19 R557. Reset none -/
  key        : Option KeyGen := none
  /-- the sending direction waits for its acknowledgements to switch. 19 R557. Reset false -/
  switching  : Bool := false
  /-- start of the current generation. 19 R559. Reset 0 -/
  genBegan   : Word := 0
  /-- times of tag failures within the last second. 11 section 11.2. Reset empty -/
  authTimes  : List Nat := []
  /-- times of entries into FAILED with cause 3. 19 R559. Reset empty -/
  failTimes  : List Nat := []
deriving DecidableEq, Repr

/-- A packet that waits for a table port (11, 12): bulk packets name the edge die that Table 8-5 prefers. -/
structure OutPkt where
  pkt  : Packet
  east : Bool
deriving DecidableEq, Repr

/-- A DATA frame not yet acknowledged (11, R339). -/
structure SpineTx where
  psn     : Nat
  /-- times that psn had wrapped (11, R335) -/
  high    : Nat := 0
  /-- the CD whose packets it holds, 8 for OHM-FAB (12, R360) -/
  cd      : Nat := 8
  packets : List Packet
  expiries : Nat := 0
  /-- resent at once on a sack -/
  fast    : Bool := false
deriving DecidableEq, Repr

/-- One stream of a spine connection (11, R336 to R340). -/
structure SpineStream where
  /-- psn of the next new frame, 32 bits. 11 R336. Reset 0 -/
  psn     : Nat := 0
  /-- times that psn has wrapped, for the 62-bit counter. 11 R335. Reset 0 -/
  high    : Nat := 0
  /-- frames not acknowledged, oldest first. 11 R339. Reset empty -/
  held    : List SpineTx := []
  /-- cwnd. 11 R340. Reset 16 -/
  cwnd    : Nat := 16
  /-- time at which cwnd was last halved. 11 R340. Reset none -/
  halved  : Option Nat := none
  /-- packets waiting, each with the CD that sends it, 8 for OHM-FAB. 11 R336; 12 R360. Reset empty -/
  queue   : List (Nat × Packet) := []
  /-- next psn to deliver, 32 bits. 11 R336. Reset 0 -/
  expect  : Nat := 0
  /-- times that the psn to deliver has wrapped. 11 R335. Reset 0 -/
  expHigh : Nat := 0
  /-- reorder window: frames received beyond a gap, and the edge die that holds each (true ED_E). 11 R336. Reset empty -/
  window  : List (Nat × List Packet × Bool) := []
  /-- DATA frames accepted since the last ACK. 11 R338. Reset 0 -/
  unacked : Nat := 0
  /-- psns of the DATA frames that no ACK has covered, each with its CE mark. 11 R338. Reset empty -/
  uncovered : List (Nat × Bool) := []
  /-- own ACK sequence. 11 Table 11-10. Reset 0 -/
  ackPsn  : Nat := 0
  /-- times that the ACK sequence has wrapped. 11 R335. Reset 0 -/
  ackHigh : Nat := 0
  /-- psn of the last ACK accepted, extended to 62 bits. 11 R335. Reset none -/
  lastAck : Option Nat := none
  /-- cum_ack seen last. 11 R340. Reset none -/
  cumAck  : Option Nat := none
deriving DecidableEq, Repr

/-- A spine connection (11, R336; 12, R359). -/
structure Conn where
  /-- 0 opening, 1 open, 2 closing -/
  phase    : Nat := 0
  /-- this package opened it -/
  opener   : Bool := true
  table    : Half
  slot     : Nat
  position : Nat
  peerId   : Nat := 0
  serial   : Word := 0
  revision : Nat := 0
  redirects : Nat := 0
  /-- sendings of the unanswered CTRL frame -/
  sends    : Nat := 0
  /-- number of the free value that is the IV counter of the OPEN or OPEN_ACK last sent (19, R558) -/
  ctr      : Nat := 0
  /-- generation of the last frame received (19, R558) -/
  rxGen    : Nat := 0
  /-- generation of the fabric secret at the opening (19, R555) -/
  fs       : Nat := 0
  gen      : Nat := 0
  /-- the sending direction waits to move to the next generation (19, R558) -/
  switching : Bool := false
  genBegan : Word := 0
  /-- sets of the present generation, opener to responder first, 72 bytes; before OPEN_ACK the fabric secret. 19 Table 19-6 -/
  sets     : List Byte := []
  /-- sets of the generation of the last frame received, 72 bytes. 19 R558 -/
  rxSets   : List Byte := []
  /-- frames sent under the present sets. 19 R559. Reset 0 -/
  carried  : Nat := 0
  /-- spine port that carried the last frame of each CD's engine, 8 for OHM-FAB. 11 R337; 12 R360. Reset DESIGN CHOICE 7 (log 163) -/
  lastSp   : Tbl Nat := []
  /-- no group needs it any more: it closes once its streams are empty. 12 R363, R364. Reset false -/
  release  : Bool := false
  trump    : SpineStream := {}
  bulk     : SpineStream := {}
deriving DecidableEq, Repr

/-- The fabric (11). -/
structure Fabric where
  /-- 42 ports. 11 section 11.6 -/
  ports   : Tbl Port := []
  /-- Packets that wait for a table port, oldest first. 12 R345. Reset empty -/
  out     : List OutPkt := []
  /-- Packets that the link layer has delivered, with their origin, and that no unit has taken yet. 11 R316. Reset empty -/
  rx      : List (Nat × Packet) := []
  /-- Last pair_seq sent, key table_id × 256 + position. 11 R328. Reset 0 -/
  pairTx  : Tbl Nat := []
  /-- Last pair_seq applied, same key. 11 R328. Reset 0 -/
  pairRx  : Tbl Nat := []
  /-- Trump packets discarded as a gap. 11 R328. Reset 0 -/
  gaps    : Nat := 0
  /-- Trump packets discarded as duplicates that came over the spine. 11 R328. Reset 0 -/
  dups    : Nat := 0
  /-- Positions whose primary port is the ED_E port. 12 R344. Reset none -/
  east    : List Nat := []
  /-- Packets of unknown op and undeliverable NOTICEs. 11 R326. Reset 0 -/
  unknown : Nat := 0
  /-- Spine connections by own id, 2,048. 11 R336. Reset none -/
  conns   : Tbl (Option Conn) := []
  /-- Positions at which REDIRECTs have placed slots of other tables, key table_id × 256 + slot. 12 R359. Reset none -/
  placed  : Tbl (Option Nat) := []
  /-- IV counters of CTRL frames seen, source and counter, newest first, 1,024 per source. 19 R558. Reset empty -/
  ctrSeen : List (Nat × Word) := []
deriving DecidableEq, Repr

/-! ## Table, dealer, groups and collectives (12), deals (06) -/

/-- The roster (12, R346). -/
structure Roster where
  dealer  : Nat := 0xFF
  epoch   : Nat := 0
  entries : List RosterEntry := List.replicate 18 {}
deriving DecidableEq, Repr

/-- The table (12, sections 12.1 to 12.4, 12.12). -/
structure Table where
  /-- table_id, 16 bits. 12 Table 12-11; from the options. Reset 0xFFFF, no table -/
  id       : Half := 0xFFFF
  /-- position, 8 bits. 12 Table 12-11; from the options. Reset 0xFF, no table -/
  position : Nat := 0xFF
  /-- Last roster accepted. 12 R347. Reset: dealer 0xFF, epoch 0, entries 0 -/
  roster   : Roster := {}
  /-- A roster has been accepted. 12 R350. Reset false -/
  seen     : Bool := false
  /-- The roster that the distances of R350 are counted on: the last that came in a ROSTER. 12 R350. Reset as `roster` -/
  base     : Roster := {}
  /-- The last roster accepted came in a CLAIM. 12 R352. Reset false -/
  byClaim  : Bool := false
  /-- CLAIM sent and not decided: its epoch. 12 R352. Reset none -/
  claim    : Option Nat := none
  /-- ROSTERs sent since the last with the late list. 12 R347. Reset 0 -/
  sends    : Nat := 0
  /-- Late list, 18 entries. 12 Table 12-9. Reset 0 -/
  late     : List LateEntry := List.replicate 18 {}
  /-- Late records for the next REPORT, at most 16. 12 R383. Reset empty -/
  records  : List LateRecord := []
  /-- Reach that each position reported last. 12 Table 12-2. Reset 0 -/
  reach    : Tbl Nat := []
  /-- The slot that each position held when it was last lost; 0xFF none. 12 R348. Reset none -/
  lostSlot : Tbl Nat := []
  /-- Unplaced slots that were lost while kitty_auto was 0. 12 R354. Reset none -/
  noAuto   : List Nat := []
  /-- CREATE records that came before this package's own CREATE. 12 R363. Reset empty -/
  creates  : List CollRec := []
deriving DecidableEq, Repr

/-- A member of a group (12, Table 12-5), with the seat's incarnation once recorded. -/
structure Member where
  table : Half
  slot  : Nat
  seat  : Nat
  inc   : Option Quad := none
deriving DecidableEq, Repr

/-- A collective of a group in flight (12, sections 12.8 to 12.11). Keys of `sent`, `back`, `used`: flow × 2²⁰ + rank; of `got`:
that × 2³² + chunk. Flow 0 lands at the table or flat level, flow 1 at the spine level, flow 2 goes to dst. -/
structure Coll where
  seq     : Quad
  op      : Nat
  hash    : Nat
  opcode  : Nat
  /-- ranks that it exchanges records and data with (12, R370) -/
  peers   : List Nat := []
  operator : Nat := 0
  format  : Byte := 0
  spineFormat : Byte := 0
  residualOn : Bool := false
  count   : Nat := 0
  /-- DIGEST: bytes per µs, 0 unlimited (12, R381) -/
  sweep   : Nat := 0
  /-- device addresses and key slots of src, dst and residual (12, Table 12-7) -/
  src     : Nat := 0
  dst     : Nat := 0
  residual : Nat := 0
  srcSlot : Nat := 0
  dstSlot : Nat := 0
  resSlot : Nat := 0
  root    : Nat := 0
  record  : Nat := 0
  issued  : Word := 0
  /-- ranks whose READY with an equal hash has arrived, with their issue times -/
  ready   : Tbl (Option Word) := []
  /-- chunks sent, and credits returned -/
  sent    : Tbl Nat := []
  back    : Tbl Nat := []
  /-- chunks arrived, and chunks consumed from landing -/
  got     : Tbl Bool := []
  used    : Tbl Nat := []
  /-- hierarchical: 0 table reduction, 1 spine parts, 2 spine result, 3 table all-gather; flat: 0 reduction, 3 gather -/
  stage   : Nat := 0
  /-- FP32 codes of the reduced table shard, then of this member's reduced spine part -/
  vals    : List Nat := []
  /-- encoded spine parts of this member's shard, as chunks, by table rank -/
  parts   : List (List (List Byte)) := []
  /-- this member's reduced spine part, encoded, as chunks; of a DIGEST, the chunks of src read so far -/
  mine    : List (List Byte) := []
  /-- digests by rank; `none` inside: poisoned -/
  digests : Tbl (Option (Option Nat)) := []
  /-- this member's own block is in dst (12, Table 12-8) -/
  copied  : Bool := false
deriving DecidableEq, Repr

/-- What one source has sent in a deal's exchange (06, R179). -/
structure DealSrc where
  counts : List Nat
  status : Status := .ok
  hash   : Nat := 0
  speed  : Nat := 0
deriving DecidableEq, Repr

/-- One copy of an expert on a holder: accepted rows by source, and the first gathered row (06, R180). -/
structure Copy where
  holder : Nat
  expert : Nat
  acc    : List Nat
  first  : Nat := 0
deriving DecidableEq, Repr

/-- The plan of a deal: every copy with its shares and first rows, gathered rows by holder, and the status (06, R180, R188). -/
structure Plan where
  copies : List Copy
  rows   : List Nat
  excess : Bool
deriving DecidableEq, Repr

/-- One CD's part in a deal (06, R175 to R177). -/
structure DealCd where
  /-- last phase issued -/
  phase  : Nat := 0
  /-- status of the deal so far on this CD -/
  status : Status := .ok
  /-- the descriptor that DEAL.CNT read -/
  desc   : List Byte := []
  /-- cyc at DEAL.GTH's @done (06, R187) -/
  gthEnd : Word := 0
  /-- DEAL.XCH writes the rows that arrive; and the rows written, by source (06, R179) -/
  exch   : Bool := false
  rowsIn : Tbl Bool := []
  /-- what DEAL.CAP computed (06, R180) -/
  plan   : Option Plan := none
  /-- the last phase has completed -/
  closed : Bool := false
  /-- the phase in progress ends with this status, once the deal unit owns the slots of the block's fields (06, R177, R184) -/
  fail   : Option Status := none
deriving DecidableEq, Repr

/-- A deal of a group on this member (06, section 6.4). -/
structure Deal where
  ord  : Nat
  /-- group sequence, once DEAL.XCH has taken it (12, R367) -/
  seq  : Option Quad := none
  cds  : Tbl DealCd := []
  /-- rows of the count matrix that have arrived, by source -/
  srcs : Tbl (Option DealSrc) := []
  /-- pieces of gathered rows and of result rows that have arrived, by offset (06, R182, R183) -/
  gotG : Tbl Bool := []
  gotC : Tbl Bool := []
deriving DecidableEq, Repr

/-- A group (12, section 12.7). -/
structure Group where
  tenant  : Half
  id      : Half
  seat    : Nat
  /-- issuing CD -/
  cd      : Nat
  cls     : Nat
  telemetry : Bool := false
  flat    : Bool := false
  rank    : Nat
  landingPer : Nat := 0
  /-- device address and key slot of the landing area -/
  landing : Nat := 0
  landSlot : Nat := 0
  members : List Member
  hash    : Nat
  /-- CREATE in progress: its operation -/
  creating : Option Nat := none
  /-- CREATE records by rank -/
  recs    : Tbl (Option CollRec) := []
  revision : Nat := 0
  /-- sequence used last, 32 bits (12, R367) -/
  seq     : Quad := 0
  broken  : Bool := false
  spent   : Bool := false
  /-- READYs of later sequences (12, R370) and ABORTs of sequences not issued (R371) -/
  early   : List CollRec := []
  aborts  : List CollRec := []
  /-- collectives in flight, in order of sequence -/
  colls   : List Coll := []
  /-- deals in flight, in order (06) -/
  deals   : List Deal := []
  /-- DEAL.CNTs issued, by CD -/
  counted : Tbl Nat := []
  /-- exchange rows that arrived before their deal: sequence, source, row (06, R179) -/
  rows    : List (Nat × Nat × DealSrc) := []
  /-- rows and cycles of the previous balanced deal, by CD (06, R187) -/
  speeds  : Tbl (Nat × Nat) := []
deriving DecidableEq, Repr

/-! ## Reports and outputs (18, 16) -/

/-- A report: the common record's fields (18, Table 18-1) and its detail records. -/
structure Report where
  cls     : Nat
  die     : Nat := 0xFF
  code    : Nat
  status  : Byte := 0
  seat    : Nat := 0xFFFF
  inc     : Quad := 0
  tenant  : Half := 0
  func    : Nat := 0
  action  : Nat := 0
  time    : Word := 0
  seq     : Word := 0
  d       : List Nat := []
  details : List (List Byte) := []
deriving DecidableEq, Repr

/-- What leaves the package, newest first: the model's own record of outputs (log 11). -/
inductive Output where
  /-- MSI-X message of vector `v` of function `f` -/
  | msix (f v : Nat) (addr : Word) (data : Quad)
  /-- completion of a BAR2 read; `ur` an Unsupported Request -/
  | bar2Data (data : List Byte) (ep : Bool)
  | unsupportedRequest
  /-- ERR_FATAL or ERR_NONFATAL to the root complex (02, Table 2-1) -/
  | pcieError (fatal : Bool)
  /-- the value that a read of HIF_EVENT_POP returned -/
  | eventPop (f : Nat) (v : Word)
  /-- posted write TLPs to host memory, by requester ID -/
  | hostWrite (req : Nat) (addr : Nat) (data : List Byte) (ep : Bool)
  /-- read request to host memory, by requester ID and tag -/
  | hostRead (req : Nat) (tag : Nat) (addr len : Nat)
  /-- a flit sent by a port, with its eight blocks -/
  | flit (port : Nat) (fl : Flit)
  /-- frame sent on a die-link slice: 256 beats as transmitted, and the spares' bits of each -/
  | frame (sl : SliceId) (beats : List (BitVec 128)) (spares : List (BitVec 4))
  /-- payload of a die-link frame that its receiver has accepted -/
  | linkData (sl : SliceId) (payload : List (BitVec 128))
  /-- control-slice message released -/
  | linkMessage (sl : SliceId) (m : BitVec 112)
  /-- spine frame sent -/
  | spine (port : Nat) (fr : SpineFrame)
  | ctrl (conn : Nat) (kind : Nat) (m : CtrlMsg)
  /-- CREATE completed: tenant, group id, seat and status; the spec gives its completion record no place (log 40) -/
  | created (tenant id : Half) (seat : Nat) (st : Status)
  /-- PTP Delay_Req sent by the dealer -/
  | ptpDelayReq (seq : Half) (ipv4 : Bool)
  /-- dictionary reply on a channel -/
  | kdp (ch : Channel) (code : Nat) (st : Status) (retry : Nat) (data : List Byte)
  /-- MCTP control, PLDM or SPDM reply: MCTP message type × 65,536 + PLDM type × 256 + command (SPDM: response code), and its data -/
  | mctp (vdm : Bool) (code : Nat) (data : List Byte)
  /-- what the package presents in a DTLS handshake: association, certificate area -/
  | dtlsCertificate (assoc : Nat) (data : List Byte)
  /-- the report that the crystal hand-off has failed: over MCTP on I3C, or on the UART console (14, R407) -/
  | crystalFailure (uart : Bool)
  /-- answer of OHM-FAB to Neighbor Discovery or ICMPv6 echo -/
  | icmp (port : Nat) (dst : Nat) (echo : Bool)
deriving DecidableEq, Repr

/-- Where the bytes of a dummy write come from (18, R534). -/
inductive CopySrc where
  | zero
  /-- literal bytes: the seat page, the commit record -/
  | lit (data : List Byte)
  /-- pages of a window from a local device address, read under a key slot; the first page's number -/
  | pages (dev slot page : Nat)
deriving DecidableEq, Repr

/-- A run of dummy bytes still to be sent: remote address, length, source, and how much of it has been sent. -/
structure Chunk where
  dst  : Nat
  len  : Nat
  src  : CopySrc
  sent : Nat := 0
deriving DecidableEq, Repr

/-- An epoch in copy (18, R533, R534). -/
structure Epoch where
  seat      : Nat
  epoch     : Word
  half      : Nat
  buddy     : Nat
  opened    : Word
  heartbeat : Word
  cycles    : Word
  inc       : Quad
  mask      : Half
  length    : Nat := 0
  seatPage  : List Byte := []
  pages     : Nat := 0
  /-- SHA-384 of each page, by page number -/
  hashes    : Tbl Nat := []
  /-- manifest of H before the copy, when H's pages are known -/
  old       : Tbl Nat := []
  todo      : List Chunk := []
  /-- 0 DUMMY_OPEN sent; 1, 2 the commit records of A and B are being read; 3 zero commit pages; 4 seat page and pages; 5 manifest;
  6 commit record -/
  stage     : Nat := 0
  /-- a WRITE_ACK or READ_DATA is awaited, since -/
  waiting   : Option Nat := none
  /-- bytes of the commit record read so far -/
  buf       : List Byte := []
  /-- every page has been read and the epoch tally has its 1 -/
  tallied   : Bool := false
  stampAt   : Nat := 0
deriving DecidableEq, Repr

/-- What an owner knows of one half of a seat's dummy (18, R534): the committed epoch in it (0 none), its shadow mask, the write
stamp at its opening and its manifest. A record that was only read has no stamp: every page may differ. -/
structure HalfInfo where
  epoch     : Word
  mask      : Half := 0
  stamp     : Option Nat := none
  hashes    : Tbl Nat := []
deriving DecidableEq, Repr

/-- Error log and what OHM-REL keeps (18). -/
structure Rel where
  /-- Epochs in copy, at most one per seat. 18 R533. Reset none -/
  epochs    : List Epoch := []
  /-- What is known of the halves of each seat's dummy, key 2 × seat + half. 18 R534. Reset unknown -/
  halves    : Tbl (Option HalfInfo) := []
  /-- Error log, 256 records of 64 bytes, oldest report first. 18 R513. Reset empty -/
  log       : List Report := []
  /-- last_error, 64 bytes. 18 R512. Reset none -/
  lastError : Option Report := none
  /-- Dummy pool, 48 bits, one per band. 18 R530. Reset empty -/
  pool      : BitVec 48 := 0
  /-- Folds of seats within the last 3,600 s: tenant, time. 18 R521. Reset empty -/
  folds     : List (Half × Word) := []
deriving DecidableEq, Repr

/-- A request that the package has taken and not answered (16, R466). -/
structure Req where
  f       : Nat
  type    : Nat
  seq     : Half
  seat    : Nat
  hostInc : Quad
  minor   : Nat := 2
  recvInc : Quad := 0
  sendInc : Quad := 0
  payload : List Byte := []
deriving DecidableEq, Repr

/-- Firmware state (16). -/
structure Fw where
  /-- pkg_incarnation, 32 bits, keeper retention. 16 R471. Power-on 1. Reset DESIGN CHOICE 0 before power-on (log 12) -/
  pkgInc  : Quad := 0
  /-- Requests taken and unanswered, oldest first. 16 R466. Reset empty -/
  reqs    : List Req := []
  /-- Stage area of the update that is staged or committing: its device address. 16 R475. Reset none -/
  stage   : Option Nat := none
  /-- HIF_FW_VERSION.version, 24 bits. 02 Table 2-9. Reset DESIGN CHOICE 0 before an image runs (log 12) -/
  version : Nat := 0
  /-- Advertised wire revision, 16 bits. 16 Table 16-9. Reset DESIGN CHOICE 0 before an image runs (log 12) -/
  wire    : Nat := 0
  /-- Running image. 16 R457. Reset none -/
  image   : Option ImageFacts := none
deriving DecidableEq, Repr

/-! ## Firmware services, dictionary sessions, security, maintenance (16 to 19) -/

/-- A KDP session (17, R499): `id` 0 stands for the implicit session of a mailbox function. -/
structure Session where
  id       : Quad
  ch       : Channel
  expert   : Bool := false
  maxMsg   : Nat := 1244
  /-- highest sequence seen (17, R503) -/
  highest  : Option Half := none
  /-- last 32 responses: sequence, operation and what was answered, newest first (17, R503) -/
  held     : List (Half × Nat × Status × Nat × List Byte) := []
  /-- read snapshot: object and value (17, R494) -/
  snapshot : Option (Nat × List Byte) := none
  /-- time of the last request (17, R499) -/
  last     : Word := 0
deriving DecidableEq, Repr

/-- A write staging buffer (17, R495). -/
structure Staging where
  ch      : Channel
  session : Quad
  key     : Nat
  data    : List Byte
  /-- time of the last segment -/
  last    : Word := 0
deriving DecidableEq, Repr

/-- A DTLS association (17, R501). -/
structure Assoc where
  /-- the client's chain ends under expert_anchor, under basic_anchor -/
  expert : Bool
  basic  : Bool
  /-- low 32 bits of the peer's address -/
  peer   : Quad
  /-- the package's address that it runs on: 0 link-local, 1 ipv6_address, 2 ipv4_address -/
  addr   : Fin 3 := 0
deriving DecidableEq, Repr

/-- The dictionary's channels (17). -/
structure Kdp where
  /-- Sessions open, network, MCTP and implicit. 17 R499. Reset none -/
  sessions : List Session := []
  /-- Staging buffers. 17 R495. Reset none -/
  staging  : List Staging := []
  /-- DTLS associations by number, 8. 17 R501. Reset none -/
  assocs   : Tbl (Option Assoc) := []
  /-- Session id given last, 32 bits. 17 R499. Reset DESIGN CHOICE 0 (log 8) -/
  lastId   : Quad := 0
  /-- MCTP endpoint IDs: I3C (0) and PCIe VDM (1), 8 bits. 17 R506. Reset DESIGN CHOICE 0, none assigned (log 34) -/
  eid      : Tbl Nat := []
  /-- PLDM TID, 8 bits. 17 R508. Reset DESIGN CHOICE 0 (log 34) -/
  tid      : Byte := 0
  /-- SPDM secured sessions: binding, endpoint, expert. 19 R560. Reset none -/
  secured  : List (Bool × Nat × Bool) := []
  /-- DOMAIN objects: spine_directory's 136-byte records. 12 R358. Reset empty -/
  spineDir : List Byte := []
  /-- Bytes of an OCTETS object that a session wrote, key object. 17 R486. Reset: the object's default -/
  octets   : Tbl (List Byte) := []
deriving DecidableEq, Repr

/-- A debug breakpoint (19, R564). -/
structure Break where
  seat : Nat
  mask : Nat
  pc   : Quad
deriving DecidableEq, Repr

/-- Security (19). -/
structure Sec where
  /-- Fabric secret, 256 bits. 19 R555. Reset none -/
  fs       : Option Nat := none
  /-- Count of installs of the fabric secret, which names the one in effect. 19 R555. Reset 0 -/
  fsGen    : Nat := 0
  /-- Debug level, 2 bits. 19 R562. Reset LOCKED -/
  level    : Nat := 0
  /-- Tenant of a SEAT level. 19 R563. Reset 0 -/
  tenant   : Half := 0
  /-- debug_nonce, 256 bits: the number of its first free value (log 3). 19 R563. Reset: a fresh value -/
  nonce    : Nat := 0
  /-- Breakpoints, 4. 19 R564. Reset none -/
  breaks   : Tbl (Option Break) := []
  /-- Copy A of the field row, 256 fuses: svn_fuses [127:0], root_revoked [131:128]. 19 R547, Table 19-2. Reset 0 -/
  rowA     : BitVec 256 := 0
  /-- Copy B of the field row, 256 fuses. 19 R547, Table 19-2. Reset 0 -/
  rowB     : BitVec 256 := 0
  /-- Copy C of the field row, 256 fuses. 19 R547, Table 19-2. Reset 0 -/
  rowC     : BitVec 256 := 0
  /-- Unique device secret, 32 bytes of the secret fuse bank; only the key unit reads it. 19 R546. Reset DESIGN CHOICE zeros (log 164) -/
  uds      : List Byte := List.replicate 32 0
  /-- One-time area of ED_W, 4 KiB: the device certificate. 19 R546. Reset DESIGN CHOICE blank (log 164) -/
  cert     : List Byte := []
deriving DecidableEq, Repr

/-- A dummy range that this package hosts (18, R530, R554). -/
structure Hosted where
  pos    : Nat
  serial : Word
  seat   : Nat
  tenant : Half
  base   : Nat
  length : Nat
  /-- closed, and the time at which its scrub ends (19, R554) -/
  scrub  : Option Nat := none
deriving DecidableEq, Repr

/-- The journal record in keeper retention SRAM (18, Table 18-17). -/
structure Journal where
  /-- 0 none, 1 repair, 2 live update -/
  kind    : Nat := 0
  step    : Nat := 0
  attempt : Nat := 0
  stack   : Nat := 0
  channel : Nat := 0
  pseudo  : Nat := 0
  bank    : Nat := 0
  row     : Nat := 0
  moved   : Nat := 0
  started : Word := 0
  /-- repair: seat, tenant and incarnation of up to 4 seats -/
  seats   : List (Nat × Half × Quad) := []
  /-- live update: stage address and SHA-384 of the image -/
  stage   : Nat := 0
  digest  : Nat := 0
deriving DecidableEq, Repr

/-- A restore or a dummy query in progress (18, R536, R537). -/
structure Restore where
  seat   : Nat
  /-- mode 0 by epoch, 1 by heartbeat, 2 query, and its value -/
  mode   : Nat
  value  : Nat
  /-- 0 DUMMY_OPEN sent; 1, 3 the commit record of A, B; 2, 4 its seat page and manifest; 5 the pages; 6 every page is written -/
  phase  : Nat := 0
  /-- bytes of the item that is being read, and whether a sector of them was poisoned -/
  buf    : List Byte := []
  bad    : Bool := false
  /-- commit record, seat page and manifest of each half that is valid -/
  halves : Tbl (Option (List Byte)) := []
  half   : Nat := 0
  page   : Nat := 0
  written : Nat := 0
deriving DecidableEq, Repr

/-- Maintenance (18, sections 18.7 and 18.8). -/
structure Maint where
  /-- Dummy ranges hosted. 18 R530. Reset none -/
  hosted   : List Hosted := []
  /-- Journal. 18 Table 18-17. Reset none -/
  journal  : Journal := {}
  /-- Held data lost at a cold reset, to be reported when the repair ends. 18 R544. Reset false -/
  lost     : Bool := false
  /-- Status that the repair in progress will report. 18 section 18.8. Reset ST_OK -/
  repairSt : Status := .ok
  /-- Corrected far-tier sectors of the last 24 h: stack, sector, time. 18 section 18.8. Reset empty -/
  corrected : List (Nat × Nat × Word) := []
  /-- Rows that OHM-REL is to repair, oldest first: stack, and the number of the row's place (log 41). 18 section 18.8, R541. Reset empty -/
  rowsDue  : List (Nat × Nat) := []
  /-- Restores in progress. 18 R537. Reset none -/
  restores : List Restore := []
  /-- Memories whose requested scrub pass is in progress, 0 to 23. 18 Table 18-15. Reset none -/
  scrubs   : List Nat := []
  /-- A RETRAIN or REKEY in progress: activity number and port. 18 Table 18-15. Reset none -/
  works    : List (Nat × Nat) := []
  /-- Times of completed device recoveries. 18 R524. Reset empty -/
  recovered : List Word := []
  /-- Recovery reasons due. 18 R522. Reset empty -/
  due      : List Nat := []
  /-- Times of outcomes in which this package's member was suspect. 18 R539. Reset empty -/
  suspects : List Word := []
  /-- DUMMY_OPENs sent and not answered: sequence, seat, and whether for a restore. 18 R530. Reset empty -/
  opens    : List (Half × Nat × Bool) := []
deriving DecidableEq, Repr

/-- Firmware watchdogs, restarts, update, telemetry (16; 17 Table 17-16). -/
structure Mgmt where
  /-- PWR_FW_WDT_n.period_us, 32 bits, n 0 to 4. 16 Table 16-2. Reset 100,000 -/
  period   : Tbl Nat := []
  /-- PWR_FW_WDT_n.armed, 1 bit for all. 16 Table 16-2. Reset 0 -/
  armed    : Bool := false
  /-- Time of the last kick, n 0 to 4. 16 R460. Reset 0 -/
  kicked   : Tbl Nat := []
  /-- M-cores whose restart OHM-SUP has not begun. 16 R461. Reset none -/
  late     : List Nat := []
  /-- Restarts of components within 600 s: component and time. 16 R464. Reset empty -/
  restarts : List (Nat × Word) := []
  /-- Staged image. 16 R475. Reset none -/
  staged   : Option ImageFacts := none
  /-- UPDATE_STAGE or UPDATE_COMMIT in progress: sequence and host incarnation. 16 R475, R476. Reset none -/
  updReq   : Option (Half × Quad) := none
  /-- UPDATE_STAGE: host address, stage address and length being read. 16 R475. Reset none -/
  reading  : Option (Nat × Nat × Nat) := none
  /-- Telemetry history, 1,024 frames of 128 bytes, oldest first. 17 Table 17-16. Reset empty -/
  frames   : List (List Byte) := []
  /-- Busy time of the five cores in the last 100 ms, 1/100 %. 16 R483. Reset 0 -/
  busy     : List Nat := []
  /-- Count of MBX requests sent to other packages, 16 bits. 16 Table 16-4. Reset DESIGN CHOICE 0 (log 8) -/
  mbxSeq   : Half := 0
  /-- MBX requests sent and unanswered: sequence, position, type. 16 R474. Reset none -/
  asked    : List (Half × Nat × Nat) := []
  /-- Count of notices to other packages, 16 bits. 16 Table 16-4. Reset DESIGN CHOICE 0 (log 8) -/
  notices  : Half := 0
  /-- mgmt_link, 0 down, 1 100 Mb/s, 2 1,000 Mb/s. 17 Table 17-13. Reset 0 -/
  link     : Nat := 0
  /-- pkg_incarnation last learnt of each position. 16 R474. Reset 0, unknown -/
  peers    : Tbl Nat := []
  /-- Old incarnation, and requests of each function discarded, for NOTICE RESTART. 16 R472. Reset 0 -/
  discarded : Tbl Nat := []
deriving DecidableEq, Repr

/-! ## The machine -/

/-- The whole state of the package. -/
structure State where
  /-- Commands that wait, first in, first out; the model's queue, not the spec's. Reset empty -/
  pending : List Instr := []
  /-- HIF_DEV_STATE, 4 bits. 02 Table 2-9. Reset COLD -/
  dev     : DevState := .cold
  host    : HostIf := {}
  /-- Seats by index, 4,096 entries. 02 section 2.5 -/
  seats   : Tbl SeatInfo := []
  /-- Stamp for the orders of R50 and R55. Reset 0 -/
  stamp   : Nat := 1
  /-- The ready seat that the seat engine has chosen. 02 R50. Reset none -/
  chosen  : Option Nat := none
  /-- SEAT_PLAYING.valid and .seat. 02 Table 2-10. Reset none -/
  play    : Option Play := none
  /-- Phase that the next period boundary makes active, with the @done signals of its SETPH. 03 R78. Reset none -/
  phaseNext : Option (Nat × List (Nat × Target)) := none
  /-- Eight sequencers, key CD. 03 R58 -/
  seqs    : Tbl Seq := []
  /-- Operations of the units, oldest first. 03 R60. Reset empty -/
  ops     : List Op := []
  nextOp  : Nat := 0
  sync    : Sync := {}
  memory  : Memory := {}
  time    : Time := {}
  rel     : Rel := {}
  fw      : Fw := {}
  /-- Dictionary objects by index × 256 + sub-index; unlisted: the default. 17 R485 -/
  objs    : Tbl (Option Nat) := []
  clk     : Clk := {}
  arr     : Arr := {}
  links   : Links := {}
  power   : Power := {}
  boot    : Boot := {}
  mgmt    : Mgmt := {}
  kdp     : Kdp := {}
  sec     : Sec := {}
  maint   : Maint := {}
  fab     : Fabric := {}
  table   : Table := {}
  /-- Groups held, 0 to 256. 12 R361. Reset none -/
  groups  : List Group := []
  /-- Unit map, 8 × 32 bits. 05 Table 5-3. From fuses and repair record; reset DESIGN CHOICE 0, full mode (log 14) -/
  unitMap : Tbl Nat := []
  /-- Deck bytes read so far for the ACTIVATE in progress, when the deck lies outside the package. 02 R45. Reset none -/
  deckBuf : Option (List (Byte × Bool)) := none
  /-- Decoded private parts of the deck of the ACTIVATE in progress. 03 R84. Reset none -/
  deckFacts : DeckFacts := {}
  /-- Tenant bound to each far-tier key slot, key slot; unlisted: unbound. 19 R551. Reset: none bound -/
  keyBind : Tbl (Option Half) := []
  /-- Generation of the key in each far-tier key slot. 19 R551. Reset 0 -/
  keyGen  : Tbl Nat := []
  /-- The model's own counter behind its free values (log 3). Reset 0 -/
  freeCtr : Nat := 0
  /-- Outputs, newest first; the model's own (log 11). Reset empty -/
  out     : List Output := []
deriving DecidableEq, Repr

/-- The machine right after reset: the package unpowered or held in reset (00, Table 0-5). -/
def State.reset : State := {}

end Sys2Proof.Machine
end

