-- ==== Sys2Proof/Machine/Ops.lean ====
section
/-! DEFINITION. The named operations over the state that every family shares: accessors, dictionary counters,
timestamps, interrupts, events, mailbox messages, reports. -/

namespace Sys2Proof.Machine

/-- What every meaning answers. -/
abbrev Res := Host.Outcome State Fault Refusal

/-! ## Accessors -/

def State.fn (s : State) (f : Nat) : FnPage := Tbl.get {} s.host.fns f
def State.modFn (s : State) (f : Nat) (g : FnPage → FnPage) : State :=
  { s with host := { s.host with fns := Tbl.modify {} s.host.fns f g } }
def State.seat (s : State) (n : Nat) : SeatInfo := Tbl.get {} s.seats n
def State.modSeat (s : State) (n : Nat) (g : SeatInfo → SeatInfo) : State :=
  { s with seats := Tbl.modify {} s.seats n g }
def State.seq (s : State) (c : Nat) : Seq := Tbl.get {} s.seqs c
def State.modSeq (s : State) (c : Nat) (g : Seq → Seq) : State :=
  { s with seqs := Tbl.modify {} s.seqs c g }
/-- Record an output. -/
def State.emit (s : State) (o : Output) : State := { s with out := o :: s.out }
/-- Read the next free value and advance the counter (log 3). -/
def State.free (s : State) : Word × State := (Config.freeValue s.freeCtr, { s with freeCtr := s.freeCtr + 1 })

/-! ## Dictionary values and counters (17, R485) -/

/-- The key of object `index.sub`. -/
def objKey (index sub : Nat) : Nat := index * 256 + sub
/-- The value of an object, `d` while nothing has written it. -/
def State.obj (s : State) (key d : Nat) : Nat := (Tbl.get none s.objs key).getD d
def State.setObj (s : State) (key v : Nat) : State := { s with objs := Tbl.set none s.objs key (some v) }
/-- Raise a saturating counter of `w` bits by `n`. -/
def State.bump (s : State) (key w : Nat) (n : Nat := 1) : State :=
  s.setObj key (min (s.obj key 0 + n) (maxOf w))

/-- The retry-after of an answer whose estimate the spec does not give: a free value (00, R7; log 3). Only ST_CONFLICT comes without one. -/
def State.hinted (s : State) (st : Status) (retry : Nat) : Nat × State :=
  if st = .conflict && retry = 0 then let (v, s) := s.free; (v.toNat % 2 ^ 32, s) else (retry, s)

/-! ## Time (13) -/

/-- TIME64 of the present moment (13, Table 13-1). -/
def State.now (s : State) : Word := (s.time.ns &&& 0x0FFFFFFFFFFFFFFF) ||| ((s.time.epoch.setWidth 64) <<< 60)
/-- Timebase nanoseconds. -/
def State.ns (s : State) : Nat := s.time.ns.toNat

/-- Stamp `a` is later than stamp `b` (13, R391). -/
def stampLater (a b : Nat) : Bool :=
  let ea := a / 2 ^ 60 % 16
  let eb := b / 2 ^ 60 % 16
  if ea = eb then decide (b % 2 ^ 60 < a % 2 ^ 60) else decide (1 ≤ (ea + 16 - eb) % 16) && decide ((ea + 16 - eb) % 16 ≤ 7)

/-- CCLK cycles in an interval of the timebase at the divider in effect (14, Table 14-2). -/
def State.cyclesIn (s : State) (ns : Nat) : Nat := ns * 8 / max 1 s.clk.div

/-! ## The array's state (05) -/

/-- Nothing is in progress in the array, its tile queues or the MVPs. -/
def Arr.idle (a : Arr) : Arr := { a with prods := [], loads := [], acc := [], queues := [], mvp := [] }
/-- No B is bound, and no stationary tile is loaded (05, R125). -/
def Arr.unbind (a : Arr) : Arr := { a with bind := none, boundBy := none, loads := [], planes := [] }

/-! ## Codes -/

/-- Codes of device states (02, Table 2-9). -/
def devCode : DevState → Nat
  | .cold => 0 | .options => 1 | .rom => 2 | .staging => 3 | .live => 4 | .doze => 5 | .recovering => 6 | .folded => 7
  | .optionConflict => 8
/-- Codes of seat states (02, section 2.4). -/
def seatCode : SeatState → Nat
  | .free => 0 | .parked => 1 | .seated => 2 | .playing => 3 | .halted => 4 | .resetting => 5
/-- Command codes (02, Table 2-15). -/
def opCode : SeatOp → Nat
  | .play => 1 | .halt => 2 | .resume => 3 | .reset => 4 | .activate => 8 | .seat => 9 | .park => 0xA | .release => 0xB
  | .pin => 0xC | .unpin => 0xD
/-- The command that a code names (02, Table 2-15). -/
def opOf : Nat → Option SeatOp
  | 1 => some .play | 2 => some .halt | 3 => some .resume | 4 => some .reset | 8 => some .activate | 9 => some .seat
  | 0xA => some .park | 0xB => some .release | 0xC => some .pin | 0xD => some .unpin
  | _ => none

/-- Function `f` exists: PF 0, or a VF that is enabled (02, R26). -/
def State.fnEnabled (s : State) (f : Nat) : Bool := f == 0 || f ≤ s.host.numVfs

/-! ## Interrupts (02, R34) -/

/-- Send the MSI-X message of vector `v`, or defer it to the pending-bit array while the vector is masked. -/
def State.sendMsix (s : State) (f v : Nat) : State :=
  let e := Tbl.get {} (s.fn f).msix v
  if e.masked then s.modFn f fun p => { p with pba := p.pba ||| (1 <<< v) }
  else s.emit (.msix f v e.addr e.data)

/-- Set a cause bit; a bit that goes from 0 to 1 while unmasked sends its message. -/
def State.raiseIrq (s : State) (f v : Nat) : State :=
  let p := s.fn f
  if p.cause.getLsbD v then s
  else
    let s := s.modFn f fun p => { p with cause := p.cause ||| (1 <<< v) }
    if p.mask.getLsbD v then s else s.sendMsix f v

/-- Set a cause bit on every function of a list. -/
def State.raiseAll (s : State) (fs : List Nat) (v : Nat) : State := fs.foldl (fun s f => s.raiseIrq f v) s

/-- PF 0 and the enabled VFs. -/
def State.enabledFns (s : State) : List Nat := List.range (s.host.numVfs + 1)

/-- The device state changes: HIF_DEV_STATE and the device_state cause bit of every enabled function (02, Table 2-7). -/
def State.setDev (s : State) (d : DevState) : State :=
  if s.dev = d then s else ({ s with dev := d }).raiseAll s.enabledFns 4

/-! ## Accesses through PCIe (02, R27, Table 2-1) -/

/-- An uncorrectable error of PCIe: its bit in the AER status, and unless masked a message of its severity (02, Table 2-1; the bits are
PCIe's, log 143). -/
def State.aer (s : State) (b : Nat) : State :=
  let s := { s with host := { s.host with aerStatus := s.host.aerStatus ||| (1 <<< b) } }
  if s.host.aerMask.getLsbD b then s else s.emit (.pcieError (s.host.aerSeverity.getLsbD b))

/-- The registers answer the host: the link is up (15, R436) and the package out of reset (R452). -/
def State.bar0Open (s : State) : Bool :=
  s.host.linkUp && s.dev ≠ .cold && s.dev ≠ .options && !(s.dev = .rom && s.boot.waiting)

/-- A host access to a register of function `f`: one that the link does not carry has no effect, and in D3hot, where a function completes
configuration requests only, it is an Unsupported Request (02, Table 2-1; log 143). -/
def State.hostAccess (s : State) (f : Nat) (act : State → State) : State :=
  if !s.bar0Open || !s.fnEnabled f then s
  else if s.host.d3hot then s.aer 20
  else act s

/-! ## Event FIFOs (02, R33) -/

/-- Put an event into one function's FIFO, or set overflow when it holds 64. -/
def State.pushEvent (s : State) (f : Nat) (e : Event) : State :=
  if (s.fn f).events.length < 64 then
    (s.modFn f fun p => { p with events := p.events ++ [e] }).raiseIrq f 2
  else s.modFn f fun p => { p with eventsLost := true }

/-- EVENT_APPEND: the event of a seat goes to its owner's FIFO and to PF 0's (02, R33; R26 for a VF that is not
enabled). -/
def State.appendEvent (s : State) (n : Nat) : State :=
  let i := s.seat n
  let e : Event := { seat := n, state := i.state, haltCause := i.haltCause, incarnation := i.inc }
  let s := if i.entry.owner ≠ 0 && s.fnEnabled i.entry.owner then s.pushEvent i.entry.owner e else s
  s.pushEvent 0 e

/-! ## Mailbox messages to the host (16) -/

/-- A message: the 32-byte header of Table 16-4 and its payload. -/
def msgBytes (type : Nat) (seq : Half) (st : Status) (flags : Nat) (sendInc recvInc : Quad) (seat : Nat) (retry : Nat)
    (stamp : Word) (payload : List Byte) : List Byte :=
  [1, 2] ++ leBytes 2 type ++ leBytes 2 seq.toNat ++ [statusCode st, BitVec.ofNat 8 flags] ++ leBytes 4 sendInc.toNat
    ++ leBytes 4 recvInc.toNat ++ leBytes 2 seat ++ leBytes 2 payload.length ++ leBytes 4 retry ++ leBytes 8 stamp.toNat
    ++ payload

/-- Queue a message for a function: at most 16 in the queue, later ones held by their component (16, R470). -/
def State.queueMsg (s : State) (f : Nat) (m : List Byte) : State :=
  s.modFn f fun p => if p.outQ.length < 16 then { p with outQ := p.outQ ++ [m] } else { p with outHeld := p.outHeld ++ [m] }

/-- Queue a NOTICE for a function (16, Table 16-5): `body` is the payload after the kind byte. -/
def State.notice (s : State) (f kind : Nat) (st : Status) (body : List Byte) : State :=
  let p := s.fn f
  let m := msgBytes 0x0080 p.noticeSeq st 2 s.fw.pkgInc p.hostInc 0xFFFF 0 s.now (BitVec.ofNat 8 kind :: body)
  (s.modFn f fun p => { p with noticeSeq := p.noticeSeq + 1 }).queueMsg f m

/-- A NOTICE ERROR (type 0x0080, kind 2). -/
def isNoticeError (m : List Byte) : Bool := field m 2 2 == 0x80 && field m 32 1 == 2

/-! ## The field row (19, R547, Table 19-2) -/

/-- The field row as voted: a bit is 1 when at least two copies hold it. -/
def Sec.row (x : Sec) : BitVec 256 := (x.rowA &&& x.rowB) ||| (x.rowA &&& x.rowC) ||| (x.rowB &&& x.rowC)
/-- The fused svn: the consecutive 1 bits from bit 0. -/
def Sec.svn (x : Sec) : Nat := ((List.range 128).takeWhile fun i => x.row.getLsbD i).length
/-- Roots revoked in service. -/
def Sec.revoked (x : Sec) : BitVec 4 := x.row.extractLsb' 128 4
/-- Fuses blown in all three copies. -/
def Sec.blow (x : Sec) (m : BitVec 256) : Sec := { x with rowA := x.rowA ||| m, rowB := x.rowB ||| m, rowC := x.rowC ||| m }

/-! ## Reports (18, section 18.1) -/

/-- The 64 bytes of a common record (18, Table 18-1). -/
def Report.bytes (r : Report) : List Byte :=
  [BitVec.ofNat 8 r.cls, BitVec.ofNat 8 r.die] ++ leBytes 2 r.code ++ [r.status, BitVec.ofNat 8 r.details.length]
    ++ leBytes 2 r.seat ++ leBytes 4 r.inc.toNat ++ leBytes 2 r.tenant.toNat ++ [BitVec.ofNat 8 r.func, BitVec.ofNat 8 r.action]
    ++ leBytes 8 r.time.toNat ++ leBytes 8 r.seq.toNat
    ++ leBytes 8 (r.d.getD 0 0) ++ leBytes 8 (r.d.getD 1 0) ++ leBytes 8 (r.d.getD 2 0) ++ leBytes 8 (r.d.getD 3 0)

/-- Records that a log of reports holds: common and detail records together (18, R513). -/
def logRecords (l : List Report) : Nat := l.foldl (fun n r => n + 1 + r.details.length) 0

/-- Drop whole reports, oldest first, until at most `room` records remain (18, R513). -/
def logTrim (room : Nat) : List Report → List Report
  | [] => []
  | r :: t => if logRecords (r :: t) ≤ room then r :: t else logTrim room t

/-- The functions that a report of a class reaches: cause bits, then NOTICE ERROR (18, Table 18-2). -/
def reportFns (s : State) (cls : Nat) (owner : Option Nat) : List Nat × List Nat :=
  let o := match owner with | some f => if s.fnEnabled f then [f] else [] | none => []
  let both := if o = [0] then [0] else o ++ [0]
  match cls with
  | 1 => (both, o)
  | 2 => ([0], [0])
  | 3 | 4 => (both, both)
  | 5 => (s.enabledFns, s.enabledFns)
  | _ => ([], [])

/-- Send NOTICE ERROR with a common record to one function, unless four are unsent (18, R514). -/
def State.noticeError (s : State) (f : Nat) (r : Report) : State :=
  let p := s.fn f
  if ((p.outQ ++ p.outHeld).filter isNoticeError).length < 4 then s.notice f 2 (statusOf r.status) (zeros 7 ++ r.bytes) else s

/-- Write one report (18, R512): the log, last_error, errors_reported, then the paths of its class. The seat, when one is
named, gives the incarnation, tenant and function fields. An event with no status of its own gets some code of Table 0-4, which the
spec does not state (00, R6; log 138). -/
def State.report (s : State) (cls code action : Nat) (seat : Option Nat := none) (d : List Nat := [])
    (st : Option Status := none) (die : Nat := 0xFF) (details : List (List Byte) := []) : State :=
  let base : Report :=
    { cls := cls, die := die, code := code, action := action, time := s.now, d := d,
      status := match st with
        | some x => statusCode x
        | none => BitVec.ofNat 8 ((Config.reportStatus code (s.obj 0x600001 0 + 1)).toNat % 21)
      details := details, seq := BitVec.ofNat 64 (s.obj 0x600001 0 + 1), inc := s.fw.pkgInc }
  let r := match seat with
    | none => base
    | some n =>
      let i := s.seat n
      { base with seat := n, inc := i.inc, tenant := i.entry.tenant, func := i.entry.owner }
  let s := { s with rel := { s.rel with log := logTrim (256 - 1 - details.length) s.rel.log ++ [r], lastError := some r } }
  let s := s.bump 0x600001 64
  let fns := reportFns s cls (seat.map fun n => (s.seat n).entry.owner)
  fns.2.foldl (fun s f => s.noticeError f r) (s.raiseAll fns.1 3)

end Sys2Proof.Machine
end

