-- ==== Sys2Proof/Machine/MemOps.lean ====
section
/-! DEFINITION. The memories (08): the device address map, bands and interleave, written bits, poison marks, key slots,
and the one operation that reads bytes and the one that writes them. -/

namespace Sys2Proof.Machine

/-! ## The device address map (08, Tables 8-1 and 8-8) -/

/-- Bytes of populated slab. -/
def slabSize : Nat := 0x0A000000
/-- First device address of the slabs. -/
def slabBase : Nat := 0xC000000000
/-- First device address of the near tiers. -/
def nearBase : Nat := 0x8000000000
/-- First device address beyond the far tier. -/
def farEnd : Nat := 0x6000000000
/-- Bytes of one far-tier stack. -/
def stackSize : Nat := 0xC00000000

/-- The target of a local device address (08, Table 8-8). -/
inductive Target8 where
  | far (band : Nat)
  | near (cd : Nat)
  | slab (cd : Nat)
  | sync
  | control
  | unmapped
deriving DecidableEq, Repr

/-- The target that a device address with route 0x00 selects (08, R244). -/
def target (a : Nat) : Target8 :=
  if a < farEnd then .far (a / 0x200000000)
  else if nearBase ≤ a && a < nearBase + 8 * 0x200000000 then .near ((a - nearBase) / 0x200000000)
  else if slabBase ≤ a && a < slabBase + 8 * 0x10000000 && (a - slabBase) % 0x10000000 < slabSize then
    .slab ((a - slabBase) / 0x10000000)
  else if 0xE000000000 ≤ a && a < 0xF000000000 then .sync
  else if 0xF000000000 ≤ a && a < 0x10000000000 then .control
  else .unmapped

/-- The memory that a target lies in: the far tier as a whole, one near tier, one slab. -/
def memOf : Target8 → Option (Nat × Nat)
  | .far _ => some (0, 0)
  | .near n => some (1, n)
  | .slab n => some (2, n)
  | _ => none

/-- A range lies wholly in one memory of the package (08, R244). -/
def inOneMem (a len : Nat) : Bool :=
  len == 0 || ((memOf (target a)).isSome && memOf (target a) == memOf (target (a + len - 1)) && a + len ≤ 0x10000000000)

/-- A range lies wholly in the far tier. -/
def inFar (a len : Nat) : Bool := decide (a + len ≤ farEnd)

/-- Stack and stack offset of a far-tier device address (08, R230). -/
def stackOf (mode : BitVec 48) (a : Nat) : Nat × Nat :=
  let b := a / 0x200000000
  if mode.getLsbD b then (bits a 30 3, b * 0x40000000 + bits a 0 30)
  else (bits a 12 3, b * 0x40000000 + bits a 15 18 * 0x1000 + bits a 0 12)

/-- The CD that controls the memory at a local device address; 8 for none (08, Table 8-8, R236). -/
def memCd (mode : BitVec 48) (a : Nat) : Nat :=
  match target a with
  | .near n | .slab n => n
  | .far _ => (stackOf mode a).1
  | _ => 8

/-- The physical cell of a device address: far-tier bytes by stack and stack offset, the others by address. -/
def cellOf (mode : BitVec 48) (a : Nat) : Nat :=
  if a < farEnd then (stackOf mode a).1 * stackSize + (stackOf mode a).2 else a

/-- The slab row of a device address, counted over all eight slabs. -/
def rowOf (a : Nat) : Nat := (a - slabBase) / 0x10000000 * 327680 + (a - slabBase) % 0x10000000 / 512

/-- The device address of slab offset `off` of a CD. -/
def slabAddr (cd off : Nat) : Nat := slabBase + cd * 0x10000000 + off

def isSlab (a : Nat) : Bool := match target a with | .slab _ => true | _ => false

/-! ## Keys (08, R243) -/

/-- The key now in a slot: slot and generation together. -/
def State.keyOf (s : State) (slot : Nat) : Nat := slot + 256 * Tbl.get 0 s.keyGen slot

/-! ## Reading -/

/-- A byte with the poison mark of its sector (08, R241). -/
abbrev PByte := Byte × Bool

/-- The stored byte of a cell. -/
def Memory.cell (m : Memory) (c : Nat) : Byte := Tbl.get 0 m.mem c

/-- The byte at local device address `a`, read under key `key`: an unwritten slab row reads as zero with no poison mark
(08, R223); a far-tier sector written under another key yields other bytes (R243). -/
def Memory.read1 (m : Memory) (key a : Nat) : PByte :=
  if isSlab a && !(Tbl.get false m.written (rowOf a)) then (0, false)
  else
    let c := cellOf m.bandMode a
    let p := Tbl.get false m.poison (c / 64)
    if a < farEnd && Tbl.get 0 m.sectorKey (c / 64) ≠ key then
      (Config.otherKeyByte (Tbl.get 0 m.sectorKey (c / 64)) key c ((List.range 16).map fun i => m.cell (c / 16 * 16 + i)), p)
    else (m.cell c, p)

/-- `len` bytes from local device address `a`. -/
def Memory.read (m : Memory) (key a : Nat) : Nat → List PByte
  | 0 => []
  | n + 1 => m.read1 key a :: Memory.read m key (a + 1) n

/-! ## Writing -/

/-- Store one byte in a cell; the list keeps its canonical form. -/
def Memory.put1 (m : Memory) (c : Nat) (b : Byte) : Memory := { m with mem := Tbl.set 0 m.mem c b }

/-- The first write to a slab row in a play sets its written bit and zero-fills the row (08, R223). -/
def Memory.openRow (m : Memory) (a : Nat) : Memory :=
  if Tbl.get false m.written (rowOf a) then m
  else
    let lo := a / 512 * 512
    { m with
      written := Tbl.set false m.written (rowOf a) true
      mem := m.mem.filter fun e => !(decide (lo ≤ e.1) && decide (e.1 < lo + 512))
      poison := m.poison.filter fun e => !(decide (lo / 64 ≤ e.1) && decide (e.1 < lo / 64 + 8)) }

/-- A far-tier sector becomes encrypted under `key`: the bytes outside `[lo, hi)` are what that key reads there. -/
def Memory.rekey (m : Memory) (key sec lo hi : Nat) : Memory :=
  let c := cellOf m.bandMode (sec * 64)
  if Tbl.get 0 m.sectorKey (c / 64) = key then m
  else
    let m' := (List.range 64).foldl (fun m' i =>
      if lo ≤ sec * 64 + i && sec * 64 + i < hi then m' else m'.put1 (c + i) (m.read1 key (sec * 64 + i)).1) m
    { m' with sectorKey := Tbl.set 0 m'.sectorKey (c / 64) key }

/-- Sectors (by device address / 64) that a range touches. -/
def sectors (a len : Nat) : List Nat :=
  if len = 0 then [] else (List.range ((a + len - 1) / 64 - a / 64 + 1)).map (· + a / 64)

/-- Rows (by device address / 512) that a range touches. -/
def rows (a len : Nat) : List Nat :=
  if len = 0 then [] else (List.range ((a + len - 1) / 512 - a / 512 + 1)).map (· + a / 512)

/-- Store bytes one after another. -/
def Memory.putAll (m : Memory) (a : Nat) : List PByte → Memory
  | [] => m
  | b :: t => (m.put1 (cellOf m.bandMode a) b.1).putAll (a + 1) t

/-- The poison mark of sector `sec` after a write of `bs` at `a` (08, R241). -/
def Memory.markSector (m : Memory) (a : Nat) (bs : List PByte) (sec : Nat) : Memory :=
  let c := cellOf m.bandMode (sec * 64) / 64
  let part := (bs.drop (sec * 64 - a)).take (min (sec * 64 + 64 - a) 64)
  let full := a ≤ sec * 64 && sec * 64 + 64 ≤ a + bs.length
  { m with poison := Tbl.set false m.poison c (part.any (·.2) || (!full && Tbl.get false m.poison c)) }

/-- Stamp the 64 KiB pages of a range as written (18, R534). -/
def Memory.stampPages (m : Memory) (a len : Nat) : Memory :=
  { m with
    stamp := m.stamp + 1
    pageStamp := (List.range ((a + len - 1) / 65536 - a / 65536 + 1)).foldl
      (fun t i => Tbl.set 0 t (a / 65536 + i) (m.stamp + 1)) m.pageStamp }

/-- Write bytes at local device address `a` under key `key`: nothing unless the range lies in one memory (08, R244). -/
def Memory.write (m : Memory) (key a : Nat) (bs : List PByte) : Memory :=
  if bs.length = 0 || !inOneMem a bs.length then m
  else
    let m := if isSlab a then (rows a bs.length).foldl (fun m r => m.openRow (r * 512)) m else m
    let m := if a < farEnd then (sectors a bs.length).foldl (fun m x => m.rekey key x a (a + bs.length)) m else m
    let m := (sectors a bs.length).foldl (fun m x => m.markSector a bs x) (m.putAll a bs)
    if isSlab a then m else m.stampPages a bs.length

def State.readMem (s : State) (key a len : Nat) : List PByte := s.memory.read key a len

/-- Bytes of a range under the key now in `slot`; outside every memory, poisoned zeros (08, R244). -/
def State.readSlot (s : State) (slot a len : Nat) : List PByte :=
  if inOneMem a len then s.memory.read (s.keyOf slot) a len else List.replicate len (0, true)

/-- Write a range under the key now in `slot`. -/
def State.writeSlot (s : State) (slot a : Nat) (bs : List PByte) : State :=
  { s with memory := s.memory.write (s.keyOf slot) a bs }

/-- Bytes that carry no poison. -/
def good (bs : List Byte) : List PByte := bs.map fun b => (b, false)
/-- Any byte of a read is poisoned. -/
def anyPoison (bs : List PByte) : Bool := bs.any (·.2)
/-- The plain bytes of a read. -/
def plain (bs : List PByte) : List Byte := bs.map (·.1)

/-- Zero a range: memory, poison marks, and the key under which it is written (19, R553). -/
def Memory.zeroRange (m : Memory) (key a len : Nat) : Memory :=
  let cells := fun (c : Nat) => (List.range ((len + 4095) / 4096 + 1)).any fun i =>
    let lo := max a ((a / 4096 + i) * 4096)
    let hi := min (a + len) ((a / 4096 + i + 1) * 4096)
    lo < hi && cellOf m.bandMode lo ≤ c && c < cellOf m.bandMode lo + (hi - lo)
  { m with
    mem := m.mem.filter fun e => !cells e.1
    poison := m.poison.filter fun e => !cells (e.1 * 64)
    sectorKey :=
      if key = 0 then Tbl.mapAll 0 (fun k v => if cells (k * 64) then 0 else v) m.sectorKey
      else (sectors a len).foldl (fun t x => Tbl.set 0 t (cellOf m.bandMode (x * 64) / 64) key) m.sectorKey }

/-- All written bits of the eight slabs are cleared (08, R223). -/
def Memory.clearWritten (m : Memory) : Memory := { m with written := [] }

/-! ## Segment windows (02, R41) -/

/-- The kinds of access that a window's rights allow (02, Table 2-13). -/
inductive Acc where
  | r | w | x | c
deriving DecidableEq, Repr

def allows (w : Window) : Acc → Bool
  | .r => w.r | .w => w.w | .x => w.x | .c => w.c

/-- Translate a seat access: the 56-bit device address and the window's k bit, or none for a window fault (02, R41). -/
def translate (e : Entry) (addr len : Nat) (k : Acc) : Option (Nat × Bool) :=
  if 2 ^ 48 ≤ addr then none
  else
    let w := e.windows.getD (addr / 2 ^ 44) {}
    let off := addr % 2 ^ 44
    if w.size = 0 || w.size < off + len then none
    else if allows w k then some (w.base + off, w.k) else none

/-- The window of a seat address (18, report 0x0101, d2). -/
def windowOf (addr : Nat) : Nat := addr / 2 ^ 44 % 16

/-- The key slot of a seat access through a window (08, R243). -/
def slotOf (e : Entry) (k : Bool) : Nat := if k then e.keySlot else 0

/-- The route of a device address (08, R245). -/
def routeOf (dev : Nat) : Nat := dev / 2 ^ 48

end Sys2Proof.Machine
end

