-- ==== Sys2Proof/Machine/Cipher.lean ====
section
/-! DEFINITION. The ciphers and hashes that the spec takes from published standards: AES-256-GCM (FIPS 197, NIST SP 800-38D) and SHA-384 (FIPS
180-4), computed over numbers (11, R311, R335; 19, R546; log 5, log 162). -/

namespace Sys2Proof.Machine

/-- `f` of a number that is evaluated first. -/
def forced {α : Type} (n : Nat) (f : Nat → α) : α :=
  match n with
  | 0 => f 0
  | k + 1 => f (k + 1)

/-- Big-endian bytes as a number. -/
def beNat (bs : List Byte) : Nat := leNat bs.reverse

/-! ## AES-256: byte `i` of a block is bits [8i + 7:8i] of a number -/

/-- The S-box, 64 entries of 8 bits a piece. -/
def sbox0 : Nat := 0x75B227EBE28012079A059618C323C7041531D871F1E5A534CCF73F362693FDB7C072A49CAFA2D4ADF04759FA7DC982CA76ABD7FE2B670130C56F6BF27B777C63
def sbox1 : Nat := 0xD2F3FF1021DAB6BCF5389D928F40A351A89F3C507F02F94585334D43FBAAEFD0CF584C4A39BECB6A5BB1FC20ED00D153842FE329B3D63B52A05A6E1B1A2C8309
def sbox2 : Nat := 0x08AE7A65EAF4566CA94ED58D6D37C8E779E4959162ACD3C25C2406490A3A32E0DB0B5EDE14B8EE4688902A22DC4F816073195D643D7EA7C41744975FEC130CCD
def sbox3 : Nat := 0x16BB54B00F2D99416842E6BF0D89A18CDF2855CEE9871E9B948ED9691198F8E19E1DC186B95735610EF6034866B53E708A8BBD4B1F74DDE8C6B4A61C2E2578BA
def sboxPart (i : Nat) : Nat := if i = 0 then sbox0 else if i = 1 then sbox1 else if i = 2 then sbox2 else sbox3
/-- SubBytes of one byte. -/
def subByte (x : Nat) : Nat := (sboxPart (x / 64) >>> (8 * (x % 64))) % 256
/-- SubBytes and ShiftRows: byte `i` comes from row `i` mod 4 of the column that the row's shift names. -/
def subShift (s : Nat) : Nat → Nat → Nat
  | 0, a => a
  | n + 1, a => forced (a * 256 + subByte ((s >>> (8 * (4 * ((n / 4 + n % 4) % 4) + n % 4))) % 256)) (subShift s n)
/-- Every byte times x in the field of FIPS 197. -/
def xtime (s : Nat) : Nat :=
  ((s &&& 0x7F7F7F7F7F7F7F7F7F7F7F7F7F7F7F7F) <<< 1) ^^^ (((s >>> 7) &&& 0x01010101010101010101010101010101) * 0x1B)
/-- Every column turned by one byte. -/
def turnColumns (s : Nat) : Nat :=
  ((s >>> 8) &&& 0x00FFFFFF00FFFFFF00FFFFFF00FFFFFF) ||| ((s &&& 0x000000FF000000FF000000FF000000FF) <<< 24)
def mixColumns (s : Nat) : Nat :=
  forced (turnColumns s) fun a => forced (turnColumns a) fun b => xtime (s ^^^ a) ^^^ a ^^^ b ^^^ turnColumns b

/-- SubWord of a word of the key schedule. -/
def subWord (w : Nat) : Nat :=
  subByte (w % 256) + subByte (w / 256 % 256) * 2 ^ 8 + subByte (w / 2 ^ 16 % 256) * 2 ^ 16 + subByte (w / 2 ^ 24 % 256) * 2 ^ 24
/-- Each word of a list after the exclusive or of those before it and `a`. -/
def chainWords : Nat → List Nat → List Nat
  | _, [] => []
  | a, w :: t => forced (a ^^^ w) fun b => b :: chainWords b t
/-- The next eight words of the key schedule. -/
def nextWords (rcon : Nat) (w : List Nat) : List Nat :=
  let l := w.getD 7 0
  let a := chainWords (subWord (l >>> 8 ||| (l % 256) <<< 24) ^^^ rcon) (w.take 4)
  a ++ chainWords (subWord (a.getD 3 0)) (w.drop 4)
def keyWords : Nat → Nat → List Nat → List Nat
  | 0, _, _ => []
  | n + 1, rcon, w => let x := nextWords rcon w; x ++ keyWords n (2 * rcon) x
/-- Four words a round key. -/
def roundKeys : List Nat → List Nat
  | a :: b :: c :: d :: t => (a + b * 2 ^ 32 + c * 2 ^ 64 + d * 2 ^ 96) :: roundKeys t
  | _ => []
/-- The fifteen round keys of a 32-byte key. -/
def aesKeys (key : List Byte) : List Nat :=
  let w := (List.range 8).map fun i => leNat ((key.drop (4 * i)).take 4)
  roundKeys ((w ++ keyWords 7 1 w).take 60)
/-- The rounds after the first key: the last has no MixColumns. -/
def aesRounds : List Nat → Nat → Nat
  | [], s => s
  | [k], s => subShift s 16 0 ^^^ k
  | k :: t, s => forced (subShift s 16 0) fun x => forced (mixColumns x ^^^ k) (aesRounds t)
/-- One block under the round keys, both with byte 0 lowest. -/
def aesBlock : List Nat → Nat → Nat
  | [], b => b
  | k :: t, b => forced (b ^^^ k) (aesRounds t)

/-! ## GCM (NIST SP 800-38D) -/

/-- One product in GHASH's field, most significant bit first. -/
def ghashMul (x : Nat) : Nat → Nat → Nat → Nat
  | 0, _, z => z
  | n + 1, v, z =>
    forced (if x.testBit n then z ^^^ v else z) fun z' =>
      forced (if v % 2 = 1 then v >>> 1 ^^^ 0xE1000000000000000000000000000000 else v >>> 1) fun v' => ghashMul x n v' z'
/-- Bytes as big-endian 16-byte blocks, the last padded with zeros; `n` bounds their number. -/
def gcmBlocks : Nat → List Byte → List Nat
  | 0, _ => []
  | n + 1, bs => if bs.isEmpty then [] else beNat (padTo 16 (bs.take 16)) :: gcmBlocks n (bs.drop 16)
def ghash (h : Nat) (blocks : List Nat) : Nat :=
  blocks.foldl (fun y b => forced (y ^^^ b) fun x => ghashMul x 128 h 0) 0
/-- The 16 bytes of counter block `i` under the round keys. -/
def gcmStream (keys : List Nat) (iv : List Byte) (i : Nat) : List Byte :=
  leBytes 16 (forced (leNat (iv ++ (leBytes 4 i).reverse)) (aesBlock keys))
/-- Counter mode from block `i`: encrypts and decrypts; `n` bounds the blocks. -/
def gcmCrypt (keys : List Nat) (iv : List Byte) : Nat → Nat → List Byte → List Byte
  | 0, _, _ => []
  | n + 1, i, bs =>
    if bs.isEmpty then []
    else List.zipWith (· ^^^ ·) (bs.take 16) (gcmStream keys iv i) ++ gcmCrypt keys iv n (i + 1) (bs.drop 16)
/-- The tag of a ciphertext and its additional data. -/
def gcmTag (keys : List Nat) (iv aad cipher : List Byte) (tagLen : Nat) : List Byte :=
  let h := beNat (leBytes 16 (aesBlock keys 0))
  let blocks := gcmBlocks (aad.length / 16 + 1) aad ++ gcmBlocks (cipher.length / 16 + 1) cipher
    ++ [8 * aad.length * 2 ^ 64 + 8 * cipher.length]
  (List.zipWith (· ^^^ ·) ((leBytes 16 (ghash h blocks)).reverse) (gcmStream keys iv 1)).take tagLen
/-- AES-256-GCM: the ciphertext, then a tag of `tagLen` bytes, from key, 96-bit IV, additional data and plaintext. -/
def gcmSeal (key iv aad plain : List Byte) (tagLen : Nat) : List Byte :=
  let keys := aesKeys key
  let c := gcmCrypt keys iv (plain.length / 16 + 1) 2 plain
  c ++ gcmTag keys iv aad c tagLen
/-- The plaintext of a ciphertext and its tag, where the tag is right. -/
def gcmOpen (key iv aad sealed : List Byte) (tagLen : Nat) : Option (List Byte) :=
  let keys := aesKeys key
  let c := sealed.take (sealed.length - tagLen)
  if gcmTag keys iv aad c tagLen = sealed.drop (sealed.length - tagLen) then some (gcmCrypt keys iv (c.length / 16 + 1) 2 c) else none

/-! ## SHA-384 (FIPS 180-4) -/

/-- The round constants. -/
def shaK0 : List Nat :=
  [0x428A2F98D728AE22, 0x7137449123EF65CD, 0xB5C0FBCFEC4D3B2F, 0xE9B5DBA58189DBBC,
   0x3956C25BF348B538, 0x59F111F1B605D019, 0x923F82A4AF194F9B, 0xAB1C5ED5DA6D8118]
def shaK1 : List Nat :=
  [0xD807AA98A3030242, 0x12835B0145706FBE, 0x243185BE4EE4B28C, 0x550C7DC3D5FFB4E2,
   0x72BE5D74F27B896F, 0x80DEB1FE3B1696B1, 0x9BDC06A725C71235, 0xC19BF174CF692694]
def shaK2 : List Nat :=
  [0xE49B69C19EF14AD2, 0xEFBE4786384F25E3, 0x0FC19DC68B8CD5B5, 0x240CA1CC77AC9C65,
   0x2DE92C6F592B0275, 0x4A7484AA6EA6E483, 0x5CB0A9DCBD41FBD4, 0x76F988DA831153B5]
def shaK3 : List Nat :=
  [0x983E5152EE66DFAB, 0xA831C66D2DB43210, 0xB00327C898FB213F, 0xBF597FC7BEEF0EE4,
   0xC6E00BF33DA88FC2, 0xD5A79147930AA725, 0x06CA6351E003826F, 0x142929670A0E6E70]
def shaK4 : List Nat :=
  [0x27B70A8546D22FFC, 0x2E1B21385C26C926, 0x4D2C6DFC5AC42AED, 0x53380D139D95B3DF,
   0x650A73548BAF63DE, 0x766A0ABB3C77B2A8, 0x81C2C92E47EDAEE6, 0x92722C851482353B]
def shaK5 : List Nat :=
  [0xA2BFE8A14CF10364, 0xA81A664BBC423001, 0xC24B8B70D0F89791, 0xC76C51A30654BE30,
   0xD192E819D6EF5218, 0xD69906245565A910, 0xF40E35855771202A, 0x106AA07032BBD1B8]
def shaK6 : List Nat :=
  [0x19A4C116B8D2D0C8, 0x1E376C085141AB53, 0x2748774CDF8EEB99, 0x34B0BCB5E19B48A8,
   0x391C0CB3C5C95A63, 0x4ED8AA4AE3418ACB, 0x5B9CCA4F7763E373, 0x682E6FF3D6B2B8A3]
def shaK7 : List Nat :=
  [0x748F82EE5DEFB2FC, 0x78A5636F43172F60, 0x84C87814A1F0AB72, 0x8CC702081A6439EC,
   0x90BEFFFA23631E28, 0xA4506CEBDE82BDE9, 0xBEF9A3F7B2C67915, 0xC67178F2E372532B]
def shaK8 : List Nat :=
  [0xCA273ECEEA26619C, 0xD186B8C721C0C207, 0xEADA7DD6CDE0EB1E, 0xF57D4F7FEE6ED178,
   0x06F067AA72176FBA, 0x0A637DC5A2C898A6, 0x113F9804BEF90DAE, 0x1B710B35131C471B]
def shaK9 : List Nat :=
  [0x28DB77F523047D84, 0x32CAAB7B40C72493, 0x3C9EBE0A15C9BEBC, 0x431D67C49C100D4C,
   0x4CC5D4BECB3E42B6, 0x597F299CFC657E2A, 0x5FCB6FAB3AD6FAEC, 0x6C44198C4A475817]
def shaK : List Nat := shaK0 ++ shaK1 ++ shaK2 ++ shaK3 ++ shaK4 ++ shaK5 ++ shaK6 ++ shaK7 ++ shaK8 ++ shaK9
/-- The initial hash value. -/
def shaH : List Nat :=
  [0xCBBB9D5DC1059ED8, 0x629A292A367CD507, 0x9159015A3070DD17, 0x152FECD8F70E5939,
   0x67332667FFC00B31, 0x8EB44A8768581511, 0xDB0C2E0D64F98FA7, 0x47B5481DBEFA4FA4]
/-- A 64-bit number turned right. -/
def rotr64 (x n : Nat) : Nat := (x >>> n ||| x <<< (64 - n)) % 2 ^ 64
/-- The words of the message schedule after the last sixteen, newest last; `n` more. -/
def shaWords : Nat → List Nat → List Nat
  | 0, _ => []
  | n + 1, w =>
    let a := w.getD 14 0
    let b := w.getD 1 0
    let s1 := rotr64 a 19 ^^^ rotr64 a 61 ^^^ a >>> 6
    let s0 := rotr64 b 1 ^^^ rotr64 b 8 ^^^ b >>> 7
    forced ((s1 + w.getD 9 0 + s0 + w.getD 0 0) % 2 ^ 64) fun x => x :: shaWords n (w.tail ++ [x])
/-- One round. -/
def shaRound (v : List Nat) (kw : Nat) : List Nat :=
  match v with
  | [a, b, c, d, e, f, g, h] =>
    let t1 := h + (rotr64 e 14 ^^^ rotr64 e 18 ^^^ rotr64 e 41) + (e &&& f ^^^ (e ^^^ (2 ^ 64 - 1)) &&& g) + kw
    let t2 := (rotr64 a 28 ^^^ rotr64 a 34 ^^^ rotr64 a 39) + (a &&& b ^^^ a &&& c ^^^ b &&& c)
    forced ((t1 + t2) % 2 ^ 64) fun x => forced ((d + t1) % 2 ^ 64) fun y => [x, a, b, c, y, e, f, g]
  | _ => v
/-- One block of sixteen words. -/
def shaBlock (v w : List Nat) : List Nat :=
  List.zipWith (fun a b => (a + b) % 2 ^ 64) v ((List.zipWith (· + ·) shaK (w ++ shaWords 64 w)).foldl shaRound v)
/-- Big-endian words of padded bytes; `n` bounds their number. -/
def shaInput : Nat → List Byte → List Nat
  | 0, _ => []
  | n + 1, bs => if bs.isEmpty then [] else beNat (bs.take 8) :: shaInput n (bs.drop 8)
def shaRun : Nat → List Nat → List Nat → List Nat
  | 0, v, _ => v
  | n + 1, v, w => if w.isEmpty then v else shaRun n (shaBlock v (w.take 16)) (w.drop 16)
/-- The 48 bytes of a SHA-384. -/
def sha384Bytes (b : List Byte) : List Byte :=
  let m := b ++ [0x80] ++ zeros ((111 + 128 - b.length % 128) % 128) ++ (leBytes 16 (8 * b.length)).reverse
  let n := m.length / 128
  ((shaRun n shaH (shaInput (16 * n) m)).take 6).flatMap fun x => (leBytes 8 x).reverse
/-- The number whose little-endian bytes are a SHA-384. -/
def sha384 (b : List Byte) : Nat := leNat (sha384Bytes b)

end Sys2Proof.Machine
end

