-- ==== Sys2Proof/Machine/Wire.lean ====
section
/-! DEFINITION. The bits that a port puts on its lanes: cyclic codes, key derivation, the flit and its eight blocks, the spine frame (11,
R309 to R311, R333 to R335; 19, R546, Table 19-6). -/

namespace Sys2Proof.Machine

/-! ## Cyclic redundancy -/

/-- One bit into a CRC register of `w` bits, most significant bit first. -/
def crcBit (w poly c : Nat) (b : Bool) : Nat :=
  let c' := 2 * c % 2 ^ w
  if bit c (w - 1) != b then c' ^^^ poly else c'
def crcBits (w poly : Nat) (c : Nat) (l : List Bool) : Nat := l.foldl (crcBit w poly) c
/-- The bits of bytes, bit 0 of each byte first. -/
def byteBits (bs : List Byte) : List Bool := bs.flatMap fun b => (List.range 8).map fun i => b.getLsbD i
/-- The number whose bits are a list, lowest first. -/
def bitsNat : List Bool → Nat
  | [] => 0
  | b :: t => b2n b + 2 * bitsNat t
/-- The frame check sequence of IEEE 802.3, 4 bytes as sent (11, Table 11-9; log 162). -/
def frameCheck (bs : List Byte) : List Byte :=
  let c := crcBits 32 0x04C11DB7 0xFFFFFFFF (byteBits bs) ^^^ 0xFFFFFFFF
  leBytes 4 (bitsNat ((List.range 32).map fun i => bit c (31 - i)))

/-! ## Derived keys (19, R546, Table 19-6) -/

/-- HMAC-SHA384, whose block is 128 bytes, under a key of at most one block (RFC 2104; log 162). -/
def hmac384 (key m : List Byte) : List Byte :=
  let k := padTo 128 key
  sha384Bytes (k.map (· ^^^ 0x5C) ++ sha384Bytes (k.map (· ^^^ 0x36) ++ m))
/-- Blocks of HKDF-Expand: `n` of them after block `i`, whose bytes are `t`. -/
def hkdfBlocks (prk info : List Byte) : Nat → Nat → List Byte → List Byte
  | 0, _, _ => []
  | n + 1, i, t => let b := hmac384 prk (t ++ info ++ [BitVec.ofNat 8 (i + 1)]); b ++ hkdfBlocks prk info n (i + 1) b
/-- HKDF-SHA384 (RFC 5869): `len` bytes from input `ikm` under a salt and an info string. -/
def hkdf384 (ikm salt info : List Byte) (len : Nat) : List Byte :=
  (hkdfBlocks (hmac384 salt ikm) info ((len + 47) / 48) 0 []).take len
/-- The bytes of an ASCII string. -/
def ascii (t : String) : List Byte := t.toList.map fun c => BitVec.ofNat 8 c.toNat

/-- The bring-up set of one direction of a table port: key and salt, 36 bytes. -/
def bringSet (fs : Nat) (table : Half) (position port : Nat) : List Byte :=
  hkdf384 (leBytes 32 fs) [] (ascii "KLV8 bring" ++ leBytes 2 table.toNat ++ [BitVec.ofNat 8 position, BitVec.ofNat 8 port]) 36
/-- The sets of generation `g` of a table port, low to high first: serial, port and nonce of either end. -/
def linkSets (fs g : Nat) (low high : Nat × Nat × List Byte) : List Byte :=
  hkdf384 (leBytes 32 fs) (low.2.2 ++ high.2.2)
    (ascii "KLV8 link" ++ leBytes 4 g ++ leBytes 8 low.1 ++ leBytes 8 high.1 ++ [BitVec.ofNat 8 low.2.1, BitVec.ofNat 8 high.2.1]) 72
/-- The set of spine CTRL frames. -/
def ctrlSet (fs : Nat) : List Byte := hkdf384 (leBytes 32 fs) [] (ascii "KLV8 spine-ctrl") 36
/-- The sets of generation 0 of a connection, opener to responder first: IV counter of the OPEN or OPEN_ACK, serial and id of either end. -/
def connSets (fs : Nat) (opener responder : Word × Word × Nat) : List Byte :=
  hkdf384 (leBytes 32 fs) (leBytes 8 opener.1.toNat ++ leBytes 8 responder.1.toNat)
    (ascii "KLV8 conn" ++ leBytes 8 opener.2.1.toNat ++ leBytes 8 responder.2.1.toNat ++ leBytes 2 opener.2.2 ++ leBytes 2 responder.2.2) 72
/-- The sets of generation `g` from those of the generation before. -/
def nextSets (sets : List Byte) (g : Nat) : List Byte := hkdf384 sets [] (ascii "KLV8 next" ++ leBytes 4 g) 72

/-- The IV of a set of key and salt: the salt, then a 64-bit counter (11, R311, R335). -/
def setIv (set : List Byte) (ctr : Nat) : List Byte := (set.drop 32).take 4 ++ (leBytes 8 ctr).reverse
/-- AES-256-GCM under a set of key and salt: answers the ciphertext and the tag (11, R311, R335). -/
def sealed (set : List Byte) (ctr tagLen : Nat) (aad plain : List Byte) : List Byte :=
  gcmSeal (set.take 32) (setIv set ctr) aad plain tagLen
/-- The plaintext of a ciphertext and its tag under a set, where the tag is right. -/
def opened (set : List Byte) (ctr tagLen : Nat) (aad cipher : List Byte) : Option (List Byte) :=
  gcmOpen (set.take 32) (setIv set ctr) aad cipher tagLen

/-! ## Flits and blocks (11, R309 to R311) -/

/-- The header of a flit, 4 bytes (11, Table 11-3). -/
def flitHeader (f : Flit) : List Byte :=
  leBytes 4 (f.seq % 2 ^ 12 + f.ack % 2 ^ 12 * 2 ^ 12 + b2n f.nak * 2 ^ 24 + f.kind.val * 2 ^ 25 + b2n f.keyPhase * 2 ^ 27
    + b2n f.crBulk * 2 ^ 28 + f.crUnits % 8 * 2 ^ 29)

/-- The 256 bytes of a flit under a set, with the 63-bit counter of its kind: a null flit's own counter stands in clear and is additional
data (11, Table 11-2, R311). -/
def flitBytes (set : List Byte) (ctr : Nat) (f : Flit) : List Byte :=
  let h := flitHeader f
  let p := padTo 240 f.payload
  if f.kind = 0 then h ++ p.take 8 ++ sealed set (2 ^ 63 + ctr % 2 ^ 63) 12 (h ++ p.take 8) (p.drop 8)
  else h ++ sealed set (ctr % 2 ^ 63) 12 h p

/-- The eight blocks of a flit: bit 0 is 0 in the first and 1 in the others; bits [256:1] carry 32 bytes (11, R309). -/
def flitBlocks (bs : List Byte) : List (BitVec 257) :=
  (List.range 8).map fun b => BitVec.ofNat 257 (2 * leNat (padTo 32 ((bs.drop (32 * b)).take 32)) + b2n (decide (b ≠ 0)))

/-- The bytes that a block carries. -/
def blockBytes (x : BitVec 257) : List Byte := leBytes 32 (x.toNat / 2)

/-- The flit at the head of a stream of blocks: the first block whose bit 0 is 0, and the seven after it, whose bit 0 is 1; none where they do
not stand so (11, R309). -/
def flitAt (l : List (BitVec 257)) : Option (List Byte) :=
  let t := l.dropWhile fun x => x.getLsbD 0
  if 8 ≤ t.length && ((t.drop 1).take 7).all fun x => x.getLsbD 0 then some ((t.take 8).flatMap blockBytes) else none

/-- The header of a flit as its receiver reads it, and a null flit's counter; the payload is still sealed (11, Tables 11-2 and 11-3). -/
def readFlit (bs : List Byte) : Flit :=
  let h := field bs 0 4
  { seq := bits h 0 12, ack := bits h 12 12, nak := bit h 24, kind := ⟨bits h 25 2 % 4, Nat.mod_lt _ (by decide)⟩, keyPhase := bit h 27
    crBulk := bit h 28, crUnits := bits h 29 3, nullCtr := if bits h 25 2 = 0 then field bs 4 8 else 0 }

/-- The payload of a flit under a set, with the counter of its kind, where its tag is right (11, R311, R312). -/
def openFlit (set : List Byte) (ctr : Nat) (bs : List Byte) : Option (List Byte) :=
  if (readFlit bs).kind = 0 then (opened set (2 ^ 63 + ctr % 2 ^ 63) 12 (bs.take 12) (bs.drop 12)).map ((bs.drop 4).take 8 ++ ·)
  else opened set (ctr % 2 ^ 63) 12 (bs.take 4) (bs.drop 4)

/-! ## Spine frames (11, R333 to R335) -/

/-- The spine header of a frame, 16 bytes (11, Table 11-10). -/
def spineHeader (type cls : Nat) (phase ecn : Bool) (conn psn cum sack : Nat) : List Byte :=
  [BitVec.ofNat 8 (1 + 16 * type), BitVec.ofNat 8 (cls + 2 * b2n phase + 4 * b2n ecn)] ++ leBytes 2 conn ++ leBytes 4 psn ++ leBytes 4 cum
    ++ leBytes 4 sack

/-- Bytes as big-endian 16-bit numbers, the last padded with zero. -/
def beHalves : List Byte → List Nat
  | [] => []
  | [a] => [256 * a.toNat]
  | a :: b :: t => (256 * a.toNat + b.toNat) :: beHalves t
/-- The ones' complement sum of 16-bit numbers, complemented; 0 is sent as 0xFFFF (RFC 768, RFC 8200; log 162). -/
def netSum (l : List Nat) : Nat :=
  let s := l.sum
  let c := if s = 0 then 0 else (s - 1) % 65535 + 1
  if c = 65535 then 65535 else 65535 - c
/-- The `n` low bytes of `v`, most significant first. -/
def beBytes (n v : Nat) : List Byte := (leBytes n v).reverse

/-- Where a spine frame goes and what its headers say. -/
structure SpineRoute where
  /-- next-hop MAC and the port's own, in wire order -/
  nextHop : List Byte
  mac     : List Byte
  src     : List Byte
  dst     : List Byte
  /-- connection id × 8 + spine port index: flow label and source port (11, R333, R334) -/
  flow    : Nat
  dstPort : Nat
  dscp    : Nat
  ecn     : Nat
deriving DecidableEq, Repr

/-- A spine frame from its Ethernet header to its FCS around the spine header and the sealed packets (11, Table 11-9). -/
def spineFrame (r : SpineRoute) (body : List Byte) : List Byte :=
  let srcPort := 0xC000 + r.flow % 0x4000
  let len := 8 + body.length
  let udp := fun (sum : Nat) => beBytes 2 srcPort ++ beBytes 2 r.dstPort ++ beBytes 2 len ++ beBytes 2 sum ++ body
  let sum := netSum (beHalves (r.src ++ r.dst ++ beBytes 4 len ++ beBytes 4 17 ++ udp 0))
  let ip := beBytes 4 (6 * 2 ^ 28 + (4 * (r.dscp % 64) + r.ecn) * 2 ^ 20 + r.flow % 2 ^ 20) ++ beBytes 2 len ++ [17, 64] ++ r.src ++ r.dst
  let frame := r.nextHop ++ r.mac ++ [0x86, 0xDD] ++ ip ++ udp sum
  frame ++ frameCheck frame

end Sys2Proof.Machine
end

