-- ==== Sys2Proof/Machine/Route.lean ====
section
/-! DEFINITION. How units hand packets to the fabric: the port map, the primary port, pair sequences, spine connections and
their DATA frames (11, sections 11.5 and 11.7; 12, sections 12.1 and 12.6). -/

namespace Sys2Proof.Machine

/-! ## Ports and peers (12, R342) -/

def State.port (s : State) (n : Nat) : Port := Tbl.get ({} : Port) s.fab.ports n
def State.modPort (s : State) (n : Nat) (f : Port → Port) : State :=
  { s with fab := { s.fab with ports := Tbl.modify ({} : Port) s.fab.ports n f } }

/-- Table ports, and spine ports by their numbers in reports (18, Table 18-3). -/
def tablePorts : List Nat := List.range 34
def spinePorts : List Nat := (List.range 8).map (· + 64)

/-- The key of sub-index `sub` of a port's object (11, Table 11-11). -/
def portObj (port sub : Nat) : Nat := if port < 34 then objKey (0x4000 + port) sub else objKey (0x4040 + (port - 64)) sub

/-- The port towards a position on one edge die, for the package at position `p` (12, R342). -/
def portTo (p peer : Nat) (east : Bool) : Nat :=
  let d := (peer + 18 - p) % 18
  if east then 16 + d else d - 1
/-- The position that a table port leads to. -/
def peerOf (p port : Nat) : Nat := (p + (if port < 17 then port + 1 else port - 16)) % 18
/-- The peer's port at the other end of a table port. -/
def farPort (port : Nat) : Nat := if port < 17 then 16 - port else 50 - port

/-- A port on which the table may send packets: ACTIVE, cabled as R342 says, not closing at its peer, and past the bring-up
keys (11, R330, R332; 12, R343; 19, R557). -/
def usable (p : Port) : Bool := p.state == .active && !p.miscabled && !p.peerClosing && decide (1 ≤ p.txGen)

/-- The port that carries trump packets to a position (12, R344). -/
def State.primaryPort (s : State) (peer : Nat) : Nat := portTo s.table.position peer (s.fab.east.contains peer)
/-- Any usable port to a position (12, Table 12-2, reach). -/
def State.reaches (s : State) (peer : Nat) : Bool :=
  usable (s.port (portTo s.table.position peer false)) || usable (s.port (portTo s.table.position peer true))

/-! ## Packets (11, section 11.5) -/

/-- The trump class (11, Tables 11-4 and 11-6). -/
def isTrump (op : Byte) : Bool :=
  [5, 6, 8, 9, 0xB, 0xC, 0xD, 0xE].contains op.toNat
/-- Op codes of Table 11-6 other than PAD. -/
def knownOp (op : Byte) : Bool := decide (1 ≤ op.toNat) && decide (op.toNat ≤ 0xE)
/-- Responses, which a closing port still sends (11, R332). -/
def isResponse (op : Byte) : Bool := [2, 4, 6, 0xE].contains op.toNat

/-- The bytes of a packet: header, data, padding to a multiple of 16 (11, R325, Table 11-5). -/
def packetBytes (p : Packet) : List Byte :=
  [p.op, p.status] ++ leBytes 2 (if p.op = 3 then p.reqLen else p.data.length) ++ leBytes 2 p.tag.toNat ++ leBytes 2 p.tenant.toNat ++ leBytes 2 p.group.toNat
    ++ [BitVec.ofNat 8 p.srcPos, BitVec.ofNat 8 p.dstPos] ++ leBytes 4 p.incarnation.toNat ++ leBytes 8 p.arg.toNat
    ++ leBytes 8 p.ext.toNat ++ padTo (roundUp p.data.length 16) p.data

/-- The packet that starts at the head of a byte stream, with the bytes after it; none while it is not whole (11, R325). -/
def parsePacket (bs : List Byte) : Option (Packet × List Byte) :=
  let read := bs.getD 0 0 == 3
  let len := if read then 0 else field bs 2 2
  let n := 32 + roundUp len 16
  if bs.length < 32 || bs.length < n then none
  else
    some ({ op := bs.getD 0 0, status := bs.getD 1 0, tag := BitVec.ofNat 16 (field bs 4 2)
            tenant := BitVec.ofNat 16 (field bs 6 2), group := BitVec.ofNat 16 (field bs 8 2), srcPos := field bs 0xA 1
            dstPos := field bs 0xB 1, incarnation := BitVec.ofNat 32 (field bs 0xC 4), arg := BitVec.ofNat 64 (field bs 0x10 8)
            ext := BitVec.ofNat 64 (field bs 0x18 8), data := (bs.drop 32).take len
            reqLen := if read then field bs 2 2 else 0 }, bs.drop n)

/-- Key of a package pair: table and position (11, R328). -/
def pairKey (table : Half) (pos : Nat) : Nat := table.toNat * 256 + pos

/-- A trump packet takes the next pair_seq of its pair in ext[31:0]; the request's own, which a response carries, moves to
ext[63:32] (11, R328, R329; log 35). -/
def State.stampPair (s : State) (table : Half) (p : Packet) : Packet × State :=
  if !isTrump p.op then (p, s)
  else
    let k := pairKey table p.dstPos
    let n := (Tbl.get 0 s.fab.pairTx k + 1) % 2 ^ 32
    ({ p with ext := BitVec.ofNat 64 (p.ext.toNat / 2 ^ 32 * 2 ^ 32 + n) },
     { s with fab := { s.fab with pairTx := Tbl.set 0 s.fab.pairTx k n } })

/-- A unit hands a packet to the fabric for a position of this table; it waits for a port (12, R344, R345). `east` is the
edge die that Table 8-5 names for the sending CD. -/
def State.sendPacket (s : State) (p : Packet) (east : Bool := false) : State :=
  let (p, s) := s.stampPair s.table.id { p with srcPos := s.table.position }
  { s with fab := { s.fab with out := s.fab.out ++ [{ pkt := p, east := east }] } }

/-- The poison mask of a packet's data: bit i for data sector i (11, Table 11-5). -/
def poisonMask (bs : List PByte) : Nat :=
  ((List.range ((bs.length + 63) / 64)).filter fun i => anyPoison ((bs.drop (64 * i)).take 64)).foldl (fun m i => m + 2 ^ i) 0

/-- The package has a place at a table (15, R448). -/
def State.hasTable (s : State) : Bool := s.table.id ≠ 0xFFFF && decide (s.table.position < 18)

/-- This package is the dealer and takes part in the table. -/
def State.deals (s : State) : Bool := s.hasTable && s.dev == .live && s.table.roster.dealer == s.table.position

/-- The preferred edge die of a CD (08, Table 8-5). -/
def eastOf (cd : Nat) : Bool := decide (2 ≤ cd % 4)

/-- The response to a request: its tag and group return, its pair_seq in ext[63:32] (11, R329; log 35). -/
def responseTo (p : Packet) (op : Byte) (st : Status) (retry : Nat := 0) (data : List Byte := []) : Packet :=
  { op := op, status := statusCode st, tag := p.tag, tenant := p.tenant, group := p.group, dstPos := p.srcPos
    arg := BitVec.ofNat 64 retry, ext := BitVec.ofNat 64 (p.ext.toNat % 2 ^ 32 * 2 ^ 32 * b2n (isTrump p.op)), data := data }

/-- The response op of a request, or NOTICE for an op with none (11, Table 11-6, R329). -/
def responseOp (op : Byte) : Byte := if op.toNat = 1 || op.toNat = 3 || op.toNat = 5 then op + 1 else 0x0E

/-- FB0 as voted (15, Table 15-7). -/
def State.fb0 (s : State) : List Byte := Tbl.get [] s.boot.voted 0
/-- mac_base + n in wire order; the base is bytes 10 to 15 of FB0 (17, Table 17-13; log 36). -/
def State.macOf (s : State) (n : Nat) : List Byte :=
  (leBytes 6 ((leNat ((padTo 6 ((s.fb0.drop 10).take 6)).reverse) + n) % 2 ^ 48)).reverse

/-- A package's own serial number: FB0 bytes 0 to 7 (15, Table 15-7; the place in FB0 is log 36). -/
def State.serial (s : State) : Word := BitVec.ofNat 64 (field (Tbl.get [] s.boot.voted 0) 0 8)
/-- The slot that this package holds in its roster; 0xFF none. -/
def State.ownSlot (s : State) : Nat := (s.table.roster.entries.getD s.table.position {}).slot
/-- The position that the roster gives a slot. -/
def State.slotHolder (s : State) (slot : Nat) : Option Nat :=
  (List.range 18).find? fun p =>
    let e := s.table.roster.entries.getD p {}
    e.state == 2 && e.slot == slot

/-! ## Spine connections (11, R336, R337; 12, R358 to R360) -/

def State.conn (s : State) (id : Nat) : Option Conn := Tbl.get none s.fab.conns id
def State.setConn (s : State) (id : Nat) (c : Option Conn) : State :=
  { s with fab := { s.fab with conns := Tbl.set none s.fab.conns id c } }
def Conn.stream (c : Conn) (bulk : Bool) : SpineStream := if bulk then c.bulk else c.trump
def Conn.modStream (c : Conn) (bulk : Bool) (f : SpineStream → SpineStream) : Conn :=
  if bulk then { c with bulk := f c.bulk } else { c with trump := f c.trump }

/-- Reorder window of a class, in frames (11, Table 11-4). -/
def spineWindow (bulk : Bool) : Nat := if bulk then 64 else 16

/-- The next ACTIVE spine port after `last`, round robin (11, R337). -/
def State.nextSpine (s : State) (last : Nat) : Option Nat :=
  ((List.range 8).map fun i => 64 + (last + 1 + i) % 8).find? fun q => (s.port q).state == .active
/-- The spine port of the next frame after `last`: an ACTIVE one, and with none ACTIVE one that is CLOSING, which still answers (11, R332,
R337). -/
def State.spineOut (s : State) (last : Nat) : Option Nat :=
  (s.nextSpine last).or (spinePorts.find? fun q => (s.port q).state == .closing)

/-! ## Deficit round robin (12, R376) -/

/-- The group that a bulk packet counts under; firmware traffic and every other bulk packet is one group of weight 1. -/
def drrGroup (k : Packet) : Nat := if k.op = 7 || k.op = 0xA then k.tenant.toNat * 65536 + k.group.toNat else 0xFFFFFFFF
/-- The weight of a group's class (12, Table 12-6). -/
def State.drrWeight (s : State) (key : Nat) : Nat :=
  match s.groups.find? fun g => g.tenant.toNat * 65536 + g.id.toNat == key with
  | some g => if g.cls = 2 then 4 else 1
  | none => 1
def packetSize (k : Packet) : Nat := 32 + roundUp k.data.length 16

/-- The next bulk packet by deficit round robin: the group served last while its deficit lasts, then the next in turn, which
gains its quantum. -/
def State.drrPick (s : State) (cands : List OutPkt) (p : Port) : Nat → Option (OutPkt × Port)
  | 0 => none
  | n + 1 =>
    let keys := (cands.map fun o => drrGroup o.pkt).eraseDups
    let headOf := fun (k : Nat) => cands.find? fun o => drrGroup o.pkt == k
    let next := fun (k : Nat) =>
      let i := (keys.findIdx (· == k))
      if i < keys.length then keys.getD ((i + 1) % keys.length) 0 else keys.headD 0
    let gain := fun (k : Nat) (p : Port) =>
      { p with drrKey := some k
               drr := Tbl.modify 0 p.drr k (· + (max (s.obj 0x440080 16384) 4096) * s.drrWeight k) }
    if keys.isEmpty then none
    else match p.drrKey with
      | none => s.drrPick cands (gain (keys.headD 0) p) n
      | some k =>
        match headOf k with
        | none => s.drrPick cands (gain (next k) { p with drr := Tbl.set 0 p.drr k 0 }) n
        | some o =>
          if packetSize o.pkt ≤ Tbl.get 0 p.drr k then
            some (o, { p with drr := Tbl.modify 0 p.drr k (· - packetSize o.pkt) })
          else s.drrPick cands (gain (next k) p) n

/-! ## DATA frames (11, R336, R337, R340) -/

/-- The longest prefix of a list of packets that fits in `room` bytes; a DATA frame holds 4,128 (11, Table 11-9). -/
def framePackets (room : Nat) : List Packet → List Packet
  | [] => []
  | p :: t => let n := 32 + roundUp p.data.length 16; if room < n then [] else p :: framePackets (room - n) t

/-- Place of a (table, position)'s record in the directory (12, R358). -/
def State.dirRecord (s : State) (table : Half) (pos : Nat) : Option Nat :=
  (List.range (s.kdp.spineDir.length / 136)).find? fun i =>
    field s.kdp.spineDir (136 * i) 2 == table.toNat && field s.kdp.spineDir (136 * i + 2) 1 == pos
/-- The directory's address of a package's SP_q, 16 bytes; zeros without a record (12, R358). -/
def State.spineAddr (s : State) (table : Half) (pos q : Nat) : List Byte :=
  match s.dirRecord table pos with
  | some i => padTo 16 ((s.kdp.spineDir.drop (136 * i + 8 + 16 * q)).take 16)
  | none => zeros 16
/-- A spine port's own address, and its gateway's (11, Table 11-11). -/
def State.ownAddr (s : State) (port : Nat) : List Byte := padTo 16 (Tbl.get [] s.kdp.octets (portObj port 0x81))
def State.gateway (s : State) (port : Nat) : List Byte := padTo 16 (Tbl.get [] s.kdp.octets (portObj port 0x82))

/-- Headers of a frame of connection `id` from spine port `port` to an address (11, R333, R334; log 162). -/
def State.spineRoute (s : State) (port id : Nat) (dst : List Byte) (bulk data : Bool) : SpineRoute :=
  { nextHop := padTo 6 (Config.neighbor port (s.gateway port)), mac := s.macOf (1 + (port - 64)), src := s.ownAddr port, dst := dst
    flow := 8 * (id % 2048) + (port - 64), dstPort := s.obj 0x408080 7612
    dscp := if bulk then s.obj 0x408082 10 else s.obj 0x408081 46, ecn := if data then 2 else 0 }

/-- The set of this end's sending direction of a connection. -/
def Conn.txSet (c : Conn) : List Byte := if c.opener then c.sets.take 36 else c.sets.drop 36

/-- The spine header of a connection's frame. -/
def frameHead (fr : SpineFrame) (ack : Bool) : List Byte :=
  spineHeader (b2n ack) (b2n fr.bulk) fr.keyPhase fr.ecnEcho fr.conn fr.psn fr.cumAck fr.sack.toNat
/-- A connection's frame under a set: its packets sealed, and the tag; `ctr` is the 62-bit counter (11, R335). -/
def frameSeal (set : List Byte) (fr : SpineFrame) (ack : Bool) (ctr : Nat) : List Byte :=
  sealed set (2 ^ 63 * b2n ack + 2 ^ 62 * b2n fr.bulk + ctr % 2 ^ 62) 16 (frameHead fr ack) (fr.packets.flatMap packetBytes)
/-- The bytes of a connection's frame: DATA with its packets, or an ACK (11, Table 11-9, R335). -/
def State.spineBytes (s : State) (port id : Nat) (c : Conn) (fr : SpineFrame) (ack : Bool) (ctr : Nat) : List Byte :=
  spineFrame (s.spineRoute port id (s.spineAddr c.table c.position (port - 64)) fr.bulk !ack) (frameHead fr ack ++ frameSeal c.txSet fr ack ctr)

/-- The spine port that carried the last frame of a CD's engine on a connection; 8 stands for OHM-FAB and the ACKs (12, R360; log 163). -/
def Conn.turn (c : Conn) (cd : Nat) : Nat := Tbl.get 7 c.lastSp cd

/-- The next DATA frame of a stream: its CD, its port, its packets, and the port with its deficits. A frame holds packets of one CD, whose engine
deals its frames over the ports in turn (12, R360); those of a bulk frame are of one group, the port's next by deficit round robin (R376). With no port ACTIVE only responses leave (11, R332). -/
def State.nextFrame (s : State) (c : Conn) (bulk : Bool) : Option (Nat × Nat × List Packet × Port) :=
  let may := (c.stream bulk).queue.filter fun x => (s.nextSpine 7).isSome || isResponse x.2.op
  match may with
  | [] => none
  | (cd, _) :: _ =>
    (s.spineOut (c.turn cd)).bind fun q =>
      let mine := (may.filter (·.1 == cd)).map (·.2)
      if !bulk then some (cd, q, framePackets 4128 mine, s.port q)
      else (s.drrPick (mine.map fun p => { pkt := p, east := eastOf cd }) (s.port q) (2 * mine.length + 3)).map fun x =>
        let k := drrGroup x.1.pkt
        let ps := framePackets (min 4128 (packetSize x.1.pkt + Tbl.get 0 x.2.drr k)) (mine.filter (drrGroup · == k))
        (cd, q, ps, { x.2 with drr := Tbl.modify 0 x.2.drr k (· - (ps.tail.map packetSize).sum) })

/-- A DATA frame leaves on the connection's next spine port; without one it waits for its timer (11, R337; 12, R360). -/
def State.emitData (s : State) (id : Nat) (bulk : Bool) (x : SpineTx) : State :=
  match s.conn id with
  | none => s
  | some c =>
    match s.spineOut (c.turn x.cd) with
    | none => s
    | some q =>
      let fr : SpineFrame := { conn := c.peerId, bulk := bulk, keyPhase := c.gen % 2 == 1, psn := x.psn, packets := x.packets }
      ((s.setConn id (some { c with lastSp := Tbl.set 7 c.lastSp x.cd (q - 64), carried := c.carried + 1 })).bump (portObj q 3) 64).emit
        (.spine q { fr with bytes := s.spineBytes q id c fr false (2 ^ 32 * x.high + x.psn) })

/-- Send DATA frames of a stream while its window and an ACTIVE port allow (11, R336, R337, R340); `n` bounds the number. -/
def State.pumpStream (s : State) (id : Nat) (bulk : Bool) : Nat → State
  | 0 => s
  | n + 1 =>
    match s.conn id with
    | none => s
    | some c =>
      let st := c.stream bulk
      if c.phase ≠ 1 || c.switching || st.cwnd ≤ st.held.length then s
      else match s.nextFrame c bulk with
        | none => s
        | some (cd, q, ps, port) =>
          let x : SpineTx := { psn := st.psn, high := st.high, cd := cd, packets := ps }
          let s := (s.modPort q fun _ => port).setConn id (some (c.modStream bulk fun st =>
            { st with psn := (st.psn + 1) % 2 ^ 32, high := st.high + (st.psn + 1) / 2 ^ 32, held := st.held ++ [x]
                      queue := ps.foldl (fun l p => l.erase (cd, p)) st.queue }))
          (s.emitData id bulk x).pumpStream id bulk n

/-- Send what both streams of a connection can send. -/
def State.pumpConn (s : State) (id : Nat) : State := (s.pumpStream id false 64).pumpStream id true 64

/-- The payload of a CTRL frame, 64 bytes (12, Table 12-3). -/
def ctrlBytes (kind : Nat) (m : CtrlMsg) : List Byte :=
  padTo 64 ([BitVec.ofNat 8 kind, statusCode m.status] ++ leBytes 2 m.revision ++ leBytes 2 m.tableId.toNat
    ++ [BitVec.ofNat 8 m.position, BitVec.ofNat 8 m.slot] ++ leBytes 8 m.serial.toNat ++ leBytes 2 m.connection ++ [BitVec.ofNat 8 m.redirect])

/-- The spine header of a CTRL frame: psn and cum_ack hold the IV counter (19, R558). -/
def ctrlHead (m : CtrlMsg) : List Byte := spineHeader 2 0 false false m.toConn (m.ctr.toNat % 2 ^ 32) (m.ctr.toNat / 2 ^ 32) 0
/-- A CTRL frame's payload sealed under the CTRL set of a fabric secret, and its tag (11, R335; 19, R558). -/
def ctrlSeal (fs kind : Nat) (m : CtrlMsg) : List Byte := sealed (ctrlSet fs) m.ctr.toNat 16 (ctrlHead m) (ctrlBytes kind m)

/-- A CTRL frame leaves, with a fresh random IV counter, on the first ACTIVE spine port: to the directory's address of the connection's
peer, or back to the address that asked (12, R359; 19, R558; log 163). -/
def State.sendCtrl (s : State) (id kind : Nat) (m : CtrlMsg) : State :=
  let (v, s) := s.free
  let q := (s.nextSpine 7).getD 64
  let dst := match s.conn id with
    | some c => s.spineAddr c.table c.position (q - 64)
    | none => beBytes 16 m.srcAddr
  let m := { m with ctr := v, toConn := match s.conn id with | some c => c.peerId | none => 0 }
  s.emit (.ctrl id kind { m with bytes := spineFrame (s.spineRoute q id dst false false) (ctrlHead m ++ ctrlSeal (s.sec.fs.getD 0) kind m) })

/-- The fields of a CTRL payload that the sender fills in for itself (12, Table 12-3). -/
def State.ownCtrl (s : State) (slot id : Nat) (st : Status := .ok) : CtrlMsg :=
  { status := st, revision := s.fw.wire, tableId := s.table.id, position := s.table.position, slot := slot, serial := s.serial
    connection := id }

/-- The directory holds a record of (table, position) (12, R358). -/
def State.inDirectory (s : State) (table : Half) (pos : Nat) : Bool := (s.dirRecord table pos).isSome

/-- The connection that this package has opened, or is opening, towards a (table, slot). -/
def State.connTo (s : State) (table : Half) (slot : Nat) : Option Nat :=
  (s.fab.conns.find? fun e => e.2.any fun c => decide (c.phase < 2) && c.opener && c.table == table && c.slot == slot).map (·.1)

/-- The position at which the package's last information places a slot of another table: the one that a REDIRECT named, and at first the one
equal to the slot (12, R359). -/
def State.placeOf (s : State) (table : Half) (slot : Nat) : Nat := (Tbl.get none s.fab.placed (pairKey table slot)).getD slot

/-- What keeps a connection towards a (table, slot) from being opened: no fabric secret, no directory record (12, R358; 19, R555). -/
def State.openStatus (s : State) (table : Half) (slot : Nat) : Status :=
  if (s.connTo table slot).isSome then .ok
  else if s.sec.fs.isNone then .noAccess
  else if !s.inDirectory table (s.placeOf table slot) then .notFound
  else .ok

/-- OHM-FAB opens a connection towards a (table, slot) when it is first needed (11, R336; 12, R358, R359; 19, R555). -/
def State.openConn (s : State) (table : Half) (slot : Nat) : State × Status :=
  match s.connTo table slot with
  | some id => match s.conn id with
    | some c => (s.setConn id (some { c with release := false }), .ok)
    | none => (s, .ok)
  | none =>
  if s.openStatus table slot ≠ .ok then (s, s.openStatus table slot)
  else match (List.range 2048).find? fun i => (s.conn i).isNone with
    | none => (s, .overflow)
    | some id =>
      let c : Conn := { table := table, slot := slot, position := s.placeOf table slot, sends := 1, ctr := s.freeCtr, fs := s.sec.fsGen
                        genBegan := s.now, sets := leBytes 32 (s.sec.fs.getD 0) }
      (((s.setConn id (some c)).sendCtrl id 1 (s.ownCtrl slot id)), .ok)

/-- A packet to a package of another table waits in its connection's stream (11, R336); `cd` is the CD that sends it, 8 for OHM-FAB. -/
def State.sendSpine (s : State) (id : Nat) (p : Packet) (cd : Nat := 8) : State :=
  match s.conn id with
  | none => s
  | some c =>
    let (p, s) := s.stampPair c.table { p with srcPos := s.table.position, dstPos := c.position }
    (s.setConn id (some (c.modStream (!isTrump p.op) fun st => { st with queue := st.queue ++ [(cd, p)] }))).pumpConn id

/-- A packet to the package that holds a slot of a table: over a table port, or over the spine (12, R359). The package's own
slot is no peer. `cd` is the CD that sends it, 8 for OHM-FAB. -/
def State.sendTo (s : State) (table : Half) (slot : Nat) (p : Packet) (cd : Nat := 8) : State :=
  if table = s.table.id then
    match s.slotHolder slot with
    | some q => if q = s.table.position then s else s.sendPacket { p with dstPos := q } (eastOf cd)
    | none => s
  else
    let s := (s.openConn table slot).1
    match s.connTo table slot with
    | some id => s.sendSpine id p cd
    | none => s

/-! ## Origins of packets (11, R329; 14, R415, R416) -/

/-- Where a packet came from, as one number: a table port's number, or 128 and a spine connection's id, and 8,192 more where the frame came by a
port of ED_E; 65,536 more for a packet accepted before its domain began to close. -/
def spineOrigin (id : Nat) (east : Bool) : Nat := 128 + id + 8192 * b2n east
/-- The mark of a packet that its target has accepted before the domain's CLOSING. -/
def markTaken (o : Nat) : Nat := o % 65536 + 65536
def admitted (o : Nat) : Bool := decide (65536 ≤ o)
/-- The origin of an add that a package makes to a tally of its own by TADD.R. -/
def selfPort : Nat := 4096
/-- A table port, rather than a spine connection. -/
def fromTable (o : Nat) : Bool := decide (o % 65536 < 128)
/-- The connection of an origin. -/
def connOf (o : Nat) : Nat := (o % 65536 - 128) % 8192
/-- The port group whose domain a request passes: the table port, or a spine port of the edge die that the frame came by. -/
def originPort (o : Nat) : Nat := if fromTable o then o % 65536 else if o % 65536 < 8192 then 64 else 68

/-- The answer to a request of an origin; a NOTICE never answers a NOTICE, nor does anything answer a response (11, R329). The answer to a WRITE
or a READ_REQ comes from the CD whose memory the request names (12, R345). -/
def State.answerVia (s : State) (from' : Nat) (p : Packet) (st : Status) (retry : Nat := 0) (data : List Byte := [])
    (mask : Nat := 0) : State :=
  if isResponse p.op || (fromTable from' && p.srcPos == s.table.position) then s
  else
    let r := responseTo p (responseOp p.op) st retry data
    let r := if r.op = 4 then { r with ext := BitVec.ofNat 64 mask } else r
    let cd := if p.op = 1 || p.op = 3 then memCd s.memory.bandMode (p.arg.toNat % 2 ^ 48) else 8
    if fromTable from' then s.sendPacket r (eastOf cd) else s.sendSpine (connOf from') r cd

/-- The first delivered packet that `hit` finds leaves the waiting packets, with its origin; where none waits, the packet comes by itself over the
primary port of its position, as `stub` describes it. -/
def State.takeHit (s : State) (hit : Nat × Packet → Bool) (stub : Packet) : (Nat × Packet) × State :=
  match s.fab.rx.find? hit with
  | some x => (x, { s with fab := { s.fab with rx := s.fab.rx.erase x } })
  | none => ((s.primaryPort stub.srcPos, stub), s)

/-! ## The ante's connections (12, R362 to R365) -/

/-- The member list is rectangular: T tables, each with the same S slots, table-major (12, section 12.9). Answers S. -/
def rectangle (ms : List Member) : Option Nat :=
  match ms with
  | [] => none
  | m :: _ =>
    let n := (ms.takeWhile (·.table == m.table)).length
    let ok := ms.length % n == 0 && (List.range ms.length).all fun r =>
      match ms[r]?, ms[r % n]?, ms[r / n * n]? with
      | some a, some b, some h => a.slot == b.slot && a.table == h.table
      | _, _, _ => false
    let tables := (List.range (ms.length / n)).filterMap fun t => (ms[t * n]?).map (·.table)
    if ok && tables.eraseDups.length == tables.length then some n else none

/-- Slots of each table of a hierarchical group; none for a flat one (12, section 12.9). -/
def Group.slots (g : Group) : Option Nat :=
  match rectangle g.members with
  | some n => if g.flat || n == g.members.length then none else some n
  | none => none

/-- The packages of other tables that a group needs a connection to: its spine peers, or in a flat group every member there (12, R362, R364,
section 12.9). A record to any other member opens one when it is first needed (log 172). -/
def Group.spinePeers (g : Group) (own : Half) : List (Half × Nat) :=
  let ms := match g.slots with
    | some n => (List.range (g.members.length / n)).filterMap fun t => g.members[t * n + g.rank % n]?
    | none => g.members
  (ms.filter (·.table ≠ own)).map fun m => (m.table, m.slot)

/-- A released connection closes once nothing waits on it: no packet, no frame and no add whose status has not returned. -/
def State.closeReleased (s : State) (id : Nat) : State :=
  match s.conn id with
  | none => s
  | some c =>
    let idle := c.trump.queue.isEmpty && c.bulk.queue.isEmpty && c.trump.held.isEmpty && c.bulk.held.isEmpty
      && !s.sync.remotes.any fun r => r.table == c.table && r.slot == c.slot
    if c.release && c.phase = 1 && idle then
      (s.setConn id (some { c with phase := 2, sends := 1, trump := {}, bulk := {} })).sendCtrl id 4 (s.ownCtrl c.slot id)
    else s

/-- The ante of a group that is no more is released: a connection of it that no other group needs closes (12, R363 to R365; log 172). -/
def State.releaseAnte (s : State) (g : Group) : State :=
  let kept := s.groups.flatMap (·.spinePeers s.table.id)
  ((g.spinePeers s.table.id).filter fun x => !kept.contains x).foldl (fun s x =>
    match s.connTo x.1 x.2 with
    | none => s
    | some id => match s.conn id with
      | none => s
      | some c => (s.setConn id (some { c with release := true })).closeReleased id) s

/-- Rank of the member that a packet comes from: the slot of a position of this table, or of the peer of a spine connection, as this package's
last information places it (12, R359). -/
def State.rankOf (s : State) (g : Group) (o : Nat) (p : Packet) : Option Nat :=
  if fromTable o then g.members.findIdx? fun m => m.table == s.table.id && s.slotHolder m.slot == some p.srcPos
  else match s.conn (connOf o) with
    | none => none
    | some c => g.members.findIdx? fun m => m.table == c.table && (if c.opener then m.slot == c.slot else s.placeOf m.table m.slot == c.position)

/-! ## Collective records (12, R374) -/

/-- The data of a COLL_CTRL packet. The record's fields are the chapter's; their places are the model's (log 37). -/
def collBytes (kind : Nat) (r : CollRec) : List Byte :=
  [BitVec.ofNat 8 kind, statusCode r.status] ++ leBytes 2 r.seat ++ leBytes 4 r.rank ++ leBytes 4 r.sequence ++ leBytes 4 r.hash
    ++ leBytes 8 r.issueTime.toNat ++ leBytes 8 r.dstBase.toNat ++ leBytes 4 r.incarnation.toNat ++ leBytes 4 r.credits
    ++ leBytes 8 ((r.chunk.map (· + 1)).getD 0) ++ leBytes 48 r.digest

/-- Kinds of a COLL_CTRL record, in the order of R374. -/
def recCreate : Nat := 1
def recReady : Nat := 2
def recCredit : Nat := 3
def recDone : Nat := 4
def recAbort : Nat := 5
def recDigest : Nat := 6

/-- A record goes to one member of a group. -/
def State.sendRec (s : State) (g : Group) (to' : Nat) (kind : Nat) (r : CollRec) : State :=
  match g.members[to']? with
  | none => s
  | some m =>
    if to' = g.rank then s
    else
      let p : Packet := { op := 8, tenant := g.tenant, group := g.id, incarnation := r.incarnation, data := collBytes kind r }
      s.sendTo m.table m.slot p g.cd

/-- A record of this member, with its rank, seat and incarnation. -/
def State.ownRec (s : State) (g : Group) (seq : Nat) : CollRec :=
  { group := g.id, tenant := g.tenant, rank := g.rank, sequence := seq, seat := g.seat, incarnation := (s.seat g.seat).inc }

/-- A record goes to every other member. -/
def State.sendAll (s : State) (g : Group) (kind : Nat) (r : CollRec) : State :=
  (List.range g.members.length).foldl (fun s t => s.sendRec g t kind r) s

/-- ABORT with a status to every member, naming a sequence (12, R371, R372). -/
def State.sendAbort (s : State) (g : Group) (seq : Nat) (st : Status) : State :=
  s.sendAll g recAbort { s.ownRec g seq with status := st }

/-- The sequence that a destroyed group's ABORT names: the lowest in flight, or the next one (log 38). -/
def Group.nextSeq (g : Group) : Nat := match g.colls with | c :: _ => c.seq.toNat | [] => (g.seq + 1).toNat

/-- The groups of a seat are destroyed, their ante is released, and ABORT goes to their members (12, R365; 18, Table 18-4 step
2). -/
def State.destroyGroups (s : State) (n : Nat) (st : Status) : State :=
  let mine := s.groups.filter (·.seat == n)
  let named := mine.filterMap fun g => (g.members[g.rank]?.bind (·.inc)).map fun k => (g.tenant, g.id, n, k)
  let s := { s with
    groups := s.groups.filter (·.seat ≠ n)
    sync := { s.sync with gone := s.sync.gone.filter (fun x => !named.any fun y => y.1 == x.1 && y.2.1 == x.2.1) ++ named } }
  mine.foldl (fun s g => (s.sendAbort g g.nextSeq st).releaseAnte g) s

end Sys2Proof.Machine
end

