-- ==== Sys2Proof/Machine/SeatOps.lean ====
section
/-! DEFINITION. The seat engine's shared operations (02, 18): the seat-table entry, validation, state changes, loads,
evictions, halts and seat resets. -/

namespace Sys2Proof.Machine

/-! ## The entry (02, Table 2-12) -/

/-- Segment window `w` of an entry (02, Table 2-13). -/
def parseWindow (raw : List Byte) (w : Nat) : Window :=
  let lo := field raw (0x80 + 16 * w) 8
  let hi := field raw (0x88 + 16 * w) 8
  { low := bits lo 0 12, base := bits lo 12 44 * 0x1000, size := bits hi 0 44, r := bit hi 48, w := bit hi 49,
    x := bit hi 50, k := bit hi 51, c := bit hi 52 }

/-- The RW fields of a 512-byte entry (02, Table 2-12). -/
def parseEntry (raw : List Byte) : Entry :=
  { format := field raw 1 1, tenant := BitVec.ofNat 16 (field raw 2 2), owner := field raw 4 1, prio := field raw 5 1 % 8
    balance := bit (field raw 6 1) 0, resetWindow := field raw 0x0E 2, resetLimit := field raw 0x10 1
    keySlot := field raw 0x11 1, heartbeat := field raw 0x12 2, deckHandle := field raw 0x20 8
    contextArea := field raw 0x28 8, cdBase := field raw 0x30 2, cdCount := field raw 0x32 2, pkgBase := field raw 0x34 2
    pkgCount := field raw 0x36 2, lockBase := field raw 0x38 2, lockCount := field raw 0x3A 2, mbxQuota := field raw 0x3C 2
    groupQuota := field raw 0x3E 2, playQuota := field raw 0x40 8, buddy := field raw 0x50 1, epochPeriod := field raw 0x52 2
    dummyBase := field raw 0x58 8, dummyHalf := field raw 0x60 8, windows := (List.range 16).map (parseWindow raw) }

/-- Device address of the seat table (02, Table 2-10). -/
def State.tableAt (s : State) : Nat := s.host.tableBase.toNat * 0x10000
/-- Device address of entry `n`. -/
def State.entryAt (s : State) (n : Nat) : Nat := s.tableAt + 512 * n
/-- Number of entries. -/
def State.entries (s : State) : Nat := s.host.tableSize.toNat

/-- The bits of byte `i` of an entry that are not reserved (02, Tables 2-12 and 2-13). -/
def entryMask (i : Nat) : Nat :=
  if i < 0x80 then
    if i = 5 then 0x07
    else if i = 6 then 0x01
    else if (0x14 ≤ i && i < 0x18) || (0x48 ≤ i && i < 0x50) || i = 0x51 || (0x54 ≤ i && i < 0x58) || 0x70 ≤ i then 0
    else 0xFF
  else if i < 0x180 then
    match i % 16 with
    | 7 => 0 | 13 => 0x0F | 14 => 0x1F | 15 => 0
    | _ => 0xFF
  else 0

/-- An entry's bytes from byte `i` on, with the reserved ones 0 (00, R5). -/
def clearReserved (i : Nat) : List Byte → List Byte
  | [] => []
  | b :: t => (b &&& BitVec.ofNat 8 (entryMask i)) :: clearReserved (i + 1) t

/-- The entry bytes with the RO fields put in and what is reserved 0 (02, Table 2-12; 00, R5). -/
def patchEntry (i : SeatInfo) : List Byte :=
  let r := clearReserved 0 (padTo 512 i.raw)
  [BitVec.ofNat 8 (seatCode i.state)] ++ (r.drop 1).take 6 ++ [i.haltCause] ++ leBytes 4 i.inc.toNat
    ++ leBytes 2 i.resetCount.toNat ++ (r.drop 0x0E).take 10 ++ leBytes 8 i.windowStart.toNat ++ (r.drop 0x20).take 0x48
    ++ leBytes 8 i.lastEpoch.toNat ++ r.drop 0x70

/-- Write state and halt_cause of seat `n` into the table (02, R40). -/
def State.writeStateBytes (s : State) (n : Nat) : State :=
  let i := s.seat n
  (s.writeSlot 0 (s.entryAt n) (good [BitVec.ofNat 8 (seatCode i.state)])).writeSlot 0 (s.entryAt n + 7) (good [i.haltCause])

/-- The numbers that a context holds, in a fixed order; their layout in the context area is private (03, R58). -/
def ctxNumbers (c : Ctx) : List Nat :=
  (List.range 32).map (fun r => (Tbl.get 0 c.s r).toNat) ++ (List.range 16).map (fun r => (Tbl.get 0 c.g r).toNat)
    ++ (List.range 64).map (fun f => b2n (Tbl.get false c.f f))
    ++ (List.range 4).flatMap (fun l => let v := Tbl.get {} c.lc l; [b2n v.active, v.count.toNat, v.start.toNat, v.last.toNat, v.lastLen])
    ++ [c.pc.toNat, c.phase.toNat, c.vl.toNat, c.cyc.toNat]

/-- The 4,096 bytes of a context area: 3,712 bytes of private layout, then the conversion counters (03, R58; 04, R112). -/
def contextBytes (ctx : Tbl Ctx) (conv : Tbl Conv) : List Byte :=
  let nums := (List.range 8).flatMap fun c => ctxNumbers (Tbl.get {} ctx c)
  (List.range 3712).map (fun i => Config.contextByte nums i)
    ++ (List.range 32).flatMap (fun k => let v := Tbl.get {} conv k; leBytes 4 v.under ++ leBytes 4 v.sat ++ leBytes 4 v.nan)

/-- Heartbeat of a seat: its tally, 0 when it has none (02, Table 2-11). -/
def State.heartbeat (s : State) (n : Nat) : Nat :=
  let h := (s.seat n).entry.heartbeat
  if (s.seat n).state = .free || h = 0xFFFF then 0 else (Tbl.get 0 s.sync.pkgTally h).toNat

/-- A save or a load of seat `n`: the seat object shows its values from now on (17, Table 17-14). -/
def State.noteShown (s : State) (n : Nat) : State :=
  s.modSeat n fun i => { i with shown := {
    inc := i.inc, resetCount := i.resetCount, windowStart := i.windowStart, plays := i.plays, heartbeat := s.heartbeat n } }

/-- Write the whole entry of seat `n` back to the table (02, R40). -/
def State.writeEntry (s : State) (n : Nat) : State := s.writeSlot 0 (s.entryAt n) (good (patchEntry (s.seat n)))

/-- Write the whole entry and the context of seat `n` back to the table and its context area (02, R40, Table 2-17). -/
def State.writeBack (s : State) (n : Nat) : State :=
  let i := s.seat n
  ((s.noteShown n).writeEntry n).writeSlot 0 i.entry.contextArea (good (contextBytes i.ctx i.conv))

/-! ## Seats as a whole -/

/-- The seats that are not FREE, other than `n`. -/
def State.otherSeats (s : State) (n : Nat) : List (Nat × SeatInfo) :=
  s.seats.filter fun e => e.1 ≠ n && e.2.state ≠ .free
/-- The seats that are not FREE. -/
def State.liveSeats (s : State) : List (Nat × SeatInfo) := s.seats.filter fun e => e.2.state ≠ .free
/-- SEAT_CACHE_STATUS.occupied (02, Table 2-10). -/
def State.occupied (s : State) : Nat := (s.seats.filter fun e => e.2.cached).length
/-- SEAT_CACHE_STATUS.pinned (02, Table 2-10). -/
def State.pinnedCount (s : State) : Nat := (s.seats.filter fun e => e.2.pinned).length
/-- HIF_FUNC_INFO.seats_owned (02, Table 2-6). -/
def State.seatsOwned (s : State) (f : Nat) : Nat :=
  (s.seats.filter fun e => e.2.state ≠ .free && e.2.entry.owner == f).length

/-- The state that a seat shows to commands while a switch is in progress (02, R44). -/
def State.shown (s : State) (n : Nat) : SeatState :=
  let i := s.seat n
  if s.chosen = some n && i.cached && i.state = .seated then .playing else i.state

/-- Change a seat's state (and, when given, its halt cause): the table's bytes follow, and the event is appended
(02, R33, R40). -/
def State.setSeat (s : State) (n : Nat) (st : SeatState) (cause : Option Byte := none) : State :=
  let s := s.modSeat n fun i => { i with state := st, haltCause := cause.getD i.haltCause }
  (s.writeStateBytes n).appendEvent n

/-- Set a pending flag; the earliest keeps its place (02, R50). -/
def State.setPending (s : State) (n : Nat) : State :=
  if (s.seat n).pending.isSome then s
  else { (s.modSeat n fun i => { i with pending := some s.stamp }) with stamp := s.stamp + 1 }
def State.clearPending (s : State) (n : Nat) : State := s.modSeat n fun i => { i with pending := none }

/-- A seat is ready: pending set, SEATED or PARKED (02, section 2.6.1), and not waiting for its domains or release. -/
def ready (i : SeatInfo) : Bool :=
  i.pending.isSome && (i.state = .seated || i.state = .parked) && !i.folded && i.releasing.isNone

/-! ## Validation (02, R43; 19, R551) -/

def overlap (a la b lb : Nat) : Bool := decide (0 < la) && decide (0 < lb) && decide (a < b + lb) && decide (b < a + la)

/-- A window of size above 0 lies in one region of the address map, on a valid route, aligned (02, R43). -/
def windowOk (w : Window) : Bool :=
  w.size == 0 ||
  (w.low == 0 && w.size % 4096 == 0 &&
    (let rt := routeOf w.base
     if rt = 0 then inOneMem w.base w.size
     else (rt = 1 || (0x10 ≤ rt && rt ≤ 0x21)) && w.base % 2 ^ 48 + w.size ≤ 2 ^ 48))

/-- A local window covers part of a range. -/
def windowMeets (w : Window) (a len : Nat) : Bool := routeOf w.base == 0 && overlap w.base w.size a len

/-- The field and window checks of R43, as one bit. -/
def State.entryOk (s : State) (n : Nat) (e : Entry) : Bool :=
  e.format == 1 && e.tenant ≠ 0 && s.fnEnabled e.owner && decide (e.owner < 64)
  && decide (e.cdBase + e.cdCount ≤ 4096) && decide (e.pkgBase + e.pkgCount ≤ 16384) && decide (e.lockBase + e.lockCount ≤ 256)
  && (e.heartbeat == 0xFFFF || (decide (e.pkgBase ≤ e.heartbeat) && decide (e.heartbeat < e.pkgBase + e.pkgCount)))
  && e.keySlot ≠ 0 && inFar e.contextArea 4096 && e.contextArea % 4096 == 0
  && e.windows.all windowOk
  && e.windows.all (fun w => !windowMeets w s.tableAt (512 * s.entries) && !windowMeets w e.contextArea 4096
      && (s.otherSeats n).all fun o => !windowMeets w o.2.entry.contextArea 4096)
  && decide (e.deckHandle < 2 ^ 48) && (translate e e.deckHandle 512 .x).isSome
  && (match (s.seat n).deck with
      | none => true
      | some d => (s.seat n).state == .free || (translate e e.deckHandle d.size .x).isSome)

/-- The overlap with seats of other tenants (02, R43). -/
def State.entryClash (s : State) (n : Nat) (e : Entry) : Bool :=
  (s.otherSeats n).any fun o =>
    o.2.entry.tenant ≠ e.tenant &&
    (overlap e.cdBase e.cdCount o.2.entry.cdBase o.2.entry.cdCount
      || overlap e.pkgBase e.pkgCount o.2.entry.pkgBase o.2.entry.pkgCount
      || overlap e.lockBase e.lockCount o.2.entry.lockBase o.2.entry.lockCount
      || overlap e.contextArea 4096 o.2.entry.contextArea 4096)

/-- A local range meets a band of the dummy pool (18, R530). -/
def meetsPool (pool : BitVec 48) (a len : Nat) : Bool :=
  (List.range 48).any fun b => pool.getLsbD b && overlap a len (b * 0x200000000) 0x200000000

/-- The key-slot and dummy-pool checks (19, R551). -/
def State.bindOk (s : State) (e : Entry) : Bool :=
  (match Tbl.get none s.keyBind e.keySlot with
   | none => true
   | some t => t == e.tenant)
  && e.windows.all fun w => w.k || routeOf w.base ≠ 0 || !meetsPool s.rel.pool w.base w.size

/-- Validation of an entry at a load (02, R43; 19, R551). -/
def State.validate (s : State) (n : Nat) (e : Entry) : Status :=
  if !s.entryOk n e then .badArg
  else if s.entryClash n e then .conflict
  else if !s.bindOk e then .tenantBlocked
  else .ok

/-- Mode of a slice (05, Table 5-3): 0 full, 1 and 2 narrow, 3 disabled. -/
def State.sliceMode (s : State) (c : Nat) : Nat := Tbl.get 0 s.unitMap c % 4
/-- Every slice in full mode. -/
def State.allFull (s : State) : Bool := (List.range 8).all fun c => s.sliceMode c == 0
/-- A seat whose deck asks for a full unit map cannot be loaded on another (05, R139). -/
def State.mapOk (s : State) (n : Nat) : Bool :=
  match (s.seat n).deck with
  | some d => d.unitMapReq ≠ 1 || s.allFull
  | none => true

/-! ## Key slots (19, R551, R552) -/

/-- Some seat that is not FREE, other than `n`, names slot `k`. -/
def State.slotNamed (s : State) (n k : Nat) : Bool := (s.otherSeats n).any fun o => o.2.entry.keySlot == k

/-- A new key in slot `k`, which becomes unbound. -/
def State.renewSlot (s : State) (k : Nat) : State :=
  { s with keyGen := Tbl.modify 0 s.keyGen k (· + 1), keyBind := Tbl.set none s.keyBind k none }

/-- The seat's naming moves to the entry it now carries (19, R551): the new slot binds, the old one becomes unbound when
no seat names it. `old` is the entry it carried before. -/
def State.moveNaming (s : State) (n : Nat) (old e : Entry) : State :=
  let s := { s with keyBind := Tbl.set none s.keyBind e.keySlot (some e.tenant) }
  if old.keySlot ≠ 0 && old.keySlot ≠ e.keySlot && !s.slotNamed n old.keySlot then s.renewSlot old.keySlot else s

/-! ## Slot schedules (03, section 3.6) -/

/-- The owner maps of one CD in a phase record (03, Table 3-5a): first slot's nibble offset, slots, and which rule the map
follows: 0 plain, 1 absent on CD_1, 2, 5, 6, 2 near-tier channel, 3 far-tier channel. -/
def ownerMaps : List (Nat × Nat × Nat × Nat) :=
  (List.range 16).map (fun i => (i * 1024, 1024, 0, 0))
    ++ (List.range 3).map (fun i => (16384 + i * 512, 512, 0, 0))
    ++ [(17920, 512, 1, 0)]
    ++ (List.range 4).map (fun i => (18432 + i * 256, 256, 0, 0))
    ++ (List.range 32).map (fun i => (19456 + i * 256, 256, 2, i))
    ++ (List.range 32).map (fun i => (27648 + i * 128, 128, 3, i))
    ++ (List.range 16).map (fun i => (31744 + i * 512, 512, 0, 0))

/-- Owner code of slot `k` in a phase record's bytes of one CD: two to a byte, low nibble first (03, R77). -/
def ownerCode (b : List Byte) (k : Nat) : Nat := (b.getD (k / 2) 0).toNat / (if k % 2 = 0 then 1 else 16) % 16

/-- A slot that a deck must leave 0: reserved (01, R17), a refresh position (08, Table 8-4), or a map of an instance that
the CD does not have (03, R587). -/
def mustBeIdle (cd rule ch k : Nat) : Bool :=
  k % 64 == 63
  || (rule == 1 && (cd % 4 == 1 || cd % 4 == 2))
  || (rule == 2 && (k == 2 + 4 * ch || k == 130 + 4 * ch))
  || (rule == 3 && (k == ch || k == 64 + ch))

/-! ## Tallies, flags, locks at seat start and reset (09, R281) -/

/-- Zero the seat's tallies that no other seat covers (09, R281), in DOZE those that the keeper's retention SRAM holds too (14, Table
14-11). -/
def State.zeroTallies (s : State) (n : Nat) : State :=
  let e := (s.seat n).entry
  let os := (s.otherSeats n).map (·.2.entry)
  let cdHit := fun (k : Nat) => e.cdBase ≤ k && k < e.cdBase + e.cdCount
    && !os.any fun o => o.cdBase ≤ k && k < o.cdBase + o.cdCount
  let pkgHit := fun (k : Nat) => e.pkgBase ≤ k && k < e.pkgBase + e.pkgCount
    && !os.any fun o => o.pkgBase ≤ k && k < o.pkgBase + o.pkgCount
  { s with
    sync := { s.sync with
      cdTally := s.sync.cdTally.filter fun t => !cdHit (t.1 % 4096)
      pkgTally := s.sync.pkgTally.filter fun t => !pkgHit t.1 }
    power := { s.power with tallies := s.power.tallies.map fun l => l.filter fun t => !cdHit (t.1 % 4096) } }

/-- Locks that seat `n` holds. -/
def State.heldLocks (s : State) (n : Nat) : List Nat :=
  (s.sync.locks.filter fun l => l.2.state == 1 && l.2.owner.any (·.1 == n)).map (·.1)

/-- The seat's locks go BROKEN and its requests leave every waiter queue (09, R278). -/
def State.breakLocks (s : State) (n : Nat) : State :=
  let k := (s.heldLocks n).length
  let locks := Tbl.mapAll {} (fun _ l =>
    let l := { l with waiters := l.waiters.filter (·.1 ≠ n) }
    if l.state == 1 && l.owner.any (·.1 == n) then { l with state := 2, owner := none } else l) s.sync.locks
  let s := { s with sync := { s.sync with locks := locks, unlocks := s.sync.unlocks.filter (·.seat ≠ n) } }
  if k = 0 then s else s.bump 0x610004 32 k

/-- R281: the seat's tallies and flags zeroed, its locks broken. The flags lie in its contexts, of which a warm reset keeps the
rest (15, R443; log 161). -/
def State.clearObjects (s : State) (n : Nat) : State :=
  ((s.zeroTallies n).breakLocks n).modSeat n fun i => { i with ctx := Tbl.mapAll {} (fun _ c => { c with f := [] }) i.ctx }

/-- The seat-start sequencer state of Table 3-1 on every CD, with pc at the stream's entry, and zero conversion
counters (03, R58; 04, R112). -/
def startCtx (d : Option Deck) : Tbl Ctx :=
  match d with
  | none => []
  | some d => (List.range 8).foldl (fun t c =>
      Tbl.set {} t c { pc := BitVec.ofNat 32 ((d.streams.getD c {}).entry) }) []

/-! ## Adds by the package itself -/

/-- Put an add into a tally unit's inbox (09, R259): unit 0–7 a CD's, 8 ED_W's. -/
def State.queueAdd (s : State) (unit : Nat) (a : Add) : State :=
  { s with sync := { s.sync with inbox := Tbl.modify [] s.sync.inbox unit (· ++ [a]) } }

/-- Absolute index of a seat's epoch tally: the last of its package range (18, R529). -/
def epochTally (e : Entry) : Option Nat := if e.pkgCount = 0 then none else some (e.pkgBase + e.pkgCount - 1)

/-- The package adds 1 to the epoch tally of a seat (18, R529). -/
def State.tallyEpoch (s : State) (n : Nat) : State :=
  match epochTally (s.seat n).entry with
  | none => s
  | some t => s.queueAdd 8 { tally := t, amount := 1, src := .host, seat := none }

/-- EPOCH_ABANDON: an epoch in copy ends; the tally gets its 1 when it had not; report 0x0701 (18, R535). -/
def State.abandonEpoch (s : State) (n : Nat) (st : Status) : State :=
  match s.rel.epochs.find? (·.seat == n) with
  | none => s
  | some e =>
    let s := { s with rel := { s.rel with
      epochs := s.rel.epochs.filter (·.seat ≠ n)
      halves := Tbl.set none s.rel.halves (2 * n + e.half) none } }
    let s := if e.tallied then s else s.tallyEpoch n
    s.report 1 0x0701 10 (some n) [e.epoch.toNat, e.half] (some st)

/-! ## Loads and evictions (02, R54, R55) -/

/-- A load of a PARKED seat starts (02, R54). -/
def State.startLoad (s : State) (n : Nat) (op : SeatOp) : State :=
  if (s.seat n).loading.isSome || (s.seat n).cached then s
  else s.modSeat n fun i => { i with loading := some (s.now, op) }

/-- The victim of an eviction (02, R55): the SEATED, unpinned, not-ready seat that left PLAYING longest ago; a HALTED one
only when evict_halted is 1 and no SEATED candidate exists. Among seats that have never left PLAYING the lowest index goes
(DESIGN CHOICE: R55 does not order them, log 141). -/
def State.victim (s : State) : Option Nat :=
  let pick := fun (l : List (Nat × SeatInfo)) =>
    l.foldl (fun b e => match b with
      | none => some (e.1, e.2.leftOrder)
      | some (k, o) => if e.2.leftOrder < o then some (e.1, e.2.leftOrder) else some (k, o)) none
  let c := s.seats.filter fun e => e.2.cached && !e.2.pinned && e.2.state = .seated && !ready e.2
    && s.chosen ≠ some e.1 && e.2.releasing.isNone
  match pick c with
  | some (k, _) => some k
  | none =>
    if s.host.evictHalted then
      (pick (s.seats.filter fun e => e.2.cached && !e.2.pinned && e.2.state = .halted && e.2.releasing.isNone)).map (·.1)
    else none

/-- A cached seat goes back to the table as PARKED; its halt cause is kept (02, R40, R47, R55, R56). -/
def State.unseat (s : State) (n : Nat) : State :=
  let s := s.modSeat n fun i =>
    { i with state := .parked, cached := false, pinned := false, slabIntact := false, fromPlaying := false }
  (s.writeBack n).appendEvent n

/-- SEAT_EVICT (02, R55). -/
def State.evict (s : State) (n : Nat) : State :=
  let s := s.unseat n
  { s with host := { s.host with evictions := s.host.evictions + 1 } }

/-- The entry bytes of seat `n` as they stand in the table. -/
def State.tableRaw (s : State) (n : Nat) : List PByte := s.readSlot 0 (s.entryAt n) 512

/-- What reading an entry from the table answers before any validation: ST_BAD_ARG where the table's address is not mapped
(08, R244), ST_POISON where its bytes are poisoned. -/
def State.entryRead (s : State) (n : Nat) (raw : List PByte) : Option Status :=
  if !inOneMem (s.entryAt n) 512 then some .badArg else if anyPoison raw then some .poison else none

/-- The entry bytes that the package works on: the cached ones, or for a seat without a cache entry those that stand in the table, which
PF 0 may have rewritten (02, R40). -/
def State.refreshRaw (s : State) (n : Nat) : State :=
  let raw := s.tableRaw n
  if (s.seat n).cached || (s.entryRead n raw).isSome then s else s.modSeat n fun i => { i with raw := plain raw }

/-- The choice of a seat that is no longer ready is given up (02, R50). -/
def State.unchoose (s : State) (n : Nat) : State :=
  if s.chosen = some n && !ready (s.seat n) then { s with chosen := none } else s

/-- The seat takes a validated entry into the cache (02, R54; 19, R551). -/
def State.fillCache (s : State) (n : Nat) (raw : List Byte) : State :=
  let old := (s.seat n).entry
  let e := parseEntry raw
  let s := s.modSeat n fun i => { i with entry := e, raw := raw, cached := true, loading := none }
  (s.noteShown n).moveNaming n old e

/-- An MBX request to another package leaves, and is kept until its reply arrives (16, R465, R474). -/
def State.sendMbx (s : State) (pos type seat : Nat) (payload : List Byte) (keep : Bool := true) : State :=
  let q := s.mgmt.mbxSeq
  let s := { s with mgmt := { s.mgmt with
    mbxSeq := q + 1, asked := if keep then s.mgmt.asked ++ [(q, pos, type)] else s.mgmt.asked } }
  s.sendPacket { op := 0x0B, dstPos := pos, incarnation := s.fw.pkgInc
                 data := msgBytes type q .ok 0 s.fw.pkgInc (BitVec.ofNat 32 (Tbl.get 0 s.mgmt.peers pos)) seat 0 s.now payload }

/-- A seat has a dummy (18, R527); `any` allows an epoch_period of 0 (18, Table 18-14). -/
def State.hasDummy (s : State) (n : Nat) (any : Bool := false) : Bool :=
  let e := (s.seat n).entry
  (any || e.epochPeriod ≠ 0) && decide (e.buddy ≤ 17) && e.buddy ≠ s.table.position && e.dummyBase % 65536 == 0
    && e.dummyHalf % 65536 == 0

/-- RELEASE of a seat that has a dummy sends DUMMY_CLOSE to its buddy; no reply is awaited (18, R527, R531). -/
def State.closeDummy (s : State) (n : Nat) : State :=
  if s.hasDummy n then
    let e := (s.seat n).entry
    s.sendMbx e.buddy 0x0101 n (leBytes 2 n ++ leBytes 8 e.dummyBase) false
  else s

/-! ## Voltages (14, Table 14-6) -/

/-- VDD_CD of a divider before trim, mV (14, Table 14-6). -/
def dividerMv (d : Nat) : Nat := if d ≤ 4 then 800 else if d = 5 then 750 else if d = 6 then 720 else 650
/-- Fused trim of an AVS rail in mV: FB1 byte `rail`, signed (14, R420, Table 14-5; its place is log 36). -/
def State.trim (s : State) (rail : Nat) : Int :=
  let v := field (Tbl.get [] s.boot.voted 1) rail 1
  if 128 ≤ v then (v : Int) - 256 else v
/-- Target of AVS rail `rail` at a divider, trim included: CDs by Table 14-6, VDD_SLAB and VDD_ED 0.75 V (14, Table 14-5). -/
def State.railTarget (s : State) (rail d : Nat) : Nat := ((if rail < 8 then (dividerMv d : Int) else 750) + s.trim rail).toNat
def Power.rail (p : Power) (r : Nat) : Rail := Tbl.get ({} : Rail) p.rails r
/-- An AVS rail starts a step to a target (14, R420). -/
def State.stepRail (s : State) (r mv : Nat) : State :=
  { s with power := { s.power with rails := Tbl.modify ({} : Rail) s.power.rails r fun x => { x with prev := x.target, target := mv, step := true } } }

/-- The package is in DOZE or on its way in. -/
def State.dozes (s : State) : Bool := s.dev == .doze || s.power.dozing == 1

/-- A wake event in DOZE (14, R431, Table 14-12): during the entry it waits for the entry's end; otherwise the exit starts, the
rails of the CDs go to the voltage of divider 8 and the domains go OPENING. -/
def State.wake (s : State) (_ev : Nat) : State :=
  if s.power.dozing = 1 then { s with power := { s.power with wakeDue := true } }
  else if s.dev = .doze && s.power.dozing = 0 then
    let s := (List.range 8).foldl (fun s c => s.stepRail c (s.railTarget c 8)) s
    { s with power := { s.power with
        dozing := 2
        domains := (List.range 13).foldl (fun t d => Tbl.modify 0 t d fun v => if v = 2 then 3 else v) s.power.domains } }
  else s

/-- A device recovery falls due for a reason (18, R522). -/
def State.recoveryDue (s : State) (reason : Nat) : State :=
  if s.maint.due.contains reason then s else { s with maint := { s.maint with due := s.maint.due ++ [reason] } }

/-- A TADD.R of seat `n` whose status has not returned (18, Table 18-4 step 4). -/
def State.taddPending (s : State) (n : Nat) : Bool := s.sync.remotes.any fun r => r.seat == n && r.sent && !r.dead

/-! ## Halts and seat resets (02, R46 to R48; 18, R516) -/

/-- The CDs. -/
def cds : List Nat := List.range 8

/-- LOCK requests of seat `n` in waiter queues leave them, and ST_BUSY becomes their status (09, R277). -/
def State.dropWaiters (s : State) (n : Nat) : State :=
  let waits := fun (c : Nat) => s.sync.locks.any fun l => l.2.waiters.any fun w => w.1 == n && w.2.2 == c
  let hit := cds.filter waits
  let s := { s with sync := { s.sync with
    locks := Tbl.mapAll {} (fun _ l => { l with waiters := l.waiters.filter (·.1 ≠ n) }) s.sync.locks } }
  hit.foldl (fun s c => s.modSeq c fun q => { q with
    pend := q.pend.map fun p => if p.src = .lock then { p with value := some 1 } else p }) s

/-- Issue of the PLAYING seat stops, with a cause; early gang issues are withdrawn (02, R46; 03, R68). A seat that is
already halting keeps its first cause. -/
def State.haltPlay (s : State) (cause : Byte) : State :=
  match s.play with
  | none => s
  | some p =>
    match p.phase with
    | .halting _ => s
    | _ =>
      let s := { s with play := some { p with phase := .halting cause } }
      let s := cds.foldl (fun s c => s.modSeq c fun q => { q with gang := none, stall := none }) s
      s.dropWaiters p.seat

/-- Tag of a burst in packets and host reads. -/
def burstTag (id : Nat) : Half := BitVec.ofNat 16 (0x8000 + id % 0x4000)

/-- The masters that act for seat `n` are reset: its uncommitted bursts and its operations are discarded (08, R252; 18,
Table 18-4 steps 1 and 3). -/
def State.discardMasters (s : State) (n : Nat) : State :=
  let gone := (s.ops.filter fun o => o.seat == n).map (·.id)
  let tags := (s.memory.bursts.filter fun b => gone.contains b.op).map fun b => burstTag b.id
  let s := { s with
    fab := { s.fab with out := s.fab.out.filter fun o => !(o.pkt.op == 1 && tags.contains o.pkt.tag) }
    ops := s.ops.filter fun o => o.seat ≠ n
    sync := { s.sync with remotes := s.sync.remotes.filter fun r => r.seat ≠ n || r.sent }
    memory := { s.memory with bursts := s.memory.bursts.filter fun b => !gone.contains b.op } }
  if s.play.any (·.seat == n) then { s with arr := s.arr.idle } else s

/-- The play of seat `n` ends at once, without saving contexts (18, Table 18-4). -/
def State.stopPlay (s : State) (n : Nat) : State :=
  if s.play.any (·.seat == n) then { s with play := none, seqs := [], phaseNext := none, arr := s.arr.unbind } else s

/-- Every seat reset clears the written bits of all eight slabs (08, R223; 18, Table 18-4 step 3; log 15). -/
def State.resetSlab (s : State) : State := { s with memory := s.memory.clearWritten }

/-- The seat's contexts and conversion counters are saved from the live sequencers (02, R53; 03, R58). A phase that waits
for its period boundary is saved as active (03, R78). -/
def State.saveContexts (s : State) (n : Nat) : State :=
  let s := match s.phaseNext with
    | none => s
    | some (k, _) => cds.foldl (fun s c => s.modSeq c fun q => { q with ctx := { q.ctx with phase := BitVec.ofNat 6 k } }) s
  let ctx := cds.foldl (fun t c => Tbl.set {} t c (s.seq c).ctx) ([] : Tbl Ctx)
  let conv := cds.foldl (fun t c => (List.range 4).foldl (fun t k =>
    Tbl.set {} t (4 * c + k) (Tbl.get {} (s.seq c).conv k)) t) ([] : Tbl Conv)
  (s.modSeat n fun i => { i with ctx := ctx, conv := conv }).noteShown n

/-- The live sequencers take the seat's saved contexts (02, R53). -/
def State.restoreContexts (s : State) (n : Nat) : State :=
  let i := s.seat n
  { s with seqs := cds.foldl (fun t c => Tbl.set {} t c
      { ctx := Tbl.get {} i.ctx c
        conv := (List.range 4).foldl (fun t k => Tbl.set {} t k (Tbl.get {} i.conv (4 * c + k))) [] }) [] }

/-- The seat leaves PLAYING: SEAT_PLAYING is cleared, and the order of leaving is noted (02, R55). -/
def State.leavePlay (s : State) (n : Nat) : State :=
  let s := s.modSeat n fun i => { i with leftOrder := s.stamp }
  { s with stamp := s.stamp + 1, play := none, seqs := [], phaseNext := none }

/-- A seat reset begins (18, Table 18-4, steps 1 to 3): masters reset, locks broken, groups destroyed, units emptied, an
epoch in copy abandoned, state RESETTING. `src` is 1 for a command, 2 for an FLR, 3 for a host-port reset. -/
def State.beginReset (s : State) (n : Nat) (src : Nat) : State :=
  let i := s.seat n
  let s := (s.discardMasters n).stopPlay n
  let s := (s.resetSlab.breakLocks n).destroyGroups n .peerReset
  let s := s.abandonEpoch n .receiverReset
  let s := if s.chosen = some n then { s with chosen := none } else s
  let s := s.modSeat n fun j =>
    { j with pending := none, slabIntact := false, fromPlaying := false, resetting := some (s.now, src)
             resetParked := i.state = .parked, deferred := [], releasing := none }
  s.setSeat n .resetting

end Sys2Proof.Machine
end

