-- ==== Sys2Proof/Machine/Pkg.lean ====
section
/-! DEFINITION. What the package does as a whole: parking every seat (15, R443), folding (18, R525, R526), and the answers to
requests that meet a closed or gated domain (11, R329; 14, R414, R416). -/

namespace Sys2Proof.Machine

/-! ## Parking and folding -/

/-- One seat is parked by a reset: incarnation + 1, pending cleared, halt_cause and reset_count kept; the whole entry goes back to the
table, its context area stays; one PARKED event (15, R443; 02, R40). -/
def State.parkSeat (s : State) (n : Nat) : State :=
  let s := (s.refreshRaw n).modSeat n fun i => { i with
    pending := none, inc := i.inc + 1, cached := false, pinned := false, slabIntact := false, fromPlaying := false
    loading := none, deferred := [], releasing := none, resetting := none, parkAfter := false }
  (s.setSeat n .parked).writeEntry n

/-- Every seat that is not FREE is parked; the cache, the sequencers and the units are cleared (15, R443, Table 15-6). -/
def State.parkAll (s : State) : State :=
  let s := { s with
    play := none, chosen := none, phaseNext := none, seqs := [], ops := []
    memory := { s.memory with bursts := [], written := [] }
    arr := s.arr.idle.unbind
    sync := { s.sync with remotes := [], unlocks := [] }
    host := { s.host with cmdBusy := none, heldCmds := [] }, deckBuf := none }
  (s.liveSeats.map (·.1)).foldl (fun s n => s.parkSeat n) s

/-- Every epoch in copy is abandoned (18, R535). -/
def State.abandonAll (s : State) (st : Status) : State :=
  (s.rel.epochs.map (·.seat)).foldl (fun s n => s.abandonEpoch n st) s

/-- Every group of the package is destroyed, and its members are told (12, R365). -/
def State.destroyAll (s : State) : State := ((s.groups.map (·.seat)).eraseDups).foldl (fun s n => s.destroyGroups n .peerReset) s

/-- PACKAGE_FOLD: every seat stops and is parked; reason, report 0x0802, state FOLDED (18, R525, R526). -/
def State.foldPackage (s : State) (reason : Nat) : State :=
  if s.dev = .folded then s
  else
    let s := ((s.abandonAll .folded).destroyAll).parkAll
    let s := (s.setObj 0x601003 reason).report 5 0x0802 9 none [reason]
    s.setDev .folded

/-! ## Domains (14, Table 14-4, R415) -/

/-- The power domain of a fabric port: PD_TPW 9, PD_TPE 10, PD_SPW 11, PD_SPE 12. -/
def portDomain (n : Nat) : Nat := if n < 17 then 9 else if n < 34 then 10 else if n < 68 then 11 else 12
/-- The clock domain of a fabric port: TPW 40 to SPE 43. -/
def portClock (n : Nat) : Nat := portDomain n + 31
/-- State of a power domain: 0 OPEN, 1 CLOSING, 2 OFF, 3 OPENING. -/
def State.domain (s : State) (d : Nat) : Nat := Tbl.get 0 s.power.domains d
def State.setDomain (s : State) (d v : Nat) : State :=
  { s with power := { s.power with domains := Tbl.set 0 s.power.domains d v } }

/-- The power domain that holds a device address, and that of the package tallies and ED_W: none, never closed (14, R415). -/
def domainOf (mode : BitVec 48) (dev : Nat) : Option Nat :=
  match target dev with
  | .near n | .slab n => some n
  | .far _ => some (stackOf mode dev).1
  | _ => none

/-- The clock domain is gated. -/
def State.isGated (s : State) (k : Nat) : Bool := s.clk.gated.getLsbD k

/-- What a packet acts on behind its port: power domains and clock domains (14, R414, R415, Table 14-4). -/
structure Reach where
  power : List Nat := []
  clock : List Nat := []
deriving DecidableEq, Repr

/-- The memory of a request: its controller's power domain. -/
def State.memReach (s : State) (p : Packet) : Reach := { power := (domainOf s.memory.bandMode (p.arg.toNat % 2 ^ 48)).toList }
/-- The collective engines, and the deal units, of the CDs. -/
def collReach : Reach := { power := cds, clock := cds.map (· + 32) }
def dealReach : Reach := { power := cds, clock := cds.map (· + 24) }
/-- What a packet acts on, by its op (11, Table 11-6). -/
def State.reachOf (s : State) (p : Packet) : Reach :=
  if p.op = 1 || p.op = 3 then s.memReach p
  else if p.op = 7 || p.op = 8 then collReach
  else if p.op = 9 || p.op = 0xA then dealReach
  else {}

/-- The port that a packet came by is CLOSING: the table port, or with none ACTIVE the spine ports of the edge die (11, R332). -/
def State.portShuts (s : State) (o : Nat) : Bool :=
  if fromTable o then (s.port (o % 65536)).state == .closing
  else
    let side := spinePorts.filter fun q => portDomain q == portDomain (originPort o)
    side.all (fun q => (s.port q).state ≠ .active) && side.any fun q => (s.port q).state == .closing

/-- Reopening of a domain is scheduled: it is OPENING, or an open request waits for OFF (14, R416, R418). -/
def State.reopens (s : State) (d : Nat) : Bool := s.domain d == 3 || s.power.later.contains (d, true)

/-- What a request of an origin meets before its own checks: a status and retry-after, or nothing; a request accepted before the CLOSING passes it
(11, R329, R332; 14, R414, R416). The time until a scheduled reopening is a free value (log 176). -/
def State.domainCheck (s : State) (o : Nat) (r : Reach) : Option (Status × Nat) :=
  let shut := (portDomain (originPort o) :: r.power).filter fun d => s.domain d ≠ 0
  if !admitted o && (!shut.isEmpty || s.portShuts o) then
    some (.domainClosed, if shut.any s.reopens then (Config.freeValue s.freeCtr).toNat % 2 ^ 32 else 1000000)
  else if (portClock (originPort o) :: r.clock).any s.isGated then some (.gated, 2)
  else none

/-- GATED_ACCESS: a refusal with ST_GATED is counted in gated_refusals, and the package starts ungating the gated domains (14, R414); one with
ST_DOMAIN_CLOSED is counted in closed_refusals (14, Table 14-13). -/
def State.noteGated (s : State) (o : Nat) (r : Reach) (st : Status) : State :=
  if st = .gated then
    let m : BitVec 44 := ((portClock (originPort o) :: r.clock).filter s.isGated).foldl (fun m k => m ||| (1 <<< k)) 0
    { s.bump 0x200303 64 with clk := { s.clk with ungating := s.clk.ungating ||| m } }
  else if st = .domainClosed then { s.bump 0x200304 64 with freeCtr := s.freeCtr + 1 }
  else s

/-- What the domains answer to a request, where they refuse it; a response passes (11, R329). -/
def State.refused (s : State) (o : Nat) (p : Packet) (r : Reach) : Option State :=
  if isResponse p.op then none
  else (s.domainCheck o r).map fun e => (s.noteGated o r e.1).answerVia o p e.1 e.2

/-- A message is taken from the delivered packets; none where the domains refuse it, with the state after the answer. -/
def State.takeOpen (s : State) (hit : Nat × Packet → Bool) (stub : Packet) (r : Reach := {}) : State × Option (Nat × Packet) :=
  let (x, s) := s.takeHit hit stub
  match s.refused x.1 x.2 r with
  | some s => (s, none)
  | none => (s, some x)

/-- The domain of the primary port to a position takes requests: what comes by itself from there is not refused (11, R329). -/
def State.hears (s : State) (pos : Nat) (r : Reach := {}) : Bool := (s.domainCheck (s.primaryPort pos) r).isNone

/-- The delivered requests that `f` picks count as accepted before a CLOSING that begins now (11, R332; 14, R416). -/
def State.admitRx (s : State) (f : Nat × Packet → Bool) : State :=
  { s with fab := { s.fab with rx := s.fab.rx.map fun x => if f x then (markTaken x.1, x.2) else x } }

/-- Accepted requests that are not complete: delivered packets, and remote adds in the inboxes (11, R332; 14, R416, R417). -/
def State.acceptedOf (s : State) (f : Nat × Packet → Bool) : List (Nat × Packet) :=
  (s.fab.rx.filter fun x => !isResponse x.2.op && f x)
    ++ (s.sync.inbox.flatMap (·.2)).filterMap fun a => a.reply.filter fun x => x.1 ≠ selfPort && f x

end Sys2Proof.Machine
end

