-- ==== Sys2Proof/Machine/Access.lean ====
section
/-! DEFINITION. The checks that every dictionary request passes, whatever its channel: device state, reach and level (17, R488,
R491, R496), and the maintenance manager's conflicts (18, section 18.7). -/

namespace Sys2Proof.Machine

/-! ## Device state, reach and level (17) -/

/-- No unit serves the dictionary in COLD and OPTIONS (17, R496; 15, Table 15-9). -/
def State.dictOff (s : State) : Bool := s.dev == .cold || s.dev == .options

/-- Identity, versions, unit map and device state: what OHM-ROM serves (17, R496). -/
def romIndex (index : Nat) : Bool := (0x1000 ≤ index && index ≤ 0x1002) || index == 0x1100
/-- The option mirror. -/
def mirrorIndex (index : Nat) : Bool := 0xA000 ≤ index && index ≤ 0xA002

/-- What the device state answers to a request for an object (17, R496; 15, R447). -/
def State.stateGate (s : State) (index sub : Nat) (isWrite : Bool) : Option (Status × Nat) :=
  let reset := index == 0x1100 && sub == 0x80
  match s.dev with
  | .live | .doze => none
  | .rom | .staging => if (!isWrite && (romIndex index || mirrorIndex index)) || (isWrite && reset) then none else some (.busy, 100000)
  | .optionConflict => if (index == 0x1000 && !isWrite) || index == 0x1100 || mirrorIndex index then none else some (.folded, 0)
  | .recovering =>
    if !isWrite && (romIndex index || index == 0x6000 || index == 0x6001 || index == 0x6010) then none else some (.busy, 1000000)
  | .folded => if !isWrite || reset then none else some (.folded, 0)
  | .cold | .options => some (.busy, 100000)

/-- The session of a request: for a mailbox the implicit one, whose level its function fixes (17, R488, R499). -/
def State.session (s : State) (ch : Channel) (id : Quad) : Option Session :=
  match ch with
  | .mailbox f =>
    if id = 0 then some ((s.kdp.sessions.find? (·.ch == ch)).getD { id := 0, ch := ch, expert := f.val == 0 }) else none
  | _ => s.kdp.sessions.find? fun x => x.ch == ch && x.id == id

/-- The session that a request without a header of its own uses on a channel. -/
def State.anySession (s : State) (ch : Channel) : Option Session :=
  match ch with
  | .mailbox _ => s.session ch 0
  | _ => s.kdp.sessions.find? (·.ch == ch)

/-- Bit 0 of FB0 byte 8 is the manufacturing-mode bit (15, Table 15-7; its place is log 36). -/
def State.manufacturing (s : State) : Bool := bit (field (Tbl.get [] s.boot.voted 0) 8 1) 0

/-- The channel reaches an index (17, R488, Table 17-1a). -/
def State.chanReaches (s : State) (ch : Channel) (index : Nat) : Bool :=
  (index < 0xF000 || s.manufacturing) &&
  (match ch with
   | .mailbox f =>
     f.val == 0 || (0x5000 ≤ index && index < 0x6000
       && (s.seat (index - 0x5000)).state ≠ .free && (s.seat (index - 0x5000)).entry.owner == f.val)
   | _ => true)

/-- A write of an object that acts: the checks of Table 17-4 up to the object's own rule, then the rule, then the reply (17,
R491). -/
def State.objAct (s : State) (ch : Channel) (index sub : Nat) (act : State → State × Status × Nat) : State :=
  if s.dictOff then s
  else
    let no := fun (st : Status) (retry : Nat) => s.emit (.kdp ch 4 st retry [])
    match s.anySession ch with
    | none => no .notFound 0
    | some x =>
      match s.stateGate index sub true with
      | some (st, retry) => no st retry
      | none =>
        if !s.chanReaches ch index then no .noAccess 0
        else if 0x80 ≤ sub && !x.expert then no .noAccess 0
        else
          let (t, st, retry) := act s
          let (retry, t) := t.hinted st retry
          t.emit (.kdp ch 4 st (if retryable st then retry else 0) [])

/-! ## The maintenance manager (18, R540, R541) -/

/-- Number of activities (18, Table 18-15). -/
def activityCount : Nat := 11

/-- An activity is in progress (18, Table 18-15; 0x6400.01). A sweep ends in the step that starts it; a background scrub pass is
no request and pauses instead. -/
def State.active (s : State) (a : Nat) : Bool :=
  match a with
  | 0 => s.maint.journal.kind == 1
  | 1 => s.maint.works.any (·.1 == 1)
  | 2 => s.fw.stage.isSome || s.mgmt.updReq.isSome || (s.maint.journal.kind == 2 && s.maint.journal.step ≠ 31)
  | 3 => (s.fab.ports.any fun e => e.2.key.any (2 ≤ ·.gen)) || s.fab.ports.any (fun e => e.2.switching && 1 ≤ e.2.txGen)
      || s.fab.conns.any (fun e => e.2.any (·.switching))
  | 5 => !s.rel.epochs.isEmpty
  | 7 => s.maint.restores.any (·.mode ≠ 2)
  | 8 => s.maint.scrubs.any (16 ≤ ·)
  | 9 => s.maint.scrubs.any fun m => 8 ≤ m && m < 16
  | 10 => s.maint.scrubs.any (· < 8)
  | _ => false

/-- The activities that an activity may not overlap (18, Table 18-15). -/
def clashes : Nat → List Nat
  | 0 => [0, 2, 4, 5, 6, 7, 8]
  | 1 => [2, 3]
  | 2 => [0, 1, 2, 3, 4, 7]
  | 3 => [1, 2]
  | 4 => [0, 2, 4]
  | 5 | 6 | 8 => [0]
  | 7 => [0, 2]
  | _ => []

/-- Activities 5 and 7 of a seat. -/
def State.seatBusy (s : State) (n : Nat) : Bool :=
  s.rel.epochs.any (·.seat == n) || s.maint.restores.any fun r => r.seat == n && r.mode ≠ 2

/-- An activity may start. -/
def State.mayStart (s : State) (a : Nat) (seat : Option Nat := none) : Bool :=
  !(clashes a).any s.active && !((a == 5 || a == 7) && seat.any s.seatBusy)

/-- The word 0x6400.01. -/
def State.activities (s : State) : Nat :=
  ((List.range activityCount).filter s.active).foldl (fun m a => m + 2 ^ a) 0

/-- A request to start an activity: refused and counted on a conflict; the retry-after, an estimate, is a free value (18, R541;
log 3). -/
def State.allowActivity (s : State) (a : Nat) (seat : Option Nat) (act : State → State × Status × Nat) : State × Status × Nat :=
  if s.mayStart a seat then act s
  else
    let (v, s) := (s.bump 0x640002 32).free
    (s, .conflict, v.toNat % 2 ^ 32)

end Sys2Proof.Machine
end

