-- ==== Sys2Proof/Machine/Flags.lean ====
section
/-! DEFINITION. The condition computations: comparisons of CMP.cc, B.cc and BG.cc (03, R588) and the scalar arithmetic of
Table 3-3. The sequencer has no condition-code register. -/

namespace Sys2Proof.Machine

/-- Whether a condition holds (03, R588): EQ and NE, signed and unsigned 64-bit comparisons. -/
def ccHolds (cc : Cc) (a b : Word) : Bool :=
  match cc with
  | .eq => a == b
  | .ne => a != b
  | .lt => a.slt b
  | .le => a.sle b
  | .gt => b.slt a
  | .ge => b.sle a
  | .ltu => a.ult b
  | .leu => a.ule b
  | .gtu => b.ult a
  | .geu => b.ule a

/-- Shift counts are taken mod 64 (03, Table 3-3). -/
def shiftCount (b : Word) : Nat := b.toNat % 64

def signedMin (a b : Word) : Word := if a.slt b then a else b
def signedMax (a b : Word) : Word := if a.slt b then b else a
def unsignedMin (a b : Word) : Word := if a.ult b then a else b
def unsignedMax (a b : Word) : Word := if a.ult b then b else a

end Sys2Proof.Machine
end

