-- ==== Sys2Proof/Machine/Operands.lean ====
section
/-! DEFINITION. Sequencer operands and issue: registers, wait and signal fields, loops, the faults at issue, and the one
operation that issues an instruction (03, sections 3.1 to 3.5; 09, sections 9.1 to 9.3). -/

namespace Sys2Proof.Machine

/-! ## Registers (03, Table 3-1) -/

/-- Read a source operand of CD `c`; s0 always reads 0. -/
def State.src (s : State) (c : Nat) : Src → Word
  | .s r => if r.val = 0 then 0 else Tbl.get 0 (s.seq c).ctx.s r.val
  | .g r => Tbl.get 0 (s.seq c).ctx.g r.val
  | .imm v => v

/-- Write a destination register of CD `c`; s0 ignores writes. -/
def State.put (s : State) (c : Nat) (d : Dst) (v : Word) : State :=
  match d with
  | .s r => if r.val = 0 then s else s.modSeq c fun q => { q with ctx := { q.ctx with s := Tbl.set 0 q.ctx.s r.val v } }
  | .g r => s.modSeq c fun q => { q with ctx := { q.ctx with g := Tbl.set 0 q.ctx.g r.val v } }

/-- The destination that a source operand names as a register, if any. -/
def srcReg : Src → List Dst
  | .s r => [.s r]
  | .g r => [.g r]
  | .imm _ => []

/-- A destination with a write still pending (03, R66). -/
def State.isPending (s : State) (c : Nat) (d : Dst) : Bool := (s.seq c).pend.any fun p => p.dst == d

/-! ## The PLAYING seat's ranges (09, R255) -/

/-- The entry of the PLAYING seat. -/
def State.playEntry (s : State) : Entry := match s.play with | some p => (s.seat p.seat).entry | none => {}
/-- The index of the PLAYING seat. -/
def State.playSeat (s : State) : Nat := match s.play with | some p => p.seat | none => 0
/-- The deck of the PLAYING seat. -/
def State.playDeck (s : State) : Deck := (s.seat s.playSeat).deck.getD {}
def State.pc (s : State) (c : Nat) : Nat := (s.seq c).ctx.pc.toNat
/-- The stream of CD `c`. -/
def State.stream (s : State) (c : Nat) : Stream := s.playDeck.streams.getD c {}

def State.cdTally (s : State) (c n : Nat) : Word := Tbl.get 0 s.sync.cdTally (4096 * c + n)
def State.pkgTally (s : State) (n : Nat) : Word := Tbl.get 0 s.sync.pkgTally n
def State.flag (s : State) (c n : Nat) : Bool := Tbl.get false (s.seq c).ctx.f n
def State.setFlag (s : State) (c n : Nat) (v : Bool) : State :=
  s.modSeq c fun q => { q with ctx := { q.ctx with f := Tbl.set false q.ctx.f n v } }

/-! ## Faults at issue (02, R42; 03, R58, R64, R590; 08, Table 8-7; 18, Table 18-3) -/

/-- A window fault: reported as 0x0101, and the seat halts with cause 0x03 (02, R42). -/
def State.windowFault (s : State) (c d0 d1 d2 : Nat) : State :=
  (s.report 1 0x0101 3 (some s.playSeat) [d0, d1, d2, s.pc c] none c).haltPlay 0x03

/-- A fault at issue: reported as 0x0103 with the instruction class, and the seat halts with cause 0x08. -/
def State.issueFault (s : State) (c cls : Nat) (d3 : Nat := 0) : State :=
  (s.report 1 0x0103 3 (some s.playSeat) [s.pc c, cls, c, d3] none c).haltPlay 0x08

/-- Poisoned data consumed: reported as 0x0107, counted, and the seat halts with cause 0x06 (08, R241). -/
def State.poisonHalt (s : State) (c dev owner : Nat) : State :=
  ((s.report 1 0x0107 3 (some s.playSeat) [dev, owner] (some .poison) c).bump 0x300301 32).haltPlay 0x06

/-- Indices that lie outside the seat's ranges: the object of report 0x0101 and the index (03, R64). -/
def condFault (e : Entry) : Cond → Option (Nat × Nat)
  | .cdTally n _ => if e.cdCount ≤ n then some (0x100, n) else none
  | .pkgTally n _ => if e.pkgCount ≤ n then some (0x101, n) else none
  | .flag n _ => if 64 ≤ n then some (0x102, n) else none
def targetFault (e : Entry) : Target → Option (Nat × Nat)
  | .cdTally _ n _ => if e.cdCount ≤ n then some (0x100, n) else none
  | .pkgTally n _ => if e.pkgCount ≤ n then some (0x101, n) else none
  | .flag n _ => if 64 ≤ n then some (0x102, n) else none
  | .host _ => none
def tallyFault (e : Entry) : TallyRef → Option (Nat × Nat)
  | .own n | .onCd _ n => if e.cdCount ≤ n then some (0x100, n) else none
  | .pkg n => if e.pkgCount ≤ n then some (0x101, n) else none

/-! ## Waits and signals (03, R62 to R65; 09, R258, R261, R264) -/

/-- The value of a threshold: an immediate, or the whole 64 bits of a scalar register (09, R261). -/
def State.threshold (s : State) (c : Nat) : Threshold → Word
  | .imm n => n.setWidth 64
  | .reg r => s.src c (.s r)

/-- Whether a wait condition holds (03, Table 3-2). -/
def State.condHolds (s : State) (c : Nat) : Cond → Bool
  | .cdTally n t => (s.threshold c t).ule (s.cdTally c (s.playEntry.cdBase + n))
  | .pkgTally n t => (s.threshold c t).ule (s.pkgTally (s.playEntry.pkgBase + n))
  | .flag n v => s.flag c n == v

/-- The stall of a condition that does not hold (09, Table 9-7). -/
def State.condStall (s : State) (c : Nat) (k : Cond) : Stall :=
  let base : Stall := { kind := 1, objKind := 0, object := 0, threshold := 0, since := s.now, pc := (s.seq c).ctx.pc }
  match k with
  | .cdTally n t => { base with objKind := 0, object := s.playEntry.cdBase + n, threshold := s.threshold c t }
  | .pkgTally n t => { base with objKind := 1, object := s.playEntry.pkgBase + n, threshold := s.threshold c t }
  | .flag n v => { base with objKind := 2, object := n, threshold := BitVec.ofNat 64 (b2n v) }

/-- A stall begins; one that already runs at this pc keeps its start (09, R279). -/
def State.beginStall (s : State) (c : Nat) (k : Stall) : State :=
  match (s.seq c).stall with
  | some old => if old.pc = k.pc && old.kind = k.kind then s.modSeq c fun q => { q with stall := some { k with since := old.since } }
      else s.modSeq c fun q => { q with stall := some k }
  | none => s.modSeq c fun q => { q with stall := some k }

/-- Two CDs share a WDL edge (10, Table 10-1). -/
def neighbours (a b : Nat) : Bool :=
  (a / 4 == b / 4 && (a + 1 == b || b + 1 == a)) || (a + 4 == b || b + 4 == a)

/-- Place of an add among those that one cycle sends to tally unit `u` (8 is ED_W's): its own die's arrive first, then a neighbouring
CD's, then another CD's (09, Table 9-4); of one distance, by source CD and unit (R259). -/
def addRank (u : Nat) (a : Add) : Nat :=
  match a.src with
  | .own k => k
  | .cd c k => (if u = 8 then 0x1000 else if neighbours c u then 0x1000 else 0x2000) + 32 * c + k
  | .remote p _ => 0x3000 + p
  | .host => 0x4000

/-- Put an add behind those of a list that do not come after it. -/
def insertAdd (u : Nat) (a : Add) : List Add → List Add
  | [] => [a]
  | b :: t => if addRank u a < addRank u b then a :: b :: t else b :: insertAdd u a t

/-- The adds that one event has queued since state `old`, in the order of one cycle (09, R259). -/
def State.sameCycle (s old : State) : State :=
  if s.sync.inbox = old.sync.inbox then s
  else { s with sync := { s.sync with inbox := Tbl.mapAll [] (fun u l =>
      let n := (Tbl.get [] old.sync.inbox u).length
      l.take n ++ (l.drop n).foldl (fun acc a => insertAdd u a acc) []) s.sync.inbox } }

/-- A signal acts for CD `c` and unit `unit` (order of R259) of seat `n`. -/
def State.signalOf (s : State) (c unit n : Nat) (t : Target) : State :=
  let e := (s.seat n).entry
  match t with
  | .cdTally k i a =>
    let dst := match k with | none => c | some k => k.val
    s.queueAdd dst { tally := e.cdBase + i, amount := a.toNat, src := if dst = c then .own unit else .cd c unit, seat := some n }
  | .pkgTally i a => s.queueAdd 8 { tally := e.pkgBase + i, amount := a.toNat, src := .cd c unit, seat := some n }
  | .flag i v => s.setFlag c i v
  | .host h => s.raiseIrq e.owner (8 + h.val)

/-- The signal of an instruction that starts no unit operation: @issue and @done both act in the issue cycle (03, R63). -/
def State.signalNow (s : State) (i : Issue) : State :=
  match i.signal with
  | none => s
  | some g => s.signalOf i.cd.val 0 s.playSeat g.target

/-- The @issue signal of an instruction that starts an operation. -/
def State.signalIssue (s : State) (i : Issue) : State :=
  match i.signal with
  | some ⟨t, false⟩ => s.signalOf i.cd.val 0 s.playSeat t
  | _ => s

/-- The @done signal, when the instruction has one. -/
def doneOf (i : Issue) : Option Target :=
  match i.signal with
  | some ⟨t, true⟩ => some t
  | _ => none

/-! ## Loops and the program counter (03, R72, R73) -/

/-- Byte after the body of a level. -/
def lvlEnd (l : LoopLvl) : Nat := l.last.toNat + l.lastLen

/-- The innermost active level whose body ends with the instruction at `pc`: the one that starts last. -/
def innermost (lc : Tbl LoopLvl) (pc : Nat) : Option (Nat × LoopLvl) :=
  lc.foldl (fun b e =>
    if e.2.active && e.2.last.toNat == pc then
      match b with
      | none => some e
      | some o => if o.2.start.toNat < e.2.start.toNat then some e else some o
    else b) none

/-- The next pc after the instruction at `pc`, whose next in line is `next`: loops that end here count down and return to
their start, or end (03, R72). At most four levels can end at one instruction. -/
def loopNext (lc : Tbl LoopLvl) (pc next : Nat) : Nat → Tbl LoopLvl × Nat
  | 0 => (lc, next)
  | k + 1 =>
    match innermost lc pc with
    | none => (lc, next)
    | some (n, l) =>
      if 1 < l.count.toNat then (Tbl.set {} lc n { l with count := l.count - 1 }, l.start.toNat)
      else loopNext (Tbl.set {} lc n {}) pc next k

/-- The pc moves on past an instruction of `bytes` bytes (03, R59, R72). -/
def State.advance (s : State) (c bytes : Nat) : State :=
  s.modSeq c fun q =>
    let (lc, p) := loopNext q.ctx.lc q.ctx.pc.toNat (q.ctx.pc.toNat + bytes) 4
    { q with ctx := { q.ctx with lc := lc, pc := BitVec.ofNat 32 p }, stall := none }

/-- A taken branch: levels whose body does not hold the target end (03, R73). -/
def State.branchTo (s : State) (c : Nat) (target : Quad) : State :=
  s.modSeq c fun q => { q with
    ctx := { q.ctx with
      pc := target
      lc := q.ctx.lc.filter fun e => e.2.start.toNat ≤ target.toNat && target.toNat < lvlEnd e.2 }
    stall := none }

/-! ## Fetch (03, R61, R590) -/

/-- Seat address of the byte at the pc. -/
def State.fetchAddr (s : State) (c : Nat) : Nat := s.playEntry.deckHandle + (s.stream c).off + s.pc c

/-- The fetch of `n` bytes at the pc halts the seat: they leave a window or lie in one with x = 0 (R61), or a sector of theirs inside the
package is poisoned (08, R241, Table 8-7). -/
def State.fetchHalt (s : State) (c n : Nat) : Option State :=
  let e := s.playEntry
  let a := s.fetchAddr c
  match translate e a n .x with
  | none => some (s.windowFault c a n (windowOf a))
  | some (dev, k) => if routeOf dev = 0 && anyPoison (s.readSlot (slotOf e k) dev n) then some (s.poisonHalt c dev 4) else none

/-- The seat halts at bytes that are no instruction, at the end of the stream, or at a fetch that halts it by itself. -/
def State.fetchFault (s : State) (c : Nat) : State :=
  if (s.stream c).len ≤ s.pc c then s.issueFault c 0
  else (s.fetchHalt c (max 1 (Config.badLength (s.fetchAddr c)))).getD (s.issueFault c 0)

/-! ## Issue (03, R59) -/

/-- What the body of an instruction does at issue. -/
inductive Body where
  /-- it issues; the state it leaves -/
  | run (s : State)
  /-- it issues and sets the pc itself -/
  | jump (s : State)
  /-- it faults or waits: nothing of it takes effect, the pc stays -/
  | stop (s : State)

/-- Operations in the command queue of a unit of a CD (03, R60). -/
def State.queued (s : State) (c : Nat) (u : OpUnit) : Nat := (s.ops.filter fun o => o.cd == c && o.unit == u).length

/-- Sequencer `c` can consider an instruction: its seat is issuing, it waits for no gang point and no lock. -/
def State.issuing (s : State) (c : Nat) : Bool :=
  s.play.any (fun p => p.phase = .issuing) && (s.seq c).gang.isNone && (s.seq c).lock.isNone

/-- A breakpoint stands at the pc of sequencer `c` (19, R564). -/
def State.breakAt (s : State) (c : Nat) : Bool :=
  s.sec.breaks.any fun b => b.2.any fun (k : Break) => k.seat == s.playSeat && bit k.mask c && k.pc == (s.seq c).ctx.pc

/-- The first index of an instruction's wait and signal fields that lies outside the seat's ranges (03, R64). -/
def indexFault (e : Entry) (i : Issue) : Option (Nat × Nat) :=
  (i.waits.findSome? (condFault e)).or (i.signal.bind fun g => targetFault e g.target)

/-- The scalar registers that the thresholds of the wait field read (03, R59, R62, R66). -/
def waitRegs (i : Issue) : List Dst :=
  i.waits.filterMap fun k => match k with
    | .cdTally _ (.reg r) | .pkgTally _ (.reg r) => some (.s r)
    | _ => none

/-- A destination g0–g15 of an instruction other than RDX halts the seat at issue (03, R58). -/
def namesGang (ds : List Dst) : Bool := ds.any fun d => match d with | .g _ => true | _ => false

/-- Try to issue an instruction (03, R59): a breakpoint (19, R564), the fetch through the windows and its poison (R61; 08, R241), the ranges of its fields, the registers that its thresholds
read (R66), its waits, its registers, room in its unit, then its body. `dsts` are its destinations, `regs` the registers it reads, `unit` its target unit, `cls` its class in
Table 3-3. Until it can issue nothing changes but the stall of its wait (log 2). -/
def State.issue (s : State) (i : Issue) (cls : Nat) (dsts regs : List Dst) (unit : Option OpUnit)
    (body : State → Body) : State :=
  let c := i.cd.val
  if !s.issuing c then s
  else if s.breakAt c then s.haltPlay 0x02
  else if (s.stream c).len ≤ s.pc c then s.fetchFault c
  else match s.fetchHalt c i.bytes, indexFault s.playEntry i with
    | some t, _ => t
    | none, some (kind, n) => s.windowFault c n 0 kind
    | none, none =>
      if (waitRegs i).any (s.isPending c) then s
      else match i.waits.find? (fun k => !s.condHolds c k) with
      | some k => s.beginStall c { s.condStall c k with conds := i.waits }
      | none =>
        if namesGang dsts then s.issueFault c cls
        else if (dsts ++ regs).any (s.isPending c) then s
        else if unit.any (fun u => 8 ≤ s.queued c u) then s
        else match body s with
          | .run t => t.advance c i.bytes
          | .jump t => t
          | .stop t => t

/-- Issue of an instruction that starts no unit operation: its signal acts at issue (03, R63). -/
def State.issueNow (s : State) (i : Issue) (cls : Nat) (dsts regs : List Dst) (f : State → State) : State :=
  s.issue i cls dsts regs none fun s => .run ((f s).signalNow i)

/-- A gang instruction is issued by one sequencer and waits for its gang point; the pc stays until then (03, R68). `check`
may fault at issue; `desc` are descriptor bytes read at issue. -/
def State.issueGang (s : State) (i : Issue) (cls : Nat) (regs : List Dst) (ins : Instr)
    (check : State → Option State) (desc : List Byte := []) : State :=
  s.issue i cls [] regs none fun s =>
    match check s with
    | some t => .stop t
    | none => .stop (s.modSeq i.cd.val fun q => { q with gang := some ins, gangDesc := desc, stall := none })

/-! ## Unit operations -/

/-- An operation enters its unit's queue (03, R60). -/
def State.pushOp (s : State) (c : Nat) (u : OpUnit) (ins : Instr) (done : List (Nat × Target)) (fin : Bool := false)
    (data : List Byte := []) (vals : List Nat := []) : State :=
  let n := s.playSeat
  { s with
    ops := s.ops ++ [{ id := s.nextOp, cd := c, unit := u, seat := n, inc := (s.seat n).inc, pc := (s.seq c).ctx.pc
                       instr := ins, done := done, fin := fin, data := data, vals := vals, since := s.now }]
    nextOp := s.nextOp + 1 }

/-- Issue of an instruction that puts an operation into a unit's queue, after its own checks. -/
def State.issueOp (s : State) (i : Issue) (cls : Nat) (dsts regs : List Dst) (u : OpUnit) (ins : Instr)
    (check : State → Option State) (fin : State → Bool := fun _ => false) (more : State → State := id)
    (data : State → List Byte := fun _ => []) (vals : State → List Nat := fun _ => []) : State :=
  s.issue i cls dsts regs (some u) fun s =>
    match check s with
    | some t => .stop t
    | none =>
      let done := match doneOf i with | some t => [(i.cd.val, t)] | none => []
      .run (more ((s.pushOp i.cd.val u ins done (fin s) (data s) (vals s)).signalIssue i))

/-- The operation at the head of its unit's queue. -/
def State.headOp (s : State) (c : Nat) (u : OpUnit) : Option Op := s.ops.find? fun o => o.cd == c && o.unit == u

def State.opById (s : State) (id : Nat) : Option Op := s.ops.find? (·.id == id)

def State.modOp (s : State) (id : Nat) (g : Op → Op) : State :=
  { s with ops := s.ops.map fun o => if o.id = id then g o else o }

/-- An operation of `u` before it in the same queue is not finished (03, R60). -/
def State.isHead (s : State) (o : Op) : Bool := (s.headOp o.cd o.unit).any (·.id == o.id)

/-- Number of a unit in the order of R259. -/
def unitRank : OpUnit → Nat
  | .narrow => 0 | .dma e => 1 + e | .vec => 5 | .array => 6 | .mvp => 7 | .deal => 8 | .xps => 9 | .coll => 10

/-- Owner code of a unit (03, Table 3-6). -/
def ownerOf : OpUnit → Nat
  | .array => 1 | .mvp => 2 | .vec => 3 | .narrow => 4 | .dma e => 5 + e | .deal => 9 | .xps => 0xA | .coll => 0xB

/-- Operations that will never end leave their units, with the register results that they owed (03, R79; 07, R212; log 140). -/
def State.dropOps (s : State) (ids : List Nat) : State :=
  { s with
    ops := s.ops.filter fun o => !ids.contains o.id
    seqs := Tbl.mapAll {} (fun _ q => { q with pend := q.pend.filter fun p => !p.op.any ids.contains }) s.seqs }

/-- The operation leaves its unit, the next one comes to the queue's head, and the @done signals act (03, R60, R63). -/
def State.retire (s : State) (o : Op) : State :=
  let s := { s with ops := s.ops.filter fun p => p.id ≠ o.id }
  let s : State := match s.headOp o.cd o.unit with
    | some h => s.modOp h.id fun p => { p with since := s.now }
    | none => s
  (o.done.foldl (fun s d => s.signalOf d.1 (unitRank o.unit) o.seat d.2) s).sameCycle s

/-! ## Slots (03, R76 to R79, R587) -/

/-- Which rule of reserved and refresh positions governs the map at byte `off` of a CD's part of a phase record, and its channel (03,
Table 3-5a). -/
def mapRule (off : Nat) : Nat × Nat :=
  if 9728 ≤ off && off < 13824 then (2, (off - 9728) / 128)
  else if 13824 ≤ off && off < 15872 then (3, (off - 13824) / 64)
  else if 8960 ≤ off && off < 9216 then (1, 0)
  else (0, 0)

/-- Some slot of a map's bytes, the first of them slot `k`, has an owner; at a reserved or refresh position the deck's code counts for
nothing (03, R77). -/
def slotHit (cd rule ch owner : Nat) : Nat → List PByte → Bool
  | _, [] => false
  | k, b :: t =>
    (b.1.toNat % 16 == owner && !mustBeIdle cd rule ch k) || (b.1.toNat / 16 == owner && !mustBeIdle cd rule ch (k + 1))
      || slotHit cd rule ch owner (k + 2) t

/-- Some slot of the map at byte `off` of CD `c`'s part of the active phase record, `len` bytes long, has an owner (03, R76, R77, R79;
01, R17). A deck that lies outside the package is read through the copy that ACTIVATE kept (03, R84, R85; log 29). -/
def State.ownsSlot (s : State) (c off len owner : Nat) : Bool :=
  let e := s.playEntry
  let at' := 159744 * (s.seq c).ctx.phase.toNat + 19968 * c + off
  match translate e (e.deckHandle + s.playDeck.phaseOff + at') len .x with
  | none => false
  | some (dev, k) =>
    let b := if routeOf dev = 0 then s.readSlot (slotOf e k) dev len else ((s.seat s.playSeat).phases.drop at').take len
    slotHit c (mapRule off).1 (mapRule off).2 owner 0 b

/-- The owner map that governs a 64-byte sector of the package's memory: CD, byte offset in the CD's part of a phase record, length (03,
Table 3-5a; 08, R220, R228, R230). -/
def slotMap (mode : BitVec 48) (dev : Nat) : Option (Nat × Nat × Nat) :=
  match target dev with
  | .slab c => some (c, 512 * ((dev - slabAddr c 0) / 0xA00000), 512)
  | .near c => some (c, 9728 + 128 * bits dev 6 5, 128)
  | .far _ => some ((stackOf mode dev).1, 13824 + 64 * bits (stackOf mode dev).2 6 5, 64)
  | _ => none

/-- A unit owns a slot on every slab port and channel that `len` bytes at a device address lie on (03, R79). -/
def State.memOpen (s : State) (u : OpUnit) (dev len : Nat) : Bool :=
  (((List.range ((dev % 64 + len + 63) / 64)).filterMap fun i => slotMap s.memory.bandMode (dev / 64 * 64 + 64 * i)).eraseDups).all
    fun r => s.ownsSlot r.1 r.2.1 r.2.2 (ownerOf u)

/-- The next die of the route from die `x` to die `y` (08, Table 8-5). `ips` is a transfer to or from a remote package. -/
def nextDie (ips : Bool) (x y : Nat) : Nat :=
  if ips then y
  else if x = 8 then y / 4 * 4
  else if x = 9 then y / 4 * 4 + 3
  else
    let col := if y = 8 then 0 else if y = 9 then 3 else y % 4
    if x % 4 < col then x + 1 else if col < x % 4 then x - 1 else y

/-- The owner map of the link direction from die `x` to the adjacent die `y` (03, R587, Table 3-5a; 10, Table 10-1). -/
def linkMap (ips : Bool) (x y : Nat) : Nat × Nat × Nat :=
  if ips then
    if x < 8 then (x, if y = 8 then 9216 else 9472, 128) else (y, if x = 8 then 9344 else 9600, 128)
  else if 8 ≤ x then (y, 8960, 256)
  else
    let edges := (if x % 4 = 0 then [] else [x - 1]) ++ (if x % 4 = 3 then [] else [x + 1]) ++ [(x + 4) % 8]
      ++ (if x % 4 = 0 then [8] else if x % 4 = 3 then [9] else [])
    (x, 8192 + 256 * edges.idxOf y, 256)

/-- The hops of a route: none between the edge dies, which no route joins. -/
def hopList (ips : Bool) : Nat → Nat → Nat → List Hop
  | 0, _, _ => []
  | f + 1, x, y =>
    if x = y || (8 ≤ x && 8 ≤ y) then [] else ⟨ips, x, nextDie ips x y⟩ :: hopList ips f (nextDie ips x y) y

/-- The hops of a burst from die `x` to die `y`: four WDL hops at most, or one IPS hop. -/
def hopsOf (ips : Bool) (x y : Nat) : List Hop := hopList ips 4 x y

/-- The first-named and the second die of a link (10, Table 10-1): links 0 to 13 are WDL edges, 16 to 31 IPS links (18, Table 18-3). -/
def linkDies (link : Nat) : Nat × Nat :=
  if link < 3 then (link, link + 1)
  else if link < 6 then (link + 1, link + 2)
  else if link < 10 then (link - 6, link - 2)
  else if link = 10 then (0, 8) else if link = 11 then (4, 8) else if link = 12 then (3, 9) else if link = 13 then (7, 9)
  else if link < 24 then (link - 16, 8) else (link - 24, 9)

/-- Number of the link of a hop and its direction: true from the second-named die to the first. -/
def Hop.link (h : Hop) : Nat × Bool :=
  if h.ips then ((if h.src = 8 || h.dst = 8 then 16 else 24) + (if h.src < 8 then h.src else h.dst), 8 ≤ h.src)
  else ((((List.range 14).find? fun n => linkDies n == (h.src, h.dst) || linkDies n == (h.dst, h.src)).getD 0),
    !(List.range 14).any fun n => linkDies n == (h.src, h.dst))

/-- What crosses a link direction is accepted: the link has not failed, and no slice of the direction is without lock or asks for frames
again (10, R297, R299). -/
def State.linkClear (s : State) (h : Hop) : Bool :=
  !s.links.failed.contains h.link.1
    && s.links.recv.all fun e => e.1 / 129 ≠ 2 * h.link.1 + b2n h.link.2 || (!e.2.lost && !e.2.nak)

/-- No transmit queue of a link direction is full: with a full one every unit that feeds the link stalls (10, R293). -/
def State.linkRoom (s : State) (h : Hop) : Bool :=
  s.links.send.all fun e => e.1 / 129 ≠ 2 * h.link.1 + b2n h.link.2 || decide (e.2.queue.length < 32)

/-- A unit can cross a link now: it owns a slot there, the link takes its data and delivers it (03, R79; 10, R293, R297, R299). -/
def State.hopOpen (s : State) (u : OpUnit) (h : Hop) : Bool :=
  let m := linkMap h.ips h.src h.dst
  s.ownsSlot m.1 m.2.1 m.2.2 (ownerOf u) && s.linkRoom h && s.linkClear h

/-- A transfer of the host port crosses the WDL links from die `x` to die `y`: none of them has failed, and each accepts it (10,
R297, R299). -/
def State.pathClear (s : State) (x y : Nat) : Bool := (hopsOf false x y).all s.linkClear

/-- A message on the IPS control path from die `x` to die `y` takes effect: at the acceptance count of its link (10, R299). -/
def State.messageClear (s : State) (x y : Nat) : Bool := (hopsOf true x y).all s.linkClear
/-- A CD's add to a package tally has crossed its IPS link (10, R299). -/
def State.addArrived (s : State) (a : Add) : Bool :=
  match a.src with
  | .cd c _ => s.messageClear c 8
  | _ => true

/-- A unit can cross every link from die `x` to die `y`. -/
def State.routeOpen (s : State) (u : OpUnit) (ips : Bool) (x y : Nat) : Bool := (hopsOf ips x y).all (s.hopOpen u)

/-- A remote device address, and one in host memory (08, R245). -/
def isRemote (dev : Nat) : Bool := 0x10 ≤ routeOf dev && routeOf dev ≤ 0x21
def isHost (dev : Nat) : Bool := routeOf dev == 1

/-- The edge die that a CD reaches remote packages by: the one of its column (08, Table 8-5). -/
def edgeOf (cd : Nat) : Nat := if cd % 4 < 2 then 8 else 9

/-- The die that a local or host device address belongs to: the CD that controls the memory, or ED_W (08, R236). -/
def dieOf (mode : BitVec 48) (dev : Nat) : Nat :=
  if isHost dev then 8 else memCd mode dev

/-- The dies that a transfer begins and ends at: a remote side is the edge die of the CD that controls the local side (08, Table 8-5). -/
def endDies (mode : BitVec 48) (src dst : Nat) : Nat × Nat :=
  if isRemote src then (edgeOf (dieOf mode dst), dieOf mode dst)
  else if isRemote dst then (dieOf mode src, edgeOf (dieOf mode src))
  else (dieOf mode src, dieOf mode dst)

/-- A unit of CD `c` owns a slot on the slab port that serves an offset (08, R220). -/
def State.ownsPort (s : State) (c off : Nat) (u : OpUnit) : Bool := s.ownsSlot c (512 * (off / 0xA00000)) 512 (ownerOf u)
/-- A DMA engine owns a DMA-queue slot (Table 3-5a, order 7). -/
def State.ownsQueue (s : State) (c : Nat) (u : OpUnit) : Bool := s.ownsSlot c 15872 4096 (ownerOf u)

end Sys2Proof.Machine
end

