-- ==== Sys2Proof/Machine/ArrayOps.lean ====
section
/-! DEFINITION. Operands and sums of the array and the MVP (05, 06): reading elements of a share, zero maps, N:M groups, the
accumulation of R134, tiles and passes, conversion counters. -/

namespace Sys2Proof.Machine

/-! ## Bytes of a slab -/

/-- A byte of CD `c`'s slab. -/
def State.slabByte (s : State) (c off : Nat) : PByte := s.memory.read1 (s.keyOf 0) (slabAddr c off)
/-- A `len`-byte little-endian field of CD `c`'s slab. -/
def State.slabField (s : State) (c off len : Nat) : Nat := leNat ((List.range len).map fun i => (s.slabByte c (off + i)).1)
def State.slabBytes (s : State) (c off len : Nat) : List PByte := (List.range len).map fun i => s.slabByte c (off + i)
def State.putSlab (s : State) (c off : Nat) (bs : List PByte) : State := s.writeSlot 0 (slabAddr c off) bs

/-- Bytes that a write puts at an offset of one CD's slab: CD, offset, bytes. -/
abbrev SlabRun := Nat × Nat × List PByte

/-- Neighbouring bytes become one run, which is one write, in whichever direction they come (08, R241). -/
def joinRuns : List SlabRun → List SlabRun
  | [] => []
  | x :: t =>
    match joinRuns t with
    | y :: r => if x.1 = y.1 && x.2.1 + x.2.2.length = y.2.1 then (x.1, x.2.1, x.2.2 ++ y.2.2) :: r
      else if x.1 = y.1 && y.2.1 + y.2.2.length = x.2.1 then (x.1, y.2.1, y.2.2 ++ x.2.2) :: r else x :: y :: r
    | [] => [x]

/-- Write runs of bytes, each as one write. -/
def State.putRuns (s : State) (l : List SlabRun) : State := (joinRuns l).foldl (fun s r => s.putSlab r.1 r.2.1 r.2.2) s

/-- Rows of a deal-layout buffer of `rows` rows that lie on CD `c` (06, R164). -/
def dealLocal (rows c : Nat) : Nat := 32 * (rows / 256) + min 32 (rows % 256 - 32 * c)

/-! ## Conversion counters (04, R112, R113) -/

def satAdd32 (a b : Nat) : Nat := min (a + b) (maxOf 32)
def Conv.plus (k : Conv) (u t n : Nat) : Conv := ⟨satAdd32 k.under u, satAdd32 k.sat t, satAdd32 k.nan n⟩
/-- Count conversions into set `set` of a CD. -/
def State.countConv (s : State) (c set : Nat) (u t n : Nat) : State :=
  if u + t + n = 0 then s else s.modSeq c fun q => { q with conv := Tbl.modify {} q.conv set fun k => k.plus u t n }
/-- The slab bytes of a counter record (04, R113). -/
def recordPart (rec' : Option Nat) : List (Nat × Nat) := match rec' with | some off => [(off, 16)] | none => []
/-- Add an operation's counts into its 16-byte record (04, R113). -/
def State.addRecord (s : State) (c : Nat) (rec' : Option Nat) (k : Conv) : State :=
  match rec' with
  | none => s
  | some off =>
    let g := fun i => s.slabField c (off + 4 * i) 4
    s.putSlab c off (good (leBytes 4 (satAdd32 (g 0) k.under) ++ leBytes 4 (satAdd32 (g 1) k.sat) ++ leBytes 4 (satAdd32 (g 2) k.nan)))

/-! ## Elements of a share -/

/-- Element (row, col) of a share, rows and columns counted within the share: its exact value as the array uses it (04,
R98, R104; log 26), and whether a byte of it is poisoned. -/
def State.elemAt (s : State) (c : Nat) (t : Tensor) (row col : Nat) : Num × Bool :=
  let b := elemBits t.format
  let off := (t.base + row * t.rowStride) * 8 + col * b
  let rd := fun i => (s.slabByte c i).1
  let code := bitField rd off b
  let poison := (s.slabByte c (off / 8)).2 || (s.slabByte c ((off + b - 1) / 8)).2
  let bs := blockSize t.format
  let line := if t.blockCols then row else col
  let axis := if t.blockCols then col else row
  let blk := line * t.scaleRow + axis / bs
  let scale := (s.slabByte c (t.scaleBase + blk))
  match fmtOf t.format with
  | some (.mx e _) => (rne32 (decodeMx e scale.1.toNat code), poison || scale.2)
  | some (.kx e _ _) =>
    let tr := if t.trump then some (s.slabField c (t.trumpBase + 4 * blk) 4) else none
    let tp := t.trump && (s.slabByte c (t.trumpBase + 4 * blk)).2
    (decodeKx e t.coarse scale.1.toNat tr (axis % bs) code, poison || scale.2 || tp)
  | _ => (decodeElem t.format code, poison)

/-- Slab bytes of the scales and trump records of a share of `kept` stored rows, offset and length (04, sections 4.4 and 4.5). -/
def scaleParts (t : Tensor) (kept : Nat) : List (Nat × Nat) :=
  if !isScaled t.format then []
  else
    let bs := blockSize t.format
    let n := if t.blockCols then (kept - 1) * t.scaleRow + (t.cols + bs - 1) / bs else (t.cols - 1) * t.scaleRow + (kept + bs - 1) / bs
    (t.scaleBase, n) :: (if t.trump then [(t.trumpBase, 4 * n)] else [])

/-- Slab bytes that a share of `kept` stored rows takes: elements, scales, trump records and metadata (05, R123; 06, R152). -/
def shareParts (t : Tensor) (kept : Nat) : List (Nat × Nat) :=
  if kept = 0 || t.cols = 0 then []
  else
    (t.base, (kept - 1) * t.rowStride + (t.cols * elemBits t.format + 7) / 8) :: scaleParts t kept
      ++ (if t.keep = 0 then [] else [(t.metaBase, (kept - 1) * t.metaStride + (t.cols + 1) / 2)])

/-- Slab bytes of one stored row of a share. -/
def rowParts (t : Tensor) (row : Nat) : List (Nat × Nat) :=
  let bs := blockSize t.format
  let scales :=
    if !isScaled t.format then []
    else if t.blockCols then [(row * t.scaleRow, (t.cols + bs - 1) / bs)]
    else (List.range t.cols).map fun c => (c * t.scaleRow + row / bs, 1)
  (t.base + row * t.rowStride, (t.cols * elemBits t.format + 7) / 8) :: scales.map (fun x => (t.scaleBase + x.1, x.2))
    ++ (if t.trump then scales.map fun x => (t.trumpBase + 4 * x.1, 4 * x.2) else [])
    ++ (if t.keep = 0 then [] else [(t.metaBase + row * t.metaStride, (t.cols + 1) / 2)])

/-- The first byte range of a list that leaves the populated slab (05, R123). -/
def offPart (l : List (Nat × Nat)) : Option (Nat × Nat) := l.find? fun x => decide (slabSize < x.1 + x.2)

/-- All of a share lies in the populated slab (05, R123). -/
def shareFits (t : Tensor) (kept : Nat) : Bool := (offPart (shareParts t kept)).isNone

/-- A unit owns a slot on every slab port that serves some bytes of CD `c`'s slab (03, R79). -/
def State.partsOpen (s : State) (u : OpUnit) (c : Nat) (l : List (Nat × Nat)) : Bool := l.all fun x => s.memOpen u (slabAddr c x.1) x.2

/-- Kept rows of an N:M operand of `k` rows (06, R152). -/
def keptRows (t : Tensor) (k : Nat) : Nat := if t.keep = 0 then k else (k + 7) / 8 * t.keep

/-- Position code of kept value `i` of group `g` in a column (06, Table 6-1). -/
def State.metaAt (s : State) (c : Nat) (t : Tensor) (g i col : Nat) : Nat :=
  bitField (fun j => (s.slabByte c j).1) ((t.metaBase + (g * t.keep + i) * t.metaStride) * 8 + col * 4) 3

/-- A metadata code of the group is poisoned (08, R241). -/
def State.metaBad (s : State) (c : Nat) (t : Tensor) (g col : Nat) : Bool :=
  (List.range t.keep).any fun i => (s.slabByte c (t.metaBase + (g * t.keep + i) * t.metaStride + col / 2)).2

/-- The positions of a group strictly ascend (06, R153). -/
def State.groupOk (s : State) (c : Nat) (t : Tensor) (g col : Nat) : Bool :=
  (List.range (t.keep - 1)).all fun i => s.metaAt c t g i col < s.metaAt c t g (i + 1) col

/-- B's element at K index `k` and column `n`: none for a pruned position (06, R156); with transpose of B the stored rows
are columns, and a pruned position is a present +0 (R157). Poisoned metadata poison what they place (08, R241). -/
def State.bAt (s : State) (c : Nat) (t : Tensor) (transB : Bool) (k n : Nat) : Option (Num × Bool) :=
  if t.keep = 0 then some (if transB then s.elemAt c t n k else s.elemAt c t k n)
  else if if transB then s.metaBad c t (n / 8) k else s.metaBad c t (k / 8) n then some (.fin false 0 1, true)
  else if transB then
    match (List.range t.keep).find? fun i => s.metaAt c t (n / 8) i k == n % 8 with
    | some i => some (s.elemAt c t (n / 8 * t.keep + i) k)
    | none => some (.fin false 0 1, false)
  else match (List.range t.keep).find? fun i => s.metaAt c t (k / 8) i n == k % 8 with
    | some i => some (s.elemAt c t (k / 8 * t.keep + i) n)
    | none => none

/-! ## Accumulation (05, R134, R136, R137) -/

/-- One level of the tree: neighbours are added, a value without a partner stays. -/
def pairUp (add : Num → Num → Num) : List Num → List Num
  | a :: b :: t => add a b :: pairUp add t
  | l => l

/-- The sum of one segment: four levels over its up to 16 block sums. -/
def segSum (add : Num → Num → Num) (l : List Num) : Num :=
  (pairUp add (pairUp add (pairUp add (pairUp add l)))).headD (.fin false 0 1)

/-- A block sum: exact, rounded once to FP32 unless the output is INT32; the sum of no product is +0. -/
def blockSum (isInt : Bool) (l : List Num) : Num :=
  if l.isEmpty then .fin false 0 1 else if isInt then Num.sum l else rne32 (Num.sum l)

/-- The addition between block and segment sums: FP32 to nearest even, or exact for INT32. -/
def accAdd (isInt : Bool) : Num → Num → Num := if isInt then Num.add else faddRne

/-- Segments `g0 ≤ g < g1` added to a running sum, `none` before the first. `p j` is block sum j, `nb` the block count. -/
def addSegs (isInt : Bool) (nb : Nat) (p : Nat → Num) (g0 g1 : Nat) (acc : Option Num) : Option Num :=
  (List.range (g1 - g0)).foldl (fun acc i =>
    let g := g0 + i
    let v := segSum (accAdd isInt) ((List.range (min 16 (nb - 16 * g))).map fun j => p (16 * g + j))
    match acc with | none => some v | some a => some (accAdd isInt a v)) acc

/-! ## Products -/

/-- MAC per cell and cycle of a product (05, R121). -/
def Prod.rate (p : Prod) : Nat :=
  pairRate (p.a.headD { format := 0 }).format (match p.segs with | g :: _ => (g.b.headD { format := 0 }).format | [] => 0)

def Prod.isInt (p : Prod) : Bool := p.outFormat == 0x0D
def Prod.blocks (p : Prod) : Nat := (p.k + 31) / 32

/-- K positions of one stationary tile (05, Table 5-1; 06, R155, R157). -/
def Prod.tileK (p : Prod) : Nat :=
  let nm := match p.segs with | g :: _ => (g.b.headD { format := 0 }).keep != 0 | [] => false
  512 * p.rate * (if nm && !p.transB then 2 else 1)

/-- The CD that holds a row of A and the row's place in its share (05, section 5.2; 06, R164). -/
def Prod.aHome (p : Prod) (r : Nat) : Option (Nat × Nat) :=
  if p.deal then some (r / 32 % 8, 32 * (r / 256) + r % 32)
  else (cds.find? fun c => let t := p.a.getD c { format := 0 }; t.firstRow ≤ r && r < t.firstRow + t.rows).map
    fun c => (c, r - (p.a.getD c { format := 0 }).firstRow)

/-- The CD whose share a slice reads or writes: its own where that holds the place (05, section 5.2), otherwise the lowest CD
whose share does. A tile may go to a slice that another unit map gives it, with the same result bits (05, R130, R139; 01, R14): that CD
then puts the bytes on the ring from its own slab, or takes them from it, as it does A rows and the rows of a C in deal layout (05, R132; 08,
R224; log 166). -/
def shareOf (l : List Tensor) (own : Nat) (holds : Tensor → Bool) : Option Nat :=
  if holds (l.getD own { format := 0 }) then some own else cds.find? fun c => holds (l.getD c { format := 0 })

/-- A share of B holds output column `n`. -/
def holdsCol (transB : Bool) (n : Nat) (t : Tensor) : Bool :=
  if transB then t.cols != 0 && decide (t.firstRow ≤ n) && decide (n < t.firstRow + t.rows)
  else t.rows != 0 && decide (t.firstCol ≤ n) && decide (n < t.firstCol + t.cols)

/-- A share of C holds row `r` and column `n`. -/
def holdsCell (r n : Nat) (t : Tensor) : Bool :=
  decide (t.firstRow ≤ r) && decide (r < t.firstRow + t.rows) && decide (t.firstCol ≤ n) && decide (n < t.firstCol + t.cols)

/-- The CD and share that hold output column `n` of B for slice `own`, and the column's place in the share. -/
def bHome (l : List Tensor) (transB : Bool) (own n : Nat) : Nat × Tensor × Nat :=
  let c := (shareOf l own (holdsCol transB n)).getD own
  let t := l.getD c { format := 0 }
  (c, t, n - (if transB then t.firstRow else t.firstCol))

/-- The CDs' shares of B for a tile. -/
def Prod.bShares (p : Prod) (t : Tile) : List Tensor := (p.segs.getD t.seg { m := 0, b := [] }).b

/-- Where the zero map's words of a row's group lie: CD, slab offset and length (06, R159). -/
def Prod.zWords (p : Prod) (row : Nat) : Option (Nat × Nat × Nat) :=
  match p.zmaps, p.aHome row with
  | some l, some (c, r) => some (c, l.getD c 0 + r / 32 * ((p.blocks + 63) / 64) * 8, (p.blocks + 63) / 64 * 8)
  | _, _ => none

/-- Bit (q, j) of the zero map, read where the row group's words lie (06, R159). -/
def State.zbit (s : State) (p : Prod) (row j : Nat) : Bool :=
  match p.zWords row with
  | none => false
  | some (c, off, _) => bit (s.slabField c (off + j / 64 * 8) 8) (j % 64)

/-- A block of a tile survives K compaction (06, R161). -/
def State.survives (s : State) (p : Prod) (t : Tile) (j : Nat) : Bool :=
  let a := (p.segs.getD t.seg { m := 0, b := [] }).aRow + t.row0
  !p.kcompact || (List.range ((a + t.rows + 31) / 32 - a / 32)).any fun i => !s.zbit p (max a ((a / 32 + i) * 32)) j

/-- Blocks of a tile that survive compaction, ascending. -/
def State.survivors (s : State) (p : Prod) (t : Tile) : List Nat := (List.range p.blocks).filter (s.survives p t)

/-- Passes of a tile, at least one step of output (05, R125; 06, R155, R161); output-stationary mode takes one. -/
def State.passes (s : State) (p : Prod) (t : Tile) : Nat :=
  if p.outStat then 1 else max 1 ((32 * (s.survivors p t).length + p.tileK - 1) / p.tileK)

/-- Segments whose last surviving block lies before the end of pass `q`. -/
def State.segsBy (s : State) (p : Prod) (t : Tile) (q : Nat) : Nat :=
  let ns := (p.blocks + 15) / 16
  if s.passes p t ≤ q + 1 then ns
  else
    let sv := s.survivors p t
    ((List.range ns).filter fun g =>
      let n := (sv.filter (· < 16 * (g + 1))).length
      n = 0 || (32 * (n - 1)) / p.tileK ≤ q).length

/-- Row of A that row `row` of a tile is. -/
def Prod.aRowOf (p : Prod) (t : Tile) (row : Nat) : Nat := (p.segs.getD t.seg { m := 0, b := [] }).aRow + t.row0 + row

/-! ## Stationary tiles (05, R125; 06, R153, R155) -/

/-- Blocks that pass `q` of a tile takes in. -/
def State.passBlocks (s : State) (p : Prod) (t : Tile) (q : Nat) : List Nat :=
  ((s.survivors p t).drop (q * p.tileK / 32)).take (p.tileK / 32)

/-- K indices of blocks. -/
def indicesOf (k : Nat) (l : List Nat) : List Nat := l.flatMap fun j => (List.range (min 32 (k - 32 * j))).map (32 * j + ·)

/-- The row of cells that holds K index `k`: what B has there, column by column. -/
def State.cellRow (s : State) (l : List Tensor) (transB : Bool) (own col0 cols k : Nat) : List (Option (Num × Bool)) :=
  (List.range cols).map fun j =>
    let (c, t, n) := bHome l transB own (col0 + j)
    s.bAt c t transB k n

/-- A stationary tile read from the slab. -/
def State.readPlane (s : State) (wld : Option Nat) (l : List Tensor) (transB : Bool) (own col0 cols : Nat) (ks : List Nat) : Plane :=
  { wld := wld, transB := transB, col0 := col0, cols := cols, ks := ks, cells := ks.map (s.cellRow l transB own col0 cols) }

/-- The first N:M group of a tile whose positions do not ascend: column of the operand and group (06, R153). -/
def State.badGroup (s : State) (l : List Tensor) (transB : Bool) (own col0 cols : Nat) (ks : List Nat) : Option (Nat × Nat) :=
  let cells := ks.flatMap fun k => (List.range cols).map fun j =>
    let (c, t, n) := bHome l transB own (col0 + j)
    if transB then (c, t, k, n / 8, k, (col0 + j) / 8) else (c, t, n, k / 8, col0 + j, k / 8)
  (cells.find? fun x => x.2.1.keep != 0 && !s.groupOk x.1 x.2.1 x.2.2.2.1 x.2.2.1).map (·.2.2.2.2)

/-- The cell that holds K index `k` and output column `n`. -/
def Plane.cell (x : Plane) (k n : Nat) : Option (Num × Bool) :=
  match x.ks.findIdx? (· == k) with
  | none => none
  | some i => ((x.cells.getD i []).getD (n - x.col0) none)

/-- The tile holds these columns and indices of the B that the product uses, in its orientation (05, R125, R129). -/
def Plane.serves (x : Plane) (p : Prod) (t : Tile) (ks : List Nat) : Bool :=
  x.wld == p.wld && p.wld.isSome && x.transB == p.transB && x.col0 == t.col0 && decide (t.cols ≤ x.cols) && ks.all x.ks.contains

/-- Rows of the old tile whose blocks belong to segments that the pass before `q` left open. -/
def State.carried (s : State) (p : Prod) (t : Tile) (q : Nat) (x : Plane) : Plane :=
  if q = 0 then { x with ks := [], cells := [] }
  else
    let l := (x.ks.zip x.cells).filter fun e => decide (s.segsBy p t (q - 1) ≤ e.1 / 512)
    { x with ks := l.map (·.1), cells := l.map (·.2) }

/-- Exact products of one block of one output element, with a poison mark (06, R156, R160): of the cells in weight-stationary mode, of
the slab's B in output-stationary mode (05, R125, R128). -/
def State.products (s : State) (p : Prod) (t : Tile) (row col j : Nat) : List Num × Bool :=
  match p.aHome (p.aRowOf t row) with
  | none => ([], false)
  | some (c, r) =>
    let ta := p.a.getD c { format := 0 }
    let (cb, tb, n) := bHome (p.bShares t) p.transB t.cd (t.col0 + col)
    let plane := Tbl.get {} s.arr.planes t.cd
    (List.range (min 32 (p.k - 32 * j))).foldl (fun acc i =>
      match if p.outStat then s.bAt cb tb p.transB (32 * j + i) n else plane.cell (32 * j + i) (t.col0 + col) with
      | none => acc
      | some (y, q) => let x := s.elemAt c ta r (32 * j + i); (acc.1 ++ [x.1.mul y], acc.2 || x.2 || q)) ([], false)

/-- Block sum j of one output element: a block that the zero map marks is a present +0 (06, R160). -/
def State.pSum (s : State) (p : Prod) (t : Tile) (row col j : Nat) : Num :=
  if s.zbit p (p.aRowOf t row) j then .fin false 0 1
  else blockSum p.isInt (s.products p t row col j).1

/-- A poisoned byte enters row `row` of the tile in blocks of segments g0 to g1 − 1, or in its zero map. -/
def State.rowPoison (s : State) (p : Prod) (t : Tile) (row g0 g1 : Nat) : Bool :=
  (p.zWords (p.aRowOf t row)).any (fun z => anyPoison (s.slabBytes z.1 z.2.1 z.2.2))
    || (List.range (min p.blocks (16 * g1) - 16 * g0)).any fun i =>
      !s.zbit p (p.aRowOf t row) (16 * g0 + i) && (List.range t.cols).any fun col => (s.products p t row col (16 * g0 + i)).2

/-- One row of running sums after pass `q` (05, R127). -/
def State.rowPass (s : State) (p : Prod) (t : Tile) (row q : Nat) : List Num :=
  let g0 := if q = 0 then 0 else s.segsBy p t (q - 1)
  let old := Tbl.get [] s.arr.acc (1024 * t.cd + row)
  (List.range t.cols).map fun col =>
    (addSegs p.isInt p.blocks (s.pSum p t row col) g0 (s.segsBy p t q) (if q = 0 then none else old[col]?)).getD (.fin false 0 1)

/-- The output element that a store names: the CD, slab offset and bytes of C's row and column. -/
def Prod.cAddr (p : Prod) (t : Tile) (row col : Nat) : Nat × Nat × Nat :=
  let g := p.segs.getD t.seg { m := 0, b := [] }
  let size := elemBits p.outFormat / 8
  let r := g.cRow + t.row0 + row
  if p.deal then
    let tc := p.c.getD 0 { format := 0 }
    (r / 32 % 8, tc.base + (32 * (r / 256) + r % 32) * tc.rowStride + (t.col0 + col) * size, size)
  else
    let c := (shareOf p.c t.cd (holdsCell r (t.col0 + col))).getD t.cd
    let tc := p.c.getD c { format := 0 }
    (c, tc.base + (r - tc.firstRow) * tc.rowStride + (t.col0 + col - tc.firstCol) * size, size)

/-- The running sum with C added, where the operation accumulates (05, R134). -/
def State.withC (s : State) (p : Prod) (t : Tile) (row col : Nat) (acc : Num) : Num × Bool :=
  if !p.accumulate then (acc, false)
  else
    let (c, off, size) := p.cAddr t row col
    (accAdd p.isInt acc (decodeElem p.outFormat (s.slabField c off size)), anyPoison (s.slabBytes c off size))

/-- Write one finished row of a tile to C, and count its conversions into `k` (05, R134, R142). -/
def State.writeRow (s : State) (p : Prod) (t : Tile) (row : Nat) (acc : List Num) : State × Conv × Bool :=
  let outs := acc.zipIdx.map fun x =>
    let v := s.withC p t row x.2 x.1
    (convert p.outFormat p.rnd ((t.row0 + row) * p.n + t.col0 + x.2) v.1, p.cAddr t row x.2, v.2)
  (s.putRuns (outs.map fun x => (x.2.1.1, x.2.1.2.1, good (leBytes x.2.1.2.2 x.1.code))),
    outs.foldl (fun k x => k.plus x.1.under x.1.sat x.1.nan) {}, outs.any (·.2.2))

/-! ## Tiles (05, R130, R131) -/

/-- Tiles of one run, N varying fastest, without their slices. -/
def tilesOf (seg m n tr tc : Nat) : List Tile :=
  (List.range ((m + tr - 1) / tr)).flatMap fun i => (List.range ((n + tc - 1) / tc)).map fun j =>
    { seg := seg, row0 := i * tr, rows := min tr (m - i * tr), col0 := j * tc, cols := min tc (n - j * tc), cd := 0 }

/-- The active slice of least assigned time, lowest index on a tie. -/
def leastSlice (mode : Nat → Nat) (time : List Nat) : Option Nat :=
  (cds.filter fun c => mode c != 3).foldl (fun b c =>
    match b with
    | none => some c
    | some d => if time.getD c 0 < time.getD d 0 then some c else b) none

/-- Deal tiles to slices: 1 for a full slice, 2 for a narrow one. -/
def dealTiles (mode : Nat → Nat) : List Nat → List Tile → List Tile
  | _, [] => []
  | time, t :: rest =>
    match leastSlice mode time with
    | none => []
    | some c => { t with cd := c } :: dealTiles mode (time.set c (time.getD c 0 + (if mode c = 0 then 1 else 2))) rest

/-- A tile on a slice in narrow mode runs in two halves of 256 columns (05, R131). -/
def halves (mode : Nat → Nat) (t : Tile) : List Tile :=
  if mode t.cd = 0 || t.cols ≤ 256 then [t]
  else [{ t with cols := 256 }, { t with col0 := t.col0 + 256, cols := t.cols - 256 }]

/-- All tiles of a product with their slices, or none when a map or the unit map refuses them (05, R130, R131). -/
def State.mapTiles (s : State) (p : Prod) (tm : Option (List Nat)) : Option (List Tile) :=
  let tr := if p.outStat then 512 else p.tileRows
  let l := p.segs.zipIdx.flatMap fun g => tilesOf g.2 g.1.m p.n tr 512
  match tm with
  | none => if l.isEmpty || cds.any (fun c => s.sliceMode c != 3) then some ((dealTiles s.sliceMode (List.replicate 8 0) l).flatMap (halves s.sliceMode)) else none
  | some m =>
    if m.length ≠ l.length || m.any (fun c => 7 < c || s.sliceMode c == 3) then none
    else some ((l.zip m).flatMap fun x => halves s.sliceMode { x.1 with cd := x.2 })

/-! ## The activation ring (05, R132, R133) -/

/-- The die after a CD on the ring (05, section 5.4.2). -/
def ringNext (c : Nat) : Nat := [1, 2, 3, 7, 0, 4, 5, 6].getD c 0
/-- The die before it. -/
def ringPrev (c : Nat) : Nat := [4, 0, 1, 2, 5, 6, 7, 3].getD c 0

/-- The ring's edges from die `h` on to die `c`, at most seven. -/
def ringPath : Nat → Nat → Nat → List (Nat × Nat)
  | 0, _, _ => []
  | f + 1, h, c => if h = c then [] else (h, ringNext h) :: ringPath f (ringNext h) c

/-- The array owns a slot on every ring edge from die `h` to die `c`, and what crosses it is accepted (05, R132, R142). -/
def State.ringOpen (s : State) (h c : Nat) : Bool := (ringPath 7 h c).all fun e => s.hopOpen .array ⟨false, e.1, e.2⟩

/-- The array owns slots where slice `c` reads columns `col0` on of B: on the slab ports of the shares that hold them, and on the ring from
a share on another CD (03, R79; 05, R125, R128). -/
def State.sharesOpen (s : State) (l : List Tensor) (transB : Bool) (c col0 cols : Nat) : Bool :=
  ((List.range cols).map fun i => let x := bHome l transB c (col0 + i); (x.1, x.2.1)).eraseDups.all fun x =>
    s.partsOpen .array x.1 (shareParts x.2 (keptRows x.2 x.2.rows)) && s.ringOpen x.1 c

/-- The array owns slots where slice `c` writes a row of C, and reads it when it accumulates: on the slab port of each element, and on the
ring to it and from it (03, R79; 05, R132, R134). -/
def State.outOpen (s : State) (p : Prod) (t : Tile) (c row : Nat) : Bool :=
  ((List.range t.cols).map fun i => p.cAddr t row i).all fun a =>
    s.memOpen .array (slabAddr a.1 a.2.1) a.2.2 && s.ringOpen c a.1 && (!p.accumulate || s.ringOpen a.1 c)

/-- The array owns slots where a row of a tile needs them: on the slab ports of its A row and zero-map words, on the ring from there, on
the ports of B in an output-stationary tile, and on those of the row of C (03, R79; 05, R128, R132; 06, R159). -/
def State.rowSlots (s : State) (p : Prod) (t : Tile) (c row : Nat) (first write : Bool) : Bool :=
  (match p.aHome (p.aRowOf t row) with
    | none => true
    | some (h, r) => s.partsOpen .array h (rowParts (p.a.getD h { format := 0 }) r) && s.ringOpen h c)
    && (match p.zWords (p.aRowOf t row) with
      | none => true
      | some z => s.partsOpen .array z.1 [z.2])
    && (!(first && p.outStat) || s.sharesOpen (p.bShares t) p.transB c t.col0 t.cols)
    && (!write || s.outOpen p t c row)

/-- The tiles of one slice, in order. -/
def Prod.tilesFor (p : Prod) (c : Nat) : List Tile := p.tiles.filter (·.cd == c)

end Sys2Proof.Machine
end

