-- ==== Sys2Proof/Machine/Scalar.lean ====
section
/-! DEFINITION. Scalar, scalar-memory and special-read instructions, and the landing of their results (03, Table 3-3, R66,
R67, R89, R588, R591; 07, R192). -/

namespace Sys2Proof.Machine

/-- A scalar operation on two operands: its result lands before the next instruction of the stream can issue (03, R66;
log 21). -/
def State.scalar2 (s : State) (i : Issue) (d : Dst) (a b : Src) (f : Word → Word → Word) : State :=
  s.issueNow i 0 [d] (srcReg a ++ srcReg b) fun s => s.put i.cd.val d (f (s.src i.cd.val a) (s.src i.cd.val b))

def execAdd (i : Issue) (d : Dst) (a b : Src) (s : State) : Res := .next (s.scalar2 i d a b fun x y => x + y)
def execSub (i : Issue) (d : Dst) (a b : Src) (s : State) : Res := .next (s.scalar2 i d a b fun x y => x - y)
def execMul (i : Issue) (d : Dst) (a b : Src) (s : State) : Res := .next (s.scalar2 i d a b fun x y => x * y)
def execAnd (i : Issue) (d : Dst) (a b : Src) (s : State) : Res := .next (s.scalar2 i d a b fun x y => x &&& y)
def execOr (i : Issue) (d : Dst) (a b : Src) (s : State) : Res := .next (s.scalar2 i d a b fun x y => x ||| y)
def execXor (i : Issue) (d : Dst) (a b : Src) (s : State) : Res := .next (s.scalar2 i d a b fun x y => x ^^^ y)
def execShl (i : Issue) (d : Dst) (a b : Src) (s : State) : Res := .next (s.scalar2 i d a b fun x y => x <<< shiftCount y)
def execShr (i : Issue) (d : Dst) (a b : Src) (s : State) : Res := .next (s.scalar2 i d a b fun x y => x >>> shiftCount y)
def execSra (i : Issue) (d : Dst) (a b : Src) (s : State) : Res := .next (s.scalar2 i d a b fun x y => x.sshiftRight (shiftCount y))
def execMin (i : Issue) (d : Dst) (a b : Src) (s : State) : Res := .next (s.scalar2 i d a b signedMin)
def execMax (i : Issue) (d : Dst) (a b : Src) (s : State) : Res := .next (s.scalar2 i d a b signedMax)
def execMinu (i : Issue) (d : Dst) (a b : Src) (s : State) : Res := .next (s.scalar2 i d a b unsignedMin)
def execMaxu (i : Issue) (d : Dst) (a b : Src) (s : State) : Res := .next (s.scalar2 i d a b unsignedMax)
def execMov (i : Issue) (d : Dst) (a : Src) (s : State) : Res := .next (s.scalar2 i d a (.imm 0) fun x _ => x)
def execLi (i : Issue) (d : Dst) (v : Word) (s : State) : Res := .next (s.scalar2 i d (.imm v) (.imm 0) fun x _ => x)
def execCmpCc (i : Issue) (cc : Cc) (d : Dst) (a b : Src) (s : State) : Res :=
  .next (s.scalar2 i d a b fun x y => if ccHolds cc x y then 1 else 0)

/-- A special read: its value lands before the next instruction can issue. -/
def State.special (s : State) (i : Issue) (d : Dst) (f : State → Word × State) : State :=
  s.issueNow i 2 [d] [] fun s => let (v, s) := f s; s.put i.cd.val d v

def execCdid (i : Issue) (d : Dst) (s : State) : Res := .next (s.special i d fun s => (BitVec.ofNat 64 i.cd.val, s))
def execRdcyc (i : Issue) (d : Dst) (s : State) : Res := .next (s.special i d fun s => ((s.seq i.cd.val).ctx.cyc, s))
/-- RDTIME reads the timebase (13, R386; log 22). -/
def execRdtime (i : Issue) (d : Dst) (s : State) : Res := .next (s.special i d fun s => (s.time.ns, s))
/-- RDTEL reads a telemetry word whose layout the spec does not give: a free value (log 3). -/
def execRdtel (i : Issue) (d : Dst) (s : State) : Res := .next (s.special i d State.free)
/-- SEED.HW reads 64 bits of the S-core's random source: a free value (log 3). -/
def execSeedHw (i : Issue) (d : Dst) (s : State) : Res := .next (s.special i d State.free)

/-- Put a pending register write (03, R66). -/
def State.pend (s : State) (c : Nat) (p : Pend) : State := s.modSeq c fun q => { q with pend := q.pend ++ [p] }

/-- Slab offsets of LD.N and ST.N: 8-byte aligned and populated (03, R67). -/
def narrowOk (o : Word) : Bool := o.toNat % 8 == 0 && decide (o.toNat + 8 ≤ slabSize)

/-- The narrow view of CD `c` serves a request at a slab offset as it comes: the active phase gives it a slot on the bank's port, and no
request of that bank waits before it (03, R79; 08, R220, R222; log 23). -/
def State.narrowServes (s : State) (c off : Nat) : Bool :=
  s.ownsPort c off .narrow && !s.ops.any fun o => o.cd == c && o.unit == .narrow && o.vals.getD 0 0 / 0xA00000 == off / 0xA00000

/-- LD.N: one word of the own slab (03, R67; 08, R222, R241). The word is read at issue and lands later (log 23); with no slot in the
active phase the request waits for a later one (03, R79). -/
def execLdN (i : Issue) (d : Dst) (off : Src) (s : State) : Res :=
  .next (s.issue i 1 [d] (srcReg off) none fun s =>
    let c := i.cd.val
    let o := s.src c off
    if !narrowOk o then .stop (s.windowFault c o.toNat 8 0x105)
    else if !s.narrowServes c o.toNat then
      .run (((s.pend c { dst := d, src := .ldn, done := doneOf i, op := some s.nextOp }).pushOp c .narrow (.ldN i d off) []
        false [] [o.toNat]).signalIssue i)
    else
      let v := s.readSlot 0 (slabAddr c o.toNat) 8
      if anyPoison v then .stop (s.poisonHalt c (slabAddr c o.toNat) 4)
      else .run ((s.pend c { dst := d, src := .ldn, value := some (BitVec.ofNat 64 (leNat (plain v))), done := doneOf i }).signalIssue i))

/-- ST.N: one word of the own slab, written at issue (03, R67; 08, R222; log 23), or in a later phase when the active one gives no slot. -/
def execStN (i : Issue) (off v : Src) (s : State) : Res :=
  .next (s.issue i 1 [] (srcReg off ++ srcReg v) none fun s =>
    let c := i.cd.val
    let o := s.src c off
    if !narrowOk o then .stop (s.windowFault c o.toNat 8 0x105)
    else if !s.narrowServes c o.toNat then
      let done := match doneOf i with | some t => [(c, t)] | none => []
      .run ((s.pushOp c .narrow (.stN i off v) done false [] [o.toNat, (s.src c v).toNat]).signalIssue i)
    else .run ((s.writeSlot 0 (slabAddr c o.toNat) (good (leBytes 8 (s.src c v).toNat))).signalNow i))

/-- A waiting request of the narrow view gets its slot (08, R222; 03, R67, R79): an ST.N writes, an LD.N reads the word that lands later. -/
def State.narrowServe (s : State) (o : Op) : State :=
  let c := o.cd
  let a := slabAddr c (o.vals.getD 0 0)
  match o.vals[1]? with
  | some v => (s.writeSlot 0 a (good (leBytes 8 v))).retire o
  | none =>
    let v := s.readSlot 0 a 8
    if anyPoison v then (s.dropOps [o.id]).poisonHalt c a 4
    else
      let land := fun (p : Pend) =>
        if p.op = some o.id then { p with value := some (BitVec.ofNat 64 (leNat (plain v))), op := none } else p
      ({ s with ops := s.ops.filter (·.id ≠ o.id) } : State).modSeq c fun q => { q with pend := q.pend.map land }

/-- The waiting requests of CD `c` that the active phase gives a slot, in issue order (08, R222). -/
def State.narrowServeAll (s : State) (c : Nat) : State :=
  (s.ops.filter fun o => o.cd == c && o.unit == .narrow && s.ownsPort c (o.vals.getD 0 0) .narrow).foldl State.narrowServe s

/-- LD.C: one word of the deck's constant pool (03, R591). -/
def execLdC (i : Issue) (d : Dst) (off : Src) (s : State) : Res :=
  .next (s.issue i 1 [d] (srcReg off) none fun s =>
    let c := i.cd.val
    let o := (s.src c off).toNat
    let k := s.playDeck
    let e := s.playEntry
    if o % 8 ≠ 0 || k.constSize < o + 8 then .stop (s.windowFault c o 8 0x106)
    else match translate e (e.deckHandle + k.constOff + o) 8 .x with
      | none => .stop (s.windowFault c (e.deckHandle + k.constOff + o) 8 (windowOf (e.deckHandle + k.constOff + o)))
      | some (dev, w) =>
        let v := if routeOf dev = 0 then s.readSlot (slotOf e w) dev 8
          else ((s.seat s.playSeat).consts.drop o).take 8
        if anyPoison v then .stop (s.poisonHalt c dev 4)
        else .run ((s.pend c { dst := d, src := .ldc, value := some (BitVec.ofNat 64 (leNat (plain v))), done := doneOf i }).signalIssue i))

/-- Take the first pending write that passes `ok` off a sequencer, and land it: the register is written and the @done
signal acts (03, R63, R66). -/
def State.land (s : State) (c : Nat) (ok : Pend → Bool) : State :=
  match (s.seq c).pend.find? ok with
  | none => s
  | some p =>
    match p.value with
    | none => s
    | some v =>
      let s := s.modSeq c fun q => { q with pend := q.pend.eraseP ok }
      let s := s.put c p.dst v
      match p.done with
      | none => s
      | some t => s.signalOf c 0 s.playSeat t

/-- REGISTER_RESULT_LAND: a pending result of LD.N, LD.C, TLD, VRED, RDX or TADD.R lands (03, R66; 09, R271, R280). A read of a package tally lands
once its IPS link has accepted it both ways (10, R299). -/
def execRegisterResultLand (cd : Cd) (d : Dst) (s : State) : Res :=
  let crossed := s.messageClear cd.val 8 && s.messageClear 8 cd.val
  .next (s.land cd.val fun p => p.dst == d && p.value.isSome && p.src != .lock && (crossed || !p.tally.any (·.1 == 8)))

/-- VLEN: vl takes a value from 0 to 1,024; a larger one halts the seat (07, R192). -/
def execVlen (i : Issue) (v : Src) (s : State) : Res :=
  .next (s.issue i 3 [] (srcReg v) none fun s =>
    let c := i.cd.val
    let n := (s.src c v).toNat
    if 1024 < n then .stop (s.issueFault c 3)
    else .run ((s.modSeq c fun q => { q with ctx := { q.ctx with vl := BitVec.ofNat 11 n } }).signalNow i))

end Sys2Proof.Machine
end

