-- ==== Sys2Proof/Machine/SeatCmd.lean ====
section
/-! DEFINITION. Seat commands from doorbells and SEAT_CMD, and the end of the loads, resets and scrubs they start (02,
sections 2.3.1 and 2.6). -/

namespace Sys2Proof.Machine

/-- Report a command's outcome in the register of its port (02, Tables 2-5 and 2-10). A hint that does not fit the 16-bit
field reads as its maximum (log 16). -/
def State.respond (s : State) (p : CmdPort) (code n : Nat) (st : Status) (retry : Nat := 0) : State :=
  let (retry, s) := s.hinted st retry
  match p with
  | .doorbell f => s.modFn f.val fun q => { q with
      dbStatus := statusCode st, dbCommand := BitVec.ofNat 4 code, dbSeat := BitVec.ofNat 12 n
      dbRetry := BitVec.ofNat 16 (min retry 0xFFFF), dbSeq := q.dbSeq + 1 }
  | .seatCmd => { s with host := { s.host with
      cmdBusy := none, cmdStatus := statusCode st, cmdCommand := BitVec.ofNat 4 code, cmdSeat := BitVec.ofNat 12 n
      cmdRetry := BitVec.ofNat 16 (min retry 0xFFFF), cmdSeq := s.host.cmdSeq + 1 } }

/-- The function that a port belongs to. -/
def portFn : CmdPort → Nat
  | .doorbell f => f.val
  | .seatCmd => 0

/-- Microseconds from now to a timebase moment, at least 1. -/
def State.usUntil (s : State) (t : Nat) : Nat := max 1 ((t - s.ns + 999) / 1000)

/-- R49: what a command reports outside LIVE; none in LIVE and in DOZE. -/
def notLive : DevState → Option (Status × Nat)
  | .live | .doze => none
  | .recovering => some (.busy, 1000000)
  | .staging => some (.busy, 100000)
  | .folded => some (.folded, 0)
  | _ => some (.busy, 0)

/-- An FLR of VF `f` is in progress while a seat of it is still RESETTING from that FLR (02, section 2.6 edges). -/
def State.flrBusy (s : State) (f : Nat) : Bool :=
  f ≠ 0 && s.seats.any fun e => e.2.entry.owner == f && e.2.resetting.any (·.2 == 2)

/-- The checks of R32 that come before the seat's state is looked at, in order, then the FLR edge and the RELEASE in
progress (02, R32, R44). -/
def State.preJudge (s : State) (p : CmdPort) (op : SeatOp) (n : Nat) : Option (Status × Nat) :=
  let i := s.seat n
  if s.entries ≤ n then some (.notFound, 0)
  else if i.state = .free && op ≠ .activate then some (.notFound, 0)
  else if portFn p ≠ 0 && i.entry.owner ≠ portFn p then some (.noAccess, 0)
  else if portFn p ≠ 0 && s.flrBusy (portFn p) then some (.busy, 100000)
  else match i.releasing with
    | some t => some (.busy, s.usUntil t)
    | none => none

/-- The commands that a folded seat refuses, whatever Table 2-15 gives for its state (18, R520). -/
def State.foldRefuses (s : State) (op : SeatOp) (n : Nat) : Bool :=
  (s.seat n).folded && (op = .play || op = .resume || op = .reset || op = .seat || op = .pin)

/-- The owner function that the entry of seat `n` names now: in the table while the seat is PARKED, where PF 0 may rewrite it (02, R26,
R40). -/
def State.ownerNow (s : State) (n : Nat) : Nat :=
  if (s.seat n).state = .parked && !(s.seat n).cached then field (plain (s.tableRaw n)) 4 1 else (s.seat n).entry.owner

/-- The commands that a PARKED seat refuses because its owner VF is gone (02, R26) or the unit map does not fit (05, R139). -/
def State.barred (s : State) (op : SeatOp) (n : Nat) : Option Status :=
  if (s.seat n).state = .parked && (op = .play || op = .seat || op = .pin || op = .reset) then
    if !s.fnEnabled (s.ownerNow n) then some .badArg
    else if !s.mapOk n then some .unsupported
    else none
  else none

/-- Most seats that may be pinned (02, Table 2-10: values above 56 act as 56). -/
def State.pinMax (s : State) : Nat := min s.host.pinLimit.toNat 56

/-- What Table 2-15 gives for a command in the shown state: refused, busy, done with nothing to do, or an effect. -/
inductive Verdict where
  | done (st : Status) (retry : Nat)
  | act
deriving DecidableEq, Repr

/-- Table 2-15, and the rules around it that decide on a status (02, R45, R47, R56). -/
def State.judge (s : State) (op : SeatOp) (n : Nat) : Verdict :=
  let i := s.seat n
  let busy := Verdict.done .busy (match i.resetting with
    | some (t, _) => s.usUntil (t.toNat % 2 ^ 60 + 50000000)
    | none => 1)
  match op, s.shown n with
  | .activate, .free => .act
  | .activate, _ => .done .conflict 0
  | _, .free => .done .notFound 0
  | .reset, .resetting => .done .ok 0
  | .release, .resetting => .done .conflict 0
  | _, .resetting => busy
  | .play, .halted => .done .conflict 0
  | .play, _ => .act
  | .halt, .halted => .done .ok 0
  | .halt, _ => .act
  | .resume, .halted => if i.fromPlaying && !i.slabIntact then .done .dataLost 0 else .act
  | .resume, _ => .done .conflict 0
  | .reset, _ => .act
  | .seat, .parked => .act
  | .seat, _ => .done .ok 0
  | .park, .parked => .done .ok 0
  | .park, .playing => .done .conflict 0
  | .park, _ => .act
  | .release, .playing => .done .conflict 0
  | .release, _ => .act
  | .pin, _ => if i.pinned then .done .ok 0 else if s.pinMax ≤ s.pinnedCount then .done .overflow 0 else .act
  | .unpin, .parked => .done .ok 0
  | .unpin, _ => .act

/-- Near-tier bytes that a release scrub writes on the busiest CD (19, R553 step 3). -/
def scrubBytes (e : Entry) : Nat :=
  cds.foldl (fun m c => max m ((e.windows.filter fun w => w.w && w.size ≠ 0 && target w.base == .near c).foldl
    (fun t w => t + w.size) 0)) 0

/-- CCLK period in ps at divider `d`. -/
def cclkPs (d : Nat) : Nat := 125 * d

/-- The effect of a command that Table 2-15 lets act, on a seat with no load or switch in progress. PARK also clears the pending flag
(DESIGN CHOICE: Table 2-15 gives only the new state, log 141). -/
def State.actOn (s : State) (op : SeatOp) (n : Nat) : State :=
  let i := s.seat n
  match op with
  | .play => let s := s.setPending n; if i.state = .parked then s.startLoad n .play else s
  | .halt =>
    let s := s.clearPending n
    match i.state with
    | .playing => s.haltPlay 0x01
    | .seated => (s.modSeat n fun j => { j with fromPlaying := false }).setSeat n .halted (some 0x01)
    | _ => s
  | .resume => (s.setSeat n .seated).setPending n
  | .reset => s.beginReset n 1
  | .seat => s.startLoad n .seat
  | .park => (s.clearPending n).unseat n
  | .release =>
    let t := s.ns + 1000000 + scrubBytes i.entry / 64 * cclkPs s.clk.div / 1000
    let s := s.abandonEpoch n .receiverReset
    let s := s.closeDummy n
    s.modSeat n fun j => { j with releasing := some t, pending := none, pinned := false }
  | .pin => if i.cached then s.modSeat n fun j => { j with pinned := true } else s.startLoad n .pin
  | .unpin => s.modSeat n fun j => { j with pinned := false }
  | .activate => s

/-- The effect of a command judged while a load of the seat was in progress, against PARKED (02, R44, Table 2-15). -/
def State.actParked (s : State) (op : SeatOp) (n : Nat) : State :=
  match op with
  | .play => (s.setPending n).startLoad n .play
  | .halt => s.clearPending n
  | .reset => s.beginReset n 1
  | .release => s.actOn .release n
  | .pin => if s.pinMax ≤ s.pinnedCount || !(s.seat n).cached then s else s.modSeat n fun j => { j with pinned := true }
  | _ => s

/-- A step of the seat is in progress: its load, or a switch into or out of it (02, R44). -/
def State.stepping (s : State) (n : Nat) : Bool :=
  (s.seat n).loading.isSome || (s.chosen = some n && (s.seat n).cached)
    || s.play.any fun p => p.seat == n && (p.phase = .leaving || p.phase = .switching)

/-- Commands that stay busy until a later command ends them: SEAT and PIN of a seat that must be loaded, RELEASE. -/
def staysBusy (op : SeatOp) (cached : Bool) : Bool :=
  match op with
  | .seat | .pin => !cached
  | .release => true
  | _ => false

/-- Judge and run one command in LIVE (02, R44, R45). -/
def State.runCmd (s : State) (p : CmdPort) (op : SeatOp) (n : Nat) : State :=
  match s.preJudge p op n with
  | some (st, r) => s.respond p (opCode op) n st r
  | none =>
    if s.foldRefuses op n then s.respond p (opCode op) n .folded
    else match s.barred op n with
    | some st => s.respond p (opCode op) n st
    | none =>
      match s.judge op n with
      | .done st r => s.respond p (opCode op) n st r
      | .act =>
        let hold := staysBusy op (s.seat n).cached
        let s' :=
          if s.stepping n then
            if op = .unpin || (op = .pin && (s.seat n).cached) then s.actOn op n
            else s.modSeat n fun i => { i with deferred := i.deferred ++ [op] }
          else s.actOn op n
        if hold then { s' with host := { s'.host with cmdBusy := some { op := op, port := p, seat := n }, cmdLost := false } }
        else s'.respond p (opCode op) n .ok

/-! ## ACTIVATE (02, R45; 03, R84; 16, R475; 19, R551) -/

/-- A deck header from its 512 bytes (03, Table 3-7). -/
def parseDeck (b : List Byte) : Deck :=
  { magic := field b 0 4, fciVersion := field b 4 2, headerSize := field b 6 2, flags := field b 8 4, size := field b 0xC 4
    minFirmware := field b 0x10 3, part := field b 0x14 2, cdTallies := field b 0x18 2, pkgTallies := field b 0x1A 2
    locks := field b 0x1C 2, groups := field b 0x1E 2, hostSignals := field b 0x20 3, phaseCount := field b 0x24 1
    unitMapReq := field b 0x25 1, eprogCount := field b 0x26 2, phaseOff := field b 0x28 4, eprogOff := field b 0x2C 4
    constOff := field b 0x30 4, constSize := field b 0x34 4
    streams := (List.range 8).map fun n =>
      { off := field b (0x40 + 16 * n) 4, len := field b (0x44 + 16 * n) 4, entry := field b (0x48 + 16 * n) 4 }
    digest := field b 0xC0 48 }

/-- Bytes of one phase record (03, R587). -/
def phaseBytes : Nat := 159744

/-- The regions of a deck: header, streams, phase table, element programs, constants (03, R83). -/
def deckRegions (d : Deck) (eprogBytes : Nat) : List (Nat × Nat) :=
  [(0, 512), (d.phaseOff, phaseBytes * d.phaseCount), (d.eprogOff, eprogBytes), (d.constOff, d.constSize)]
    ++ d.streams.map fun t => (t.off, t.len)

/-- No two regions of a list overlap. -/
def disjoint : List (Nat × Nat) → Bool
  | [] => true
  | r :: t => t.all (fun q => !overlap r.1 r.2 q.1 q.2) && disjoint t

/-- Table 3-8, row 1. -/
def deckShape (e : Entry) (d : Deck) (eprogBytes : Nat) : Bool :=
  d.magic == 0x4B434544 && d.headerSize == 0x200 && decide (4096 ≤ d.size) && decide (d.size ≤ 2 ^ 32 - 4096)
  && decide (1 ≤ d.phaseCount) && decide (d.phaseCount ≤ 64) && decide (d.eprogCount ≤ 4096) && decide (d.unitMapReq ≤ 1)
  && d.phaseOff % 64 == 0 && d.constOff % 64 == 0
  && d.streams.all (fun t => t.off % 64 == 0 && decide (64 ≤ t.len) && decide (t.entry < t.len))
  && (deckRegions d eprogBytes).all (fun r => decide (r.1 + r.2 ≤ d.size))
  && disjoint (deckRegions d eprogBytes)
  && (translate e e.deckHandle d.size .x).isSome

/-- Table 3-8, rows 1 to 4, in order. -/
def State.deckFirst (s : State) (e : Entry) (d : Deck) (eprogBytes : Nat) : Status :=
  if !deckShape e d eprogBytes then .badArg
  else if d.fciVersion / 256 ≠ 3 || (decide (0 < d.fciVersion % 256) && decide (fciMinorMax < d.fciVersion % 256)) then .version
  else if s.fw.version < d.minFirmware then .version
  else if !(d.part = 0 || d.part = 8) || (bit d.flags 1 && d.part ≠ 8) then .unsupported
  else .ok

/-- Table 3-8, row 8: owner codes of the phase table. -/
def ownersOk (phases : List Byte) (count : Nat) : Bool :=
  (List.range count).all fun p => (List.range 8).all fun cd =>
    let b := (phases.drop (phaseBytes * p + 19968 * cd)).take 19968
    ownerMaps.all fun (at0, n, rule, ch) => (List.range n).all fun k =>
      let c := ownerCode b (at0 + k)
      decide (c ≤ 0xB) && (!mustBeIdle cd rule ch k || c == 0)

/-- Table 3-8, rows 5 to 9, in order, over the deck's bytes. -/
def State.deckRest (s : State) (e : Entry) (d : Deck) (bytes : List Byte) : Status :=
  if sha384 ((bytes.take d.size).drop 0x200) ≠ d.digest then .integrity
  else if e.cdCount < d.cdTallies || e.pkgCount < d.pkgTallies || e.lockCount < d.locks || e.groupQuota < d.groups then .badArg
  else if bit d.flags 3 && !e.balance then .badArg
  else if !ownersOk (bytes.drop d.phaseOff) d.phaseCount then .badArg
  else if d.unitMapReq = 1 && !s.allFull then .unsupported
  else .ok

/-- An element-program instruction writes no m0 and uses at most one immediate, and its format code is one of Table 4-1 (07, R202; 04,
R92). -/
def estepOk (i : EStep) : Bool :=
  let imms := fun (l : List EOp) => (l.filter fun o => match o with | .imm _ => true | _ => false).length
  match i.op with
  | .bin _ _ a b => decide (imms [a, b] ≤ 1)
  | .fma _ a b c => decide (imms [a, b, c] ≤ 1)
  | .fsel _ _ a b => decide (imms [a, b] ≤ 1)
  | .fcmp _ m a b | .icmp _ m a b => m ≠ 0 && decide (imms [a, b] ≤ 1)
  | .cvt f _ _ => (fmtOf f).isSome
  | .mand d _ _ | .mor d _ _ | .mnot d _ => d ≠ 0
  | _ => true

/-- An element program is one that ACTIVATE accepts (07, R202). -/
def eprogOk (p : List EStep) : Bool := decide (p.length ≤ 32) && p.all estepOk

/-- The immediates of an MVP instruction lie in their ranges (05, R150, Table 5-8). -/
def mvpImmOk (m : MvpImm) : Bool :=
  decide (1 ≤ m.batch) && decide (m.batch ≤ 8) && m.keep == 0
    && m.k.all fun k => decide (k ≤ 1048576) && decide ((m.batch * k * elemBits m.xFormat + 7) / 8 ≤ 262144)

/-- What ACTIVATE judges of the private encodings: format codes (04, R92), refused products (R118), MVP immediates (05, R150), element
programs (07, R202). -/
def factsOk (f : DeckFacts) : Bool :=
  f.formats.all (fun c => (fmtOf c).isSome) && f.pairs.all (fun p => pairOk p.1 p.2.1 p.2.2) && f.mvps.all mvpImmOk
    && f.eprogs.all eprogOk && f.rangesOk

/-- A range that a staged update occupies meets a window, context area or dummy area of the entry (16, R475). -/
def State.stageClash (s : State) (e : Entry) : Bool :=
  match s.fw.stage with
  | none => false
  | some a => e.windows.any (fun w => w.size ≠ 0 && windowMeets w a 0x2000000) || overlap e.contextArea 4096 a 0x2000000
      || (e.epochPeriod ≠ 0 && overlap e.dummyBase (2 * e.dummyHalf) a 0x2000000)

/-- The next read of a deck that lies outside the package: its bytes from `off` on, at most 4,096 of them (02, R45; 03, R84). -/
def State.deckRead (s : State) (n off len : Nat) : State :=
  let e := (s.seat n).entry
  match translate e e.deckHandle 512 .x with
  | none => s
  | some (dev, _) =>
    if routeOf dev = 1 then
      s.emit (.hostRead e.owner 0x2000 ((s.fn e.owner).hostUpper.toNat * 2 ^ 48 + (dev + off) % 2 ^ 48) len)
    else
      s.sendPacket { op := 0x03, tag := 0x2000, tenant := e.tenant, incarnation := (s.seat n).inc, dstPos := routeOf dev - 0x10
                     arg := BitVec.ofNat 64 ((dev + off) % 2 ^ 48), reqLen := len }

/-- ACTIVATE: the checks of R43 and Table 3-8 rows 1 to 4 on a deck inside the package; the digest check and the rest end
with ACTIVATE_COMPLETE. A deck in host memory or on another package is read first (02, R45; log 17). -/
def State.activate (s : State) (n : Nat) (facts : DeckFacts) : State :=
  let raw := s.tableRaw n
  let e := parseEntry (plain raw)
  let fail := fun (st : Status) => s.respond .seatCmd 8 n st
  match s.entryRead n raw with
  | some st => fail st
  | none =>
  if !s.entryOk n e then fail .badArg
  else if s.entryClash n e then fail .conflict
  else
    let s := s.modSeat n fun i => { i with raw := plain raw, entry := e }
    let start := fun (s : State) =>
      { s with host := { s.host with cmdBusy := some { op := .activate, port := .seatCmd, seat := n }, cmdLost := false }, deckFacts := facts }
    match translate e e.deckHandle 512 .x with
    | none => fail .badArg
    | some (dev, k) =>
      if routeOf dev = 0 then
        let hdr := s.readSlot (slotOf e k) dev 512
        let d := parseDeck (plain hdr)
        if anyPoison hdr then fail .poison
        else match s.deckFirst e d facts.eprogBytes with
          | .ok => start { s with deckBuf := none }
          | st => fail st
      else
        (start { s with deckBuf := some [] }).deckRead n 0 512

/-- ACTIVATE is processed: judged as any command of SEAT_CMD (02, R32, R45), then checked. -/
def State.runActivate (s : State) (n : Nat) (facts : DeckFacts) : State :=
  match s.preJudge .seatCmd .activate n with
  | some (st, r) => s.respond .seatCmd 8 n st r
  | none =>
    match s.judge .activate n with
    | .done st r => s.respond .seatCmd 8 n st r
    | .act => s.activate n facts

/-! ## Arrival of a command (02, R31, R32, R45, R49) -/

/-- The command that a code names at a port: Table 2-4 for a doorbell, Table 2-15 for SEAT_CMD (02, R32, R45). -/
def legalOp (p : CmdPort) (code : Nat) : Option SeatOp :=
  match p, opOf code with
  | .doorbell _, some op => if op = .play || op = .halt || op = .resume || op = .reset then some op else none
  | .seatCmd, o => o
  | _, none => none

/-- A command is processed in LIVE: a code that names no command reports ST_BAD_ARG before anything else (02, R32). -/
def State.runWrite (s : State) (w : CmdWrite) : State :=
  match legalOp w.port w.code with
  | none => s.respond w.port w.code w.seat .badArg
  | some .activate => s.runActivate w.seat w.facts
  | some op => s.runCmd w.port op w.seat

/-- SEAT_CMD_STATUS.busy: a command executes, or a SEAT_CMD is held in DOZE (02, Table 2-10, R49; log 145). -/
def State.cmdTaken (s : State) : Bool := s.host.cmdBusy.isSome || s.host.heldCmds.any (·.port == .seatCmd)

/-- Hold a write until the return to LIVE; it is a wake event (02, R49; 14, R431). -/
def State.holdCmd (s : State) (w : CmdWrite) : State :=
  State.wake { s with host := { s.host with heldCmds := s.host.heldCmds ++ [w] } } 1

/-- A write arrives at HIF_DOORBELL or SEAT_CMD: lost while SEAT_CMD is busy (02, Table 2-10), and still a wake event (14, R431); held in DOZE, up to 16 doorbells a
function (R31); answered under R49 elsewhere outside LIVE. -/
def State.arrive (s : State) (w : CmdWrite) : State :=
  match w.port with
  | .seatCmd =>
    if s.cmdTaken then
      let s := { s with host := { s.host with cmdLost := true } }
      if s.dozes then s.wake 1 else s
    else
      let s := { s with host := { s.host with cmdLost := false } }
      match notLive s.dev with
      | some (st, r) => s.respond w.port w.code w.seat st r
      | none => if s.dozes then s.holdCmd w else s.runWrite w
  | .doorbell f =>
    if !s.fnEnabled f.val then s
    else match notLive s.dev with
      | some (st, r) => s.respond w.port w.code w.seat st r
      | none =>
        if s.dozes then
          if (s.fn f.val).doorbells.length < 16 then
            (s.modFn f.val fun q => { q with doorbells := q.doorbells ++ [w] }).holdCmd w
          else s.respond w.port w.code w.seat .busy 1
        else s.runWrite w

/-- A command of Table 2-15 is written to a port. -/
def State.command (s : State) (p : CmdPort) (op : SeatOp) (n : Nat) : State :=
  s.hostAccess (portFn p) fun s => s.arrive { port := p, code := opCode op, seat := n }

def execPlay (p : CmdPort) (seat : Nat) (s : State) : Res := .next (s.command p .play seat)
def execHalt (p : CmdPort) (seat : Nat) (s : State) : Res := .next (s.command p .halt seat)
def execResume (p : CmdPort) (seat : Nat) (s : State) : Res := .next (s.command p .resume seat)
def execReset (p : CmdPort) (seat : Nat) (s : State) : Res := .next (s.command p .reset seat)
def execSeat (seat : Nat) (s : State) : Res := .next (s.command .seatCmd .seat seat)
def execPark (seat : Nat) (s : State) : Res := .next (s.command .seatCmd .park seat)
def execRelease (seat : Nat) (s : State) : Res := .next (s.command .seatCmd .release seat)
def execPin (seat : Nat) (s : State) : Res := .next (s.command .seatCmd .pin seat)
def execUnpin (seat : Nat) (s : State) : Res := .next (s.command .seatCmd .unpin seat)
def execActivate (seat : Nat) (facts : DeckFacts) (s : State) : Res :=
  .next (s.hostAccess 0 fun s => s.arrive { port := .seatCmd, code := 8, seat := seat, facts := facts })

/-! ## The end of ACTIVATE -/

/-- The deck's bytes for the digest check: from the package's memory, or as read from outside; none while reading. -/
def State.deckBytes (s : State) (e : Entry) : Option (List PByte) :=
  match translate e e.deckHandle 512 .x with
  | none => none
  | some (dev, k) =>
    match s.deckBuf with
    | none =>
      let d := parseDeck (plain (s.readSlot (slotOf e k) dev 512))
      some (s.readSlot (slotOf e k) dev d.size)
    | some b =>
      let d := parseDeck (plain b)
      if b.length < 512 then none
      else if s.deckFirst e d s.deckFacts.eprogBytes = .ok && !anyPoison b && b.length < d.size then none else some b

/-- Bytes of a deck arrive from outside; the next read follows while the header is acceptable and bytes are missing. -/
def State.deckData (s : State) (bs : List PByte) : State :=
  match s.host.cmdBusy, s.deckBuf with
  | some ⟨.activate, _, n⟩, some b =>
    let b := b ++ bs
    let s := { s with deckBuf := some b }
    if (s.deckBytes (s.seat n).entry).isSome || b.length < 512 then s
    else s.deckRead n b.length (min 4096 ((parseDeck (plain b)).size - b.length))
  | _, _ => s

/-- A seat is activated (02, R45; 09, R281; 18, R528; 19, R551). -/
def State.activated (s : State) (n : Nat) (d : Deck) : State :=
  let s := s.modSeat n fun i => { i with
    inc := i.inc + 1, resetCount := 0, windowStart := s.now, windowEpoch := s.time.epoch, haltCause := 0
    deck := some d, eprogs := s.deckFacts.eprogs, ctx := startCtx (some d), conv := [], pending := none, cached := false
    pinned := false, slabIntact := false, fromPlaying := false, folded := false, plays := 0, shadow := 0xFFFF
    shadowNext := none, leftOrder := 0, epochMark := BitVec.ofNat 64 (s.ns / 1000000000), epochBad := false
    lastEpoch := BitVec.ofNat 64 (field i.raw 0x68 8) }
  let e := (s.seat n).entry
  let s := { s with keyBind := Tbl.set none s.keyBind e.keySlot (some e.tenant) }
  let s := s.clearObjects n
  let s := { s with rel := { s.rel with halves := Tbl.set none (Tbl.set none s.rel.halves (2 * n) none) (2 * n + 1) none } }
  ((s.setSeat n .parked).refreshRaw n).writeBack n

/-- Constant pool and phase table of a deck that lies outside the package, kept as ACTIVATE read them (03, R85, R587, R591). -/
def State.keepDeck (s : State) (n : Nat) (d : Deck) (b : List PByte) : State :=
  let away := match translate (s.seat n).entry (s.seat n).entry.deckHandle 512 .x with
    | some (dev, _) => routeOf dev != 0
    | none => false
  s.modSeat n fun i => { i with
    consts := if away then (b.drop d.constOff).take d.constSize else []
    phases := if away then (b.drop d.phaseOff).take (phaseBytes * d.phaseCount) else [] }

/-- ACTIVATE_COMPLETE: the digest check ends, and the rest of Table 3-8, of R475 and of R551 is judged (03, R84). One that meets a DOZE
ends after it (log 145). -/
def execActivateComplete (s : State) : Res :=
  .next (match s.host.cmdBusy with
    | some ⟨.activate, _, n⟩ =>
      let e := (s.seat n).entry
      match if s.dozes then none else s.deckBytes e with
      | none => s
      | some b =>
        let d := parseDeck (plain b)
        let first := s.deckFirst e d s.deckFacts.eprogBytes
        let st :=
          if anyPoison b then Status.poison
          else if first ≠ .ok then first
          else match s.deckRest e d (plain b) with
            | .ok =>
              if !factsOk s.deckFacts then .badArg
              else if s.stageClash e then .conflict
              else if !s.bindOk e then .tenantBlocked
              else .ok
            | st => st
        let s' := if st = .ok then (s.activated n d).keepDeck n d b else s
        ({ s' with deckBuf := none, deckFacts := {} }).respond .seatCmd 8 n st
    | _ => s)

/-! ## The ends of RELEASE, loads and resets -/

/-- Zero the near-tier bytes of the seat's writable windows that no other seat's window covers (19, R553 step 3). -/
def State.scrubNear (s : State) (n : Nat) : State :=
  let others := (s.otherSeats n).flatMap fun o => o.2.entry.windows.filter fun w => w.size ≠ 0 && routeOf w.base == 0
  let hit := fun (a : Nat) => (s.seat n).entry.windows.any (fun w => w.w && w.base ≤ a && a < w.base + w.size
      && (match target a with | .near _ => true | _ => false))
    && !others.any fun w => w.base ≤ a && a < w.base + w.size
  let hitSector := fun (k : Nat) => (List.range 64).all fun i => hit (k * 64 + i)
  { s with memory := { s.memory with
      mem := s.memory.mem.filter fun c => !hit c.1
      poison := s.memory.poison.filter fun p => !hitSector p.1 } }

/-- RELEASE_SCRUB_COMPLETE: context area zeroed, near tier scrubbed, key slot renewed, entry zeroed, FREE (19, R553). -/
def execReleaseScrubComplete (s : State) : Res :=
  .next (match s.host.cmdBusy with
    | some ⟨.release, p, n⟩ =>
      if (s.seat n).releasing.isNone then s
      else
        let e := (s.seat n).entry
        let s := s.writeSlot 0 e.contextArea (good (zeros 4096))
        let s := s.scrubNear n
        let s := if s.slotNamed n e.keySlot then s else s.renewSlot e.keySlot
        let s := s.writeSlot 0 (s.entryAt n) (good (zeros 512))
        let s := s.destroyGroups n .peerReset
        let owner := e.owner
        let s := { s with seats := Tbl.set {} s.seats n {} }
        let ev : Event := { seat := n, state := .free, haltCause := 0, incarnation := 0 }
        let s := if owner ≠ 0 && s.fnEnabled owner then s.pushEvent owner ev else s
        (s.pushEvent 0 ev).respond p 0xB n .ok
    | _ => s)

/-- A SEAT or PIN command that waited for a load of `n` completes (02, Table 2-15). -/
def State.endBusy (s : State) (n : Nat) (st : Status) (retry : Nat := 0) : State :=
  match s.host.cmdBusy with
  | some ⟨op, p, m⟩ => if m = n && (op = .seat || op = .pin) then s.respond p (opCode op) n st retry else s
  | none => s

/-- A SEAT or PIN that waits for a load of `n`, or its RELEASE, ends without its effect: a host-side reset of the seat comes between
(DESIGN CHOICE ST_RECEIVER_RESET, log 144). -/
def State.dropBusy (s : State) (n : Nat) : State :=
  match s.host.cmdBusy with
  | some ⟨op, _, m⟩ => if m = n && op ≠ .activate then s.respond .seatCmd (opCode op) n .receiverReset else s
  | none => s

/-- Commands that a load held back run in order; those behind one that starts a new load wait for that load (02, R44, R54). -/
def State.runParked (s : State) (n : Nat) : List SeatOp → State
  | [] => s
  | op :: t =>
    let s := s.actParked op n
    if (s.seat n).loading.isSome then s.modSeat n fun i => { i with deferred := t } else s.runParked n t

/-- The commands held back by a load run in order, before any later command on the seat (02, R44). -/
def State.runDeferred (s : State) (n : Nat) : State :=
  ((s.modSeat n fun i => { i with deferred := [] }).runParked n (s.seat n).deferred).unchoose n

/-- What a load of seat `n` makes of the entry that it has read: its read, then validation (02, R43, R54; 08, R244). -/
def State.loadStatus (s : State) (n : Nat) (raw : List PByte) : Status :=
  (s.entryRead n raw).getD (s.validate n (parseEntry (plain raw)))

/-- SEAT_LOAD: the load of a PARKED seat ends (02, R54, R55, Table 2-17). -/
def execSeatLoad (n : Nat) (s : State) : Res :=
  .next (match (s.seat n).loading with
    | none => s
    | some (t0, op) =>
      if (s.seat n).state ≠ .parked || s.dev ≠ .live || s.dozes then s
      else
        let stay := fun (s : State) (st : Status) (r : Nat) =>
          ((s.modSeat n fun i => { i with loading := none }).endBusy n st r).runDeferred n
        if s.occupied ≥ 64 && s.victim.isNone then
          let s := if s.chosen = some n then { s with chosen := none } else s
          stay s .busy 2000
        else
          let s := if s.occupied ≥ 64 then s.evict (s.victim.getD 0) else s
          let raw := s.tableRaw n
          let st := s.loadStatus n raw
          if st ≠ .ok then
            let s := s.clearPending n
            let s := if s.chosen = some n then { s with chosen := none } else s
            let s := s.report 1 0x010C 0 (some n) [(statusCode st).toNat, opCode op] (some st)
            stay (s.appendEvent n) st 0
          else
            let pin := (s.host.cmdBusy.any fun c => c.seat == n && c.op = .pin) || op = .pin
            let s := s.fillCache n (plain raw)
            let full := pin && s.pinMax ≤ s.pinnedCount
            let s := if pin && !full then s.modSeat n fun i => { i with pinned := true } else s
            let s := s.setSeat n .seated
            let dt := BitVec.ofNat 32 (s.ns - t0.toNat % 2 ^ 60)
            let s := { s with host := { s.host with loadNs := if s.host.loadNs < dt then dt else s.host.loadNs } }
            -- a PIN that waited for the load meets the limit in force now (R56)
            (s.endBusy n (if full then .overflow else .ok)).runDeferred n)

/-- The reset window and its count (18, R519); true when the seat folds. -/
def countReset (i : SeatInfo) (now : Word) (epoch : Quad) : SeatInfo × Bool :=
  let win := (if i.entry.resetWindow = 0 then 600 else i.entry.resetWindow) * 1000000000
  let lim := if i.entry.resetLimit = 0 then 8 else i.entry.resetLimit
  let fresh := i.windowEpoch ≠ epoch || win ≤ now.toNat % 2 ^ 60 - i.windowStart.toNat % 2 ^ 60
  let j := if fresh then { i with windowStart := now, windowEpoch := epoch, resetCount := 1 }
    else { i with resetCount := i.resetCount + 1 }
  (j, decide (lim ≤ j.resetCount.toNat))

/-- SEAT_FOLD: the seat's reset ends HALTED with cause 0x08 (18, R520), and folds of three tenants within 3,600 s start a
device recovery (R521). -/
def State.foldSeat (s : State) (n : Nat) : State :=
  let i := s.seat n
  let win := if i.entry.resetWindow = 0 then 600 else i.entry.resetWindow
  let s := s.modSeat n fun j => { j with folded := true }
  let recent := s.rel.folds.filter fun f => s.ns - f.2.toNat % 2 ^ 60 ≤ 3600000000000 && f.2.toNat / 2 ^ 60 = s.now.toNat / 2 ^ 60
  let folds := (i.entry.tenant, s.now) :: recent
  let s := { s with rel := { s.rel with folds := folds } }
  let s := (s.setSeat n .halted (some 0x08)).report 1 0x010A 5 (some n) [i.resetCount.toNat, win] (some .folded)
  if ((folds.map (·.1)).eraseDups).length ≥ 3 then s.recoveryDue 0x05 else s

/-- The load that ends the reset of a PARKED seat, and the state that the seat takes (02, R48). Without a cache entry, with an entry
that fails validation or on a unit map that does not fit (05, R139), the seat ends PARKED (DESIGN CHOICE, log 141). -/
def State.resetLoad (s : State) (n : Nat) : State × SeatState :=
  if !s.mapOk n || (s.occupied ≥ 64 && s.victim.isNone) then (s, .parked)
  else
    let s := if s.occupied ≥ 64 then s.evict (s.victim.getD 0) else s
    let raw := s.tableRaw n
    let st := s.loadStatus n raw
    if st = .ok then (s.fillCache n (plain raw), .seated)
    else (s.report 1 0x010C 0 (some n) [(statusCode st).toNat, 4] (some st), .parked)

/-- SEAT_RESET_COMPLETE: steps 4 to 6 of Table 18-4 (18, R516; 02, R48, R26). -/
def execSeatResetComplete (n : Nat) (s : State) : Res :=
  .next (match (s.seat n).resetting with
    | none => s
    | some (_, src) =>
      if s.taddPending n then s
      else
        let i0 := s.seat n
        let s := s.modSeat n fun i => { i with
          inc := i.inc + 1, ctx := startCtx i.deck, conv := [], resetting := none, pending := none, haltCause := 0 }
        let s := s.clearObjects n
        let fold := src = 1 && (countReset (s.seat n) s.now s.time.epoch).2
        let s := if src = 1 then s.modSeat n fun i => (countReset i s.now s.time.epoch).1 else s
        let i := s.seat n
        let s := s.bump 0x601004 32
        let rep := fun (s : State) => s.report 1 0x0109 4 (some n) [src, i.resetCount.toNat, i.windowStart.toNat] (some .ok)
        let s := s.refreshRaw n
        if i0.parkAfter then
          rep ((s.modSeat n fun i => { i with parkAfter := false, resetParked := false }).unseat n)
        else
          let ends := fun (s : State) (st : SeatState) => if fold then (rep s).foldSeat n else rep (s.setSeat n st)
          if i0.resetParked && !i0.cached then
            let (s, st) := (s.modSeat n fun j => { j with state := .parked, resetParked := false }).resetLoad n
            ends (s.writeBack n) st
          else ends ((s.modSeat n fun j => { j with resetParked := false }).writeBack n) .seated)

end Sys2Proof.Machine
end

