-- ==== Sys2Proof/Machine/SeatPlay.lean ====
section
/-! DEFINITION. The seat engine's choice, the switch, the start of a play and the ways it ends (02, sections 2.6.1 and
2.7; 03, R71, R81, R82; 14, R413). -/

namespace Sys2Proof.Machine

/-- The clock domains that a seat uses (14, R413): ARR, MVP, VEC, DEAL and COLL of every CD, but ARR of a disabled slice. -/
def State.seatDomains (s : State) : BitVec 44 :=
  (List.range 40).foldl (fun m d => if d < 8 && s.sliceMode d == 3 then m else m ||| (1 <<< d)) 0

/-- The seat engine ungates the seat's domains (14, R413). -/
def State.ungateSeat (s : State) : State :=
  { s with clk := { s.clk with ungating := s.clk.ungating ||| (s.clk.gated &&& s.seatDomains) } }

/-- The seat uses a block that is in reset (15, R441): every seat uses the blocks of the CDs. -/
def State.blockHolds (s : State) (_n : Nat) : Bool := s.boot.blockBusy && decide (s.boot.blockNow < 0x48)

/-- The ready seat of highest priority, earliest pending first, among those that pass `ok` (02, R50). -/
def State.best (s : State) (ok : Nat → Bool) : Option Nat :=
  (s.seats.foldl (fun b e =>
    if ready e.2 && ok e.1 then
      let k := (e.2.entry.prio, e.2.pending.getD 0)
      match b with
      | none => some (e.1, k)
      | some (m, l) => if l.1 < k.1 || (l.1 == k.1 && k.2 < l.2) then some (e.1, k) else some (m, l)
    else b) (none : Option (Nat × Nat × Nat))).map (·.1)

/-- Commands held back by a switch run when it ends (02, R44). -/
def State.runSwitched (s : State) (n : Nat) : State :=
  let l := (s.seat n).deferred
  l.foldl (fun s op => s.actOn op n) (s.modSeat n fun i => { i with deferred := [] })

/-- The PLAYING seat that was to leave at its switch point plays on, because no seat can be chosen any more: the ready one was halted
or released, or its load failed (02, R50, R51, R54, R55; log 146). What its switch held back runs. -/
def State.stayPlaying (s : State) : State :=
  match s.play with
  | none => s
  | some p => if p.phase = .leaving then State.runSwitched { s with play := some { p with phase := .ready } } p.seat else s

/-- SEAT_CHOOSE (02, R50, R47; 14, R413). A PARKED choice is loaded first; one that finds no cache entry gives way (log 18). -/
def execSeatChoose (s : State) : Res :=
  .next (
    let free := match s.play with
      | none => true
      | some p => p.phase = .leaving
    if s.dev ≠ .live || s.dozes || s.chosen.isSome || !free then s
    else
      let intact := s.seats.any fun e => e.2.slabIntact
      let held := s.host.holdHalted && intact
      let out := s.play.map (·.seat)
      let ok := fun (n : Nat) => out ≠ some n && !s.blockHolds n && s.mapOk n
        && (!held || (s.seat n).slabIntact)
        && ((s.seat n).cached || s.occupied < 64 || s.victim.isSome)
      match s.best ok with
      | none => s.stayPlaying
      | some n =>
        let s := { s with chosen := some n }.ungateSeat
        if (s.seat n).cached then s else s.startLoad n .play)

/-- A phase that waits for its period boundary becomes active as the seat leaves PLAYING, and its SETPH's @done signals act (03, R63,
R78; log 147). -/
def State.settlePhase (s : State) : State :=
  match s.phaseNext, s.play with
  | some (k, done), some p =>
    let s := cds.foldl (fun s c => s.modSeq c fun q => { q with ctx := { q.ctx with phase := BitVec.ofNat 6 k } }) { s with phaseNext := none }
    (done.foldl (fun s d => s.signalOf d.1 0 p.seat d.2) s).sameCycle s
  | _, _ => s

/-- The outgoing seat of a switch: contexts saved, SEATED with pending set (02, R51, R53). -/
def State.switchOut (s : State) : State :=
  match s.play with
  | none => s
  | some p =>
    let s := (s.settlePhase.saveContexts p.seat).leavePlay p.seat
    ((s.setSeat p.seat .seated).setPending p.seat).runSwitched p.seat

/-- The incoming seat: PLAYING, contexts restored, slab rows unwritten unless it resumes an intact slab, counters, and the
other seats' slab_intact cleared (02, R47, R53, Table 2-16). -/
def State.switchIn (s : State) (n : Nat) : State :=
  let i := s.seat n
  let s := s.restoreContexts n
  let s := if i.slabIntact then s else { s with memory := s.memory.clearWritten, arr := s.arr.unbind }
  let s := { s with seats := Tbl.mapAll {} (fun k j => if k = n then j else { j with slabIntact := false }) s.seats }
  let s := s.modSeat n fun j => { j with pending := none, slabIntact := false, fromPlaying := false, plays := j.plays + 1 }
  let s := { s with
    chosen := none
    play := some { seat := n, phase := .ready, startCyc := (s.seq 0).ctx.cyc, began := s.now, intact := i.slabIntact }
    host := { s.host with playsAll := s.host.playsAll + 1 } }
  (s.setSeat n .playing).runSwitched n

/-- The seat has an operation in a unit, a held release or a register result still to land. -/
def State.busyUnits (s : State) (n : Nat) : Bool :=
  s.ops.any (·.seat == n) || s.sync.unlocks.any (·.seat == n) || cds.any fun c => !(s.seq c).pend.isEmpty

/-- SEAT_SWITCH (02, R53, R57): once the outgoing units have drained and the chosen seat is SEATED. -/
def execSeatSwitch (s : State) : Res :=
  .next (match s.chosen with
    | none => s
    | some n =>
      if (s.seat n).cached && !ready (s.seat n) then { s with chosen := none }
      else if (s.seat n).state ≠ .seated || !(s.seat n).cached || s.dev ≠ .live then s
      else match s.play with
        | none => s.switchIn n
        | some p =>
          if p.phase ≠ .leaving || s.busyUnits p.seat then s
          else
            let t0 := p.began.toNat % 2 ^ 60
            let dt := BitVec.ofNat 32 (s.ns - t0)
            let s := { s with host := { s.host with switchNs := if s.host.switchNs < dt then dt else s.host.switchNs } }
            (s.switchOut).switchIn n)

/-- SEAT_FIRST_ISSUE: at a package-period boundary a ready seat starts to issue, once its domains are ungated (01, R20; 14,
R413). -/
def execSeatFirstIssue (s : State) : Res :=
  .next (match s.play with
    | none => s
    | some p => if p.phase = .ready && s.clk.gated &&& s.seatDomains = 0 then { s with play := some { p with phase := .issuing } } else s)

/-- The streams pass the gang instruction that they have stood at: @done signals act, the pcs move on (03, R63, R81). -/
def State.passGang (s : State) : State :=
  State.sameCycle (old := s) (cds.foldl (fun s c =>
    match (s.seq c).gang with
    | some (.swpt i _ _) | some (.end_ i _) =>
      let s := s.modSeq c fun q => { q with gang := none }
      let s := match doneOf i with | some t => s.signalOf c 0 s.playSeat t | none => s
      s.advance c i.bytes
    | _ => s) s)

/-- SWPT_DRAIN_END: the units have drained; the switch is decided (02, R51, R52; 03, R81, R82). The trigger time of the
switch is noted for SEAT_SWITCH_MAX. -/
def execSwptDrainEnd (s : State) : Res :=
  .next (match s.play with
    | none => s
    | some p =>
      match p.phase with
      | .draining k =>
        if s.busyUnits p.seat then s
        else
          let quota := (s.seat p.seat).entry.playQuota
          let used := (s.seq 0).ctx.cyc - p.startCyc
          let spent := quota ≠ 0 && decide (quota ≤ used.toNat)
          let other := (s.best fun n => n ≠ p.seat).isSome
          let s := s.passGang
          if other && (k % 2 = 1 || spent) then
            { s with play := some { p with phase := .leaving, began := s.now } }
          else
            { s with play := some { p with phase := .ready, startCyc := if spent then (s.seq 0).ctx.cyc else p.startCyc } }
      | _ => s)

/-- HALT_COMPLETE: the operations already issued have ended, and the seat becomes HALTED with its slab intact (02, R46, R47). -/
def execHaltComplete (s : State) : Res :=
  .next (match s.play with
    | none => s
    | some p =>
      match p.phase with
      | .halting cause =>
        if s.busyUnits p.seat then s
        else
          let s := (s.settlePhase.saveContexts p.seat).leavePlay p.seat
          let s := s.modSeat p.seat fun i => { i with slabIntact := true, fromPlaying := true }
          s.setSeat p.seat .halted (some cause)
      | _ => s)

/-- END_COMPLETE: the deck has ended and every unit is empty; SEATED with cause 0x07, pending unchanged (02, R51; 03, R71). An ended deck
begins again at its next play, from the values at seat start (03, Table 3-1; log 139); its conversion counters stay (04, R112; log 139). -/
def execEndComplete (s : State) : Res :=
  .next (match s.play with
    | none => s
    | some p =>
      match p.phase with
      | .ending =>
        if s.busyUnits p.seat then s
        else
          let s := (s.passGang.settlePhase.saveContexts p.seat).leavePlay p.seat
          let s := s.modSeat p.seat fun i => { i with ctx := startCtx i.deck }
          s.setSeat p.seat .seated (some 0x07)
      | _ => s)

end Sys2Proof.Machine
end

