-- ==== Sys2Proof/Machine/SyncFam.lean ====
section
/-! DEFINITION. Synchronisation, loops and branches (03, sections 3.2 and 3.5; 09): NOP, TADD, TLD, flags, locks, LOOP, B,
tally units, the tally region and the debug window. -/

namespace Sys2Proof.Machine

/-- NOP carries only its wait and signal fields (03, R62). -/
def execNop (i : Issue) (s : State) : Res := .next (s.issueNow i 9 [] [] id)

/-- A tally reference: the unit that holds it and its absolute index (09, R255). -/
def refUnit (c : Nat) (e : Entry) : TallyRef → Nat × Nat
  | .own n => (c, e.cdBase + n)
  | .onCd k n => (k.val, e.cdBase + n)
  | .pkg n => (8, e.pkgBase + n)

/-- The value of a tally by unit and absolute index. -/
def State.tallyAt (s : State) (u n : Nat) : Word := if u = 8 then s.pkgTally n else s.cdTally u n

/-- TADD: an add at issue; a register gives bits [31:0] (09, R258). -/
def execTadd (i : Issue) (t : TallyRef) (amount : Src) (s : State) : Res :=
  .next (s.issue i 9 [] (srcReg amount) none fun s =>
    let c := i.cd.val
    match tallyFault s.playEntry t with
    | some (k, n) => .stop (s.windowFault c n 0 k)
    | none =>
      let (u, n) := refUnit c s.playEntry t
      let a := (s.src c amount).toNat % 2 ^ 32
      .run ((s.queueAdd u { tally := n, amount := a, src := if u = c then .own 0 else .cd c 0, seat := some s.playSeat }).signalNow i))

/-- TLD: a tally's value into sD; it lands later, and is the value at a moment between issue and landing (09, R262; log 24). -/
def execTld (i : Issue) (d : Dst) (t : TallyRef) (s : State) : Res :=
  .next (s.issue i 9 [d] [] none fun s =>
    let c := i.cd.val
    match tallyFault s.playEntry t with
    | some (k, n) => .stop (s.windowFault c n 0 k)
    | none =>
      let (u, n) := refUnit c s.playEntry t
      .run ((s.pend c { dst := d, src := .tld, value := some (s.tallyAt u n), done := doneOf i, tally := some (u, n) }).signalIssue i))

/-- FSET and FCLR (09, R264). -/
def State.flagOp (s : State) (i : Issue) (n : Nat) (v : Bool) : State :=
  s.issue i 9 [] [] none fun s =>
    if 64 ≤ n then .stop (s.windowFault i.cd.val n 0 0x102) else .run ((s.setFlag i.cd.val n v).signalNow i)
def execFset (i : Issue) (n : Nat) (s : State) : Res := .next (s.flagOp i n true)
def execFclr (i : Issue) (n : Nat) (s : State) : Res := .next (s.flagOp i n false)

/-! ## Locks (09, section 9.7) -/

def State.lockAt (s : State) (l : Nat) : Lock := Tbl.get {} s.sync.locks l
def State.setLock (s : State) (l : Nat) (v : Lock) : State := { s with sync := { s.sync with locks := Tbl.set {} s.sync.locks l v } }

/-- LOCK: judged by the lock's state; a request for a lock that another holds joins the waiter queue (09, R275). -/
def execLock (i : Issue) (d : Dst) (n : Nat) (s : State) : Res :=
  .next (s.issue i 9 [d] [] none fun s =>
    let c := i.cd.val
    let e := s.playEntry
    if e.lockCount ≤ n then .stop (s.windowFault c n 0 0x103)
    else
      let l := e.lockBase + n
      let k := s.lockAt l
      let me := (s.playSeat, (s.seat s.playSeat).inc, c)
      let wait := fun (s : State) (v : Option Status) =>
        ((s.pend c { dst := d, src := .lock, value := v.map fun x => (statusCode x).setWidth 64, done := doneOf i }).modSeq c
          fun q => { q with lock := some l }).signalIssue i
      if k.state = 0 then .run (wait (s.setLock l { k with state := 1, owner := some me }) (some .ok))
      else if k.state = 2 then .run (wait (s.setLock l { k with state := 1, owner := some me }) (some .lockBroken))
      else if k.owner.any (fun o => o.1 == me.1 && o.2.2 == c) then .run (wait s (some .conflict))
      else
        let t := (wait (s.setLock l { k with waiters := k.waiters ++ [me] }) none).advance c i.bytes
        .jump (t.beginStall c { kind := 2, objKind := 3, object := l, threshold := 0, since := s.now, pc := (s.seq c).ctx.pc }))

/-- LOCK_STATUS: the status of a LOCK lands in sD, and the stream goes on (09, R275, R277). -/
def execLockStatus (cd : Cd) (s : State) : Res :=
  .next (
    let ok := fun (p : Pend) => p.src == .lock && p.value.isSome
    if (s.seq cd.val).pend.any ok then (s.land cd.val ok).modSeq cd.val fun q => { q with lock := none, stall := none } else s)

/-- UNLOCK: the CD holds the release until the writes issued before it have committed, those of the gang operations that its sequencer
took part in among them (09, R276). -/
def execUnlock (i : Issue) (n : Nat) (s : State) : Res :=
  .next (s.issue i 9 [] [] none fun s =>
    let c := i.cd.val
    let e := s.playEntry
    if e.lockCount ≤ n then .stop (s.windowFault c n 0 0x103)
    else
      let l := e.lockBase + n
      let k := s.lockAt l
      let held := k.state == 1 && k.owner.any fun o => o.1 == s.playSeat && o.2.2 == c
      let leaving := s.sync.unlocks.any fun u => u.cd == c && u.lock == l
      if !held || leaving then .stop (s.issueFault c 9)
      else
        let u : Unlock := { cd := c, lock := l, seat := s.playSeat, inc := (s.seat s.playSeat).inc
                            after := (s.ops.filter fun o => o.cd == c || o.unit == .array).map (·.id), done := doneOf i }
        .run ({ s with sync := { s.sync with unlocks := s.sync.unlocks ++ [u] } }.signalIssue i))

/-- A lock is released: to the head of its waiter queue with ST_OK, or FREE (09, R276). -/
def State.releaseLock (s : State) (l : Nat) : State :=
  let k := s.lockAt l
  match k.waiters with
  | [] => s.setLock l {}
  | w :: t =>
    (s.setLock l { state := 1, owner := some w, waiters := t }).modSeq w.2.2 fun q => { q with
      pend := q.pend.map fun p => if p.src = .lock then { p with value := some 0 } else p, stall := none }

/-- UNLOCK_RELEASE: the oldest held release of a CD acts, once the operations before it have ended (09, R276). -/
def execUnlockRelease (cd : Cd) (s : State) : Res :=
  .next (match s.sync.unlocks.find? (·.cd == cd.val) with
    | none => s
    | some u =>
      if u.after.any fun id => (s.opById id).isSome then s
      else
        let s := { s with sync := { s.sync with unlocks := s.sync.unlocks.erase u } }
        let k := s.lockAt u.lock
        let mine := k.state == 1 && k.owner.any fun o => o.1 == u.seat && o.2.2 == u.cd
        let s := if mine then s.releaseLock u.lock else s
        match u.done with
        | none => s
        | some t => s.signalOf u.cd 0 u.seat t)

/-! ## Loops and branches (03, R72 to R74, R588) -/

/-- LOOP (03, R72). `last` and `lastBytes` are the offset and length of the instruction at end. -/
def execLoop (i : Issue) (lvl : Fin 4) (count : Src) (last : Quad) (lastBytes : Nat) (s : State) : Res :=
  .next (s.issue i 10 [] (srcReg count) none fun s =>
    let c := i.cd.val
    let q := (s.seq c).ctx
    let n := (s.src c count).toNat % 2 ^ 32
    let start := q.pc.toNat + i.bytes
    let inside := q.lc.all fun e => !e.2.active || (e.2.start.toNat ≤ start && last.toNat + lastBytes ≤ lvlEnd e.2)
    if (Tbl.get {} q.lc lvl.val).active || last.toNat < start || (s.stream c).len ≤ last.toNat || !inside then
      .stop (s.issueFault c 10)
    else if n = 0 then
      .jump ((s.modSeq c fun q =>
        let (lc, p) := loopNext q.ctx.lc last.toNat (last.toNat + lastBytes) 4
        { q with ctx := { q.ctx with lc := lc, pc := BitVec.ofNat 32 p }, stall := none }).signalNow i)
    else
      let l : LoopLvl :=
        { active := true, count := BitVec.ofNat 32 n, start := BitVec.ofNat 32 start, last := last, lastLen := lastBytes }
      .run ((s.modSeq c fun q => { q with ctx := { q.ctx with lc := Tbl.set {} q.ctx.lc lvl.val l } }).signalNow i))

/-- A branch that is taken when `b` (03, R73, R588). -/
def State.branch (s : State) (i : Issue) (regs : List Dst) (target : Quad) (b : State → Bool) : State :=
  s.issue i 11 [] regs none fun s =>
    if b s then .jump ((s.branchTo i.cd.val target).signalNow i) else .run (s.signalNow i)

def execB (i : Issue) (target : Quad) (s : State) : Res := .next (s.branch i [] target fun _ => true)
def execBCc (i : Issue) (cc : Cc) (a b : Src) (target : Quad) (s : State) : Res :=
  .next (s.branch i (srcReg a ++ srcReg b) target fun s => ccHolds cc (s.src i.cd.val a) (s.src i.cd.val b))
def execBgCc (i : Issue) (cc : Cc) (a b : Src) (target : Quad) (s : State) : Res :=
  .next (s.branch i (srcReg a ++ srcReg b) target fun s => ccHolds cc (s.src i.cd.val a) (s.src i.cd.val b))

/-- FETCH_FAULT: undecodable bytes, or the end of the stream (03, R590; R61). -/
def execFetchFault (cd : Cd) (s : State) : Res := .next (if s.issuing cd.val then s.fetchFault cd.val else s)

/-! ## Tally units (09, R259 to R261) -/

/-- A tally takes a value. -/
def State.setTally (s : State) (u n : Nat) (v : Word) : State :=
  if u = 8 then { s with sync := { s.sync with pkgTally := Tbl.set 0 s.sync.pkgTally n v } }
  else { s with sync := { s.sync with cdTally := Tbl.set 0 s.sync.cdTally (4096 * u + n) v } }

/-- The status of a TADD.R goes to its destination register while its seat plays on unreset (09, R271, R272). -/
def State.landAdd (s : State) (r : RemoteAdd) (st : Status) : State :=
  if r.dead then s
  else if s.play.any (·.seat == r.seat) && (s.seat r.seat).inc = r.inc then
    s.modSeq r.cd fun q => { q with
      pend := q.pend.map fun p => if p.src = .taddR && p.dst = r.dst then { p with value := some ((statusCode st).setWidth 64) } else p
      stall := match q.stall with | some k => if k.kind = 3 then none else some k | none => none }
  else s

/-- A TADD.R's status returns, with its tag: one whose seat no reset has taken lands; any other is discarded and counted (09, R271,
R272). -/
def State.statusBack (s : State) (tag : Half) (st : Status) : State :=
  match s.sync.remotes.find? fun r => r.tag == tag && r.sent with
  | none => s.bump 0x800305 64
  | some r =>
    let s := { s with sync := { s.sync with remotes := s.sync.remotes.filter (·.tag ≠ tag) } }
    if (s.seat r.seat).inc = r.inc && (s.seat r.seat).state ≠ .resetting then s.landAdd r st else s.bump 0x800305 64

/-- The answer to a remote add (09, R271): TADD_STATUS to the sender, over the port or connection that the add came by. -/
def State.answerAdd (s : State) (a : Add) (st : Status) : State :=
  match a.reply with
  | none => s
  | some (from', p) => if from' = selfPort then s.statusBack p.tag st else s.answerVia from' p st

/-- The halt that an overflowing add of seat `n` brings (09, R260): the PLAYING seat halts at its sequencer's boundary; a seat that has
left PLAYING since, and is SEATED, becomes HALTED at once (log 149). -/
def State.haltAdder (s : State) (n c : Nat) : State :=
  if s.play.any (·.seat == n) then s.issueFault c 9
  else if (s.seat n).state = .seated then
    let s := (s.report 1 0x0103 3 (some n) [0, 9, c, 0] none c).clearPending n
    ((s.modSeat n fun i => { i with fromPlaying := false }).setSeat n .halted (some 0x08)).unchoose n
  else s

/-- One add (09, R258, R260): past 2⁶⁴ − 1 the tally stays at its maximum and a deck's add halts its seat; a remote add is refused with
ST_OVERFLOW instead. -/
def State.applyAdd (s : State) (u : Nat) (a : Add) : State :=
  let v := (s.tallyAt u a.tally).toNat + a.amount
  if 2 ^ 64 ≤ v then
    let s := s.bump 0x610005 32
    match a.src, a.seat with
    | .remote _ _, _ => s.answerAdd a .overflow
    | .cd c _, some n => (s.setTally u a.tally (BitVec.ofNat 64 (2 ^ 64 - 1))).haltAdder n c
    | .own _, some n => (s.setTally u a.tally (BitVec.ofNat 64 (2 ^ 64 - 1))).haltAdder n (u % 8)
    | _, _ => s.setTally u a.tally (BitVec.ofNat 64 (2 ^ 64 - 1))
  else (s.setTally u a.tally (BitVec.ofNat 64 v)).answerAdd a .ok

/-- Stalls whose waits now hold end; the instruction issues when it is offered again (09, R261; log 2). A stall with a condition that
still does not hold runs on from its start (R279). -/
def State.freeStalls (s : State) : State :=
  cds.foldl (fun s c =>
    match (s.seq c).stall with
    | some k =>
      if k.kind = 1 && !k.conds.isEmpty && k.conds.all (s.condHolds c) then s.modSeq c fun q => { q with stall := none } else s
    | none => s) s

/-- An add from outside the package's units: the host, firmware, or another package (03, Table 3-10). -/
def Add.outside (a : Add) : Bool := match a.src with | .host | .remote _ _ => true | .own _ | .cd _ _ => false

/-- Pending TLDs of tallies of unit `u` that have changed since `old` take the new value or keep the old one: whether the read's moment
came before the adds or after them is free where an add came from outside, and otherwise fixed by the run (09, R262; 03, R87, Table 3-10; log
24). -/
def State.sampleTlds (s old : State) (u : Nat) (adds : List Add) : State :=
  cds.foldl (fun s c =>
    let hit := fun (p : Pend) => p.tally.any fun t => t.1 == u && old.tallyAt u t.2 != s.tallyAt u t.2
    let out := fun (n : Nat) => adds.any fun a => a.tally == n && a.outside
    if (s.seq c).pend.any hit then
      let (v, s) := if (s.seq c).pend.any fun p => hit p && p.tally.any (fun t => out t.2) then s.free else (0, s)
      s.modSeq c fun q => { q with pend := q.pend.map fun p => match p.tally with
        | some (_, n) =>
          let later := if out n then v.getLsbD (n % 64)
            else Config.tldSeesAdd [c, u, n, (old.tallyAt u n).toNat, (s.tallyAt u n).toNat, q.ctx.pc.toNat]
          if hit p && later then { p with value := some (s.tallyAt u n) } else p
        | none => p }
    else s) s

/-- The first `n` elements of a list that satisfy `p`, and what is left of the list. -/
def takeWhere {α : Type} (p : α → Bool) : Nat → List α → List α × List α
  | 0, l => ([], l)
  | _, [] => ([], [])
  | n + 1, a :: l =>
    if p a then let r := takeWhere p n l; (a :: r.1, r.2) else let r := takeWhere p (n + 1) l; (r.1, a :: r.2)

/-- TALLY_ADD_APPLY: a CD's unit applies up to 8 queued adds, ED_W's up to 16, in order (09, R259). An add to a package tally whose IPS link has
not accepted it waits (10, R299). In DOZE the CDs' units are off, and what waits in their inboxes waits on (14, Table 14-11). -/
def execTallyAddApply (unit : Option Cd) (s : State) : Res :=
  .next (
    let u := match unit with | some c => c.val | none => 8
    let n := if u = 8 then 16 else 8
    let l := Tbl.get [] s.sync.inbox u
    if u ≠ 8 && s.power.tallies.isSome then s
    else
      let r := takeWhere (fun a => u ≠ 8 || s.addArrived a) n l
      let t := { s with sync := { s.sync with inbox := Tbl.set [] s.sync.inbox u r.2 } }
      ((r.1.foldl (fun s a => s.applyAdd u a) t).sampleTlds s u r.1).freeStalls)

/-- What a read of the package tally and lock region returns at an offset: a tally's value, a lock's state code, 0 elsewhere (09, R256,
Table 9-2). -/
def State.tallyRegionRead (s : State) (off : Nat) : Word :=
  if off % 8 ≠ 0 then 0
  else if off < 0x20000 then s.pkgTally (off / 8)
  else if off < 0x20800 then BitVec.ofNat 64 (s.lockAt ((off - 0x20000) / 8)).state
  else 0

/-- TALLY_REGION_WRITE: firmware adds bits [31:0] to a package tally; every other offset does nothing (09, R256). -/
def execTallyRegionWrite (off : Nat) (v : Word) (s : State) : Res :=
  .next (if off < 0x20000 && off % 8 = 0 then
      s.queueAdd 8 { tally := off / 8, amount := v.toNat % 2 ^ 32, src := .host, seat := none }
    else s)

/-- A debugger may see an object: at PACKAGE level every one, at SEAT level those in the ranges of the seats of the token's tenant; a
flag belongs to the PLAYING seat (09, R282; 19, R562). -/
def State.mayDebug (s : State) (kind idx : Nat) : Bool :=
  s.sec.level == 2 || (s.sec.level == 1 && s.liveSeats.any fun x =>
    let e := x.2.entry
    e.tenant == s.sec.tenant && (match kind with
      | 0 => decide (e.cdBase ≤ idx) && decide (idx < e.cdBase + e.cdCount)
      | 1 => decide (e.pkgBase ≤ idx) && decide (idx < e.pkgBase + e.pkgCount)
      | 2 => s.play.any (·.seat == x.1)
      | _ => decide (e.lockBase ≤ idx) && decide (idx < e.lockBase + e.lockCount)))

/-- DBG_SYNC_SEL and DBG_SYNC_VAL (09, R282, Table 9-9): without authorisation the write does not arrive; an object outside the ranges
reads as 0, like one out of range. -/
def execDbgSyncSelWrite (v : Word) (s : State) : Res :=
  .next (
    let sel := BitVec.ofNat 30 (v.toNat &&& 0x3FFF001F)
    let kind := bits v.toNat 0 2
    let cd := bits v.toNat 2 3
    let idx := if kind = 2 then bits v.toNat 16 6 else bits v.toNat 16 14
    let val : Word :=
      if !s.mayDebug kind idx then 0
      else if kind = 0 then (if idx < 4096 then s.cdTally cd idx else 0)
      else if kind = 1 then s.pkgTally idx
      else if kind = 2 then (if idx < 64 then BitVec.ofNat 64 (b2n (s.flag cd idx)) else 0)
      else if idx < 256 then BitVec.ofNat 64 (s.lockAt idx).state else 0
    if s.sec.level = 0 then s else { s with sync := { s.sync with dbgSel := sel, dbgVal := val } })

/-- What a debugger's read of the debug registers returns at an offset from 0x00_00F0_0004_0000 (09, Table 9-9). -/
def State.dbgSyncReg (s : State) (off : Nat) : Nat :=
  if off = 0 then s.sync.dbgSel.toNat else if off = 8 then s.sync.dbgVal.toNat else 0

end Sys2Proof.Machine
end

