-- ==== Sys2Proof/Machine/GroupOps.lean ====
section
/-! DEFINITION. Groups, and how collectives and deals end: completion records, ABORTs, broken and spent groups (12, sections
12.7 and 12.8; 06, R177, R179). -/

namespace Sys2Proof.Machine

/-! ## Groups (12, section 12.7) -/

/-- The engine keys a group by tenant and id (12, section 12.7). -/
def State.group (s : State) (tenant id : Half) : Option Group := s.groups.find? fun g => g.tenant == tenant && g.id == id
def State.modGroup (s : State) (tenant id : Half) (f : Group → Group) : State :=
  { s with groups := s.groups.map fun g => if g.tenant = tenant && g.id = id then f g else g }
def Group.modColl (g : Group) (seq : Quad) (f : Coll → Coll) : Group :=
  { g with colls := g.colls.map fun c => if c.seq = seq then f c else c }
def State.modColl (s : State) (g : Group) (seq : Quad) (f : Coll → Coll) : State :=
  s.modGroup g.tenant g.id fun g => g.modColl seq f

/-! ## Completion (12, R371 to R373) -/

/-- The completion record of a collective or CREATE (12, R373). -/
def recordBytes (st : Status) (opcode : Nat) (group : Half) (seq rank : Nat) : List Byte :=
  [statusCode st, BitVec.ofNat 8 opcode] ++ leBytes 2 group.toNat ++ leBytes 4 seq ++ leBytes 4 rank ++ zeros 4

/-- An operation of a unit ends: only its @done signals are left (03, R63). -/
def State.finOp (s : State) (id : Nat) : State := s.modOp id fun o => { o with fin := true }

/-- Counters of collective completions (12, Table 12-11). -/
def State.countEnd (s : State) (st : Status) : State :=
  match st with
  | .mismatch => s.bump 0x440002 32
  | .peerReset => s.bump 0x440004 32
  | .poison => s.bump 0x440005 32
  | .integrity => s.bump 0x440003 32
  | _ => s

/-- Records of a collective that a member may send ahead: one in progress and the class's early records (12, R370, Table 12-6). -/
def aheadLimit : Nat := 5

/-- READY to the members that a collective exchanges data with (12, R370). -/
def State.sendReady (s : State) (g : Group) (c : Coll) : State :=
  c.peers.foldl (fun s p => s.sendRec g p recReady
    { s.ownRec g c.seq.toNat with hash := c.hash, issueTime := c.issued, dstBase := BitVec.ofNat 64 c.dst }) s

/-! ## The late list (12, R383, R384) -/

/-- A late record joins the late list (12, R384). -/
def addLate (threshold : Nat) (l : List LateEntry) (r : LateRecord) : List LateEntry :=
  if r.position < 18 then
    let e := l.getD r.position {}
    l.set r.position { lastCount := satAdd32 e.lastCount 1
                       lateCount := if threshold < r.lateness then satAdd32 e.lateCount 1 else e.lateCount
                       lateSum := min (e.lateSum + r.lateness) (maxOf 64) }
  else l

/-- The late record of a collective of a telemetry group, at the member of lowest rank at its table: the last issue and its lateness, 0 when the
stamps differ in epoch (12, R383; 13, R391; 16, Table 16-7). It waits for the next REPORT; the dealer's own goes to the late list at once (R384).
Of a collective that ends early the issue times that have come count (log 173). -/
def State.noteLate (s : State) (g : Group) (c : Coll) : State :=
  let here := (List.range g.members.length).filter fun r => (g.members[r]?).any fun m => m.table == s.table.id
  if !g.telemetry || here.head? ≠ some g.rank || g.revision < 5 then s
  else
    let times := here.filterMap fun r => (if r = g.rank then some c.issued else Tbl.get none c.ready r).map fun t => (r, t.toNat)
    match times with
    | [] => s
    | x :: rest =>
      let last := rest.foldl (fun b y => if stampLater y.2 b.2 then y else b) x
      let first := rest.foldl (fun b y => if stampLater b y.2 then y.2 else b) x.2
      let pos := ((g.members[last.1]?).bind fun m => s.slotHolder m.slot).getD 0xFF
      let r : LateRecord := { group := g.id, position := pos, sequence := c.seq.toNat
                              lateness := if last.2 / 2 ^ 60 = first / 2 ^ 60 then min ((last.2 - first) / 1000) (maxOf 32) else 0 }
      if s.deals then { s with table := { s.table with late := addLate (s.obj 0x440081 50) s.table.late r } }
      else if 16 ≤ s.table.records.length then s.bump 0x440007 32
      else { s with table := { s.table with records := s.table.records ++ [r] } }

/-! ## Ends -/

/-- The collective engine owns slots for slab bytes of its CD while the seat plays, and has reserved slots otherwise (03, R79; 12, R375). -/
def State.collParts (s : State) (seat cd : Nat) (l : List (Nat × Nat)) : Bool := !s.play.any (·.seat == seat) || s.partsOpen .coll cd l

/-- A command of the collective engine ends: its completion record is written, before @done acts (12, R373), at once where the engine owns the slots,
else when a phase gives them to it (03, R79). -/
def State.closeColl (s : State) (seat cd record op : Nat) (bs : List Byte) : State :=
  if s.collParts seat cd [(record, bs.length)] then (s.putSlab cd record (good bs)).finOp op
  else s.modOp op fun o => { o with owed := some (record, bs) }

/-- The record that an ended command still owes is written, where the slots are there. -/
def State.payOwed (s : State) (o : Op) : State :=
  match o.owed with
  | none => s
  | some (record, bs) => (s.modOp o.id fun o => { o with owed := none }).closeColl o.seat o.cd record o.id bs

/-- One collective completes on this member: late record, completion record, and the end of its operation; ST_MISMATCH spends the group and
ST_PEER_RESET breaks it (12, R371 to R373, R383). The READY that waited behind it leaves. -/
def State.endOne (s : State) (g : Group) (c : Coll) (st : Status) (rank : Nat) : State :=
  let before := ((s.group g.tenant g.id).map (·.colls.length)).getD 0
  let s := ((s.noteLate g c).countEnd st).closeColl g.seat g.cd c.record c.op (recordBytes st c.opcode g.id c.seq.toNat rank)
  let s := s.modGroup g.tenant g.id fun g => { g with
    colls := g.colls.filter (·.seq ≠ c.seq)
    spent := g.spent || st == .mismatch, broken := g.broken || st == .peerReset }
  match s.group g.tenant g.id with
  | none => s
  | some h =>
    if h.colls.length = before || h.broken || h.spent then s
    else match h.colls[aheadLimit - 1]? with
      | some k => s.sendReady h k
      | none => s

/-- A mismatch at a sequence spends the group: the later collectives in flight complete with ST_MISMATCH too (12, R371). -/
def State.spendGroup (s : State) (g : Group) (seq : Quad) (rank : Nat) : State :=
  let s := s.modGroup g.tenant g.id fun g => { g with spent := true }
  match s.group g.tenant g.id with
  | none => s
  | some h => (h.colls.filter fun k => 0 < (k.seq - seq).toNat && (k.seq - seq).toNat < 2 ^ 31).foldl (fun s k => s.endOne h k .mismatch rank) s

/-- A collective completes on this member with a status, and the lowest rank that set it (12, R371 to R373). -/
def State.endColl (s : State) (g : Group) (c : Coll) (st : Status) (rank : Nat := 0xFFFFFFFF) : State :=
  let s := s.endOne g c st rank
  if st = .mismatch then s.spendGroup g c.seq rank else s

/-- A collective fails here: it completes with a status, and ABORT goes to every member (12, R371, R372). -/
def State.failColl (s : State) (g : Group) (c : Coll) (st : Status) (rank : Nat := 0xFFFFFFFF) : State :=
  (s.endColl g c st rank).sendAbort g c.seq.toNat st

/-- CREATE completes with a status; one that fails reserves nothing, and its ante is released (12, R362, R363; log 40). -/
def State.endCreate (s : State) (g : Group) (st : Status) : State :=
  match g.creating with
  | none => s
  | some op =>
    let s := (s.finOp op).emit (.created g.tenant g.id g.seat st)
    if st = .ok then s.modGroup g.tenant g.id fun g => { g with creating := none }
    else ({ s with groups := s.groups.filter fun h => !(h.tenant == g.tenant && h.id == g.id) } : State).releaseAnte g

/-! ## Deals (06, R177, R179) -/

def Group.modDeal (g : Group) (ord : Nat) (f : Deal → Deal) : Group :=
  { g with deals := g.deals.map fun d => if d.ord = ord then f d else d }
def State.modDeal (s : State) (g : Group) (ord : Nat) (f : Deal → Deal) : State :=
  s.modGroup g.tenant g.id fun g => g.modDeal ord f
def Deal.cd (d : Deal) (c : Nat) : DealCd := Tbl.get ({} : DealCd) d.cds c
def Deal.modCd (d : Deal) (c : Nat) (f : DealCd → DealCd) : Deal := { d with cds := Tbl.modify ({} : DealCd) d.cds c f }

/-- The slab offset of a CD's deal block (06, Table 6-5). -/
def blockOff (desc : List Byte) : Nat := field desc 0x40 4

/-- A phase of a deal completes on a CD with a status: status and phase fields of the block, and the operation ends (06, R177,
Table 6-7). -/
def State.endPhase (s : State) (g : Group) (d : Deal) (c phase op : Nat) (st : Status) : State :=
  let b := blockOff (d.cd c).desc
  let s := (s.putSlab c b (good [statusCode st, BitVec.ofNat 8 phase])).finOp op
  s.modDeal g d.ord fun d => d.modCd c fun k => { k with status := st, phase := phase, closed := phase == 5, fail := none }

/-- The phase that an operation of a deal unit names. -/
def dealPhase : Instr → Nat
  | .dealCnt _ _ => 1 | .dealXch _ _ => 2 | .dealCap _ _ => 3 | .dealGth _ _ => 4 | .dealCmb _ _ => 5 | _ => 0

/-- A deal that every CD of the member has been through is forgotten. -/
def State.dropDeals (s : State) (g : Group) : State :=
  s.modGroup g.tenant g.id fun g => { g with deals := g.deals.filter fun d => !(cds.all fun c => (d.cd c).closed) }

/-- The phase of a group's deal that is in progress on a CD: its operation, and the deal (06, R176). -/
def State.phaseOn (s : State) (g : Group) (c : Nat) : Option (Op × Deal) :=
  (s.headOp c .deal).bind fun o =>
    if o.fin || o.seat ≠ g.seat || field o.data 0 2 ≠ g.id.toNat || dealPhase o.instr = 1 then none
    else (g.deals.find? fun d => d.ord == Tbl.get 0 g.counted c && (d.cd c).phase + 1 == dealPhase o.instr && !(d.cd c).closed).map fun d => (o, d)

/-- Slab bytes of the status and phase fields of a deal block (06, Table 6-7). -/
def blockFields (desc : List Byte) : Nat × Nat := (blockOff desc, 2)

/-- The deal phase in progress on a CD ends with a status, and its bursts are discarded (06, R179): at once where the deal unit owns the
slots of the block's fields, else when a phase gives them to it (R184). -/
def State.failPhase (s : State) (g : Group) (c : Nat) (st : Status) : State :=
  match s.phaseOn g c with
  | none => s
  | some (o, d) =>
    let s := { s with memory := { s.memory with bursts := s.memory.bursts.filter (·.op ≠ o.id) } }
    if s.partsOpen .deal c [blockFields (d.cd c).desc] then s.endPhase g d c (dealPhase o.instr) o.id st
    else s.modDeal g d.ord fun d => d.modCd c fun k => { k with fail := some (k.fail.getD st) }

/-- The deal phase in progress on every CD of the member ends with a status (06, R179). -/
def State.failDeals (s : State) (g : Group) (st : Status) : State := cds.foldl (fun s c => s.failPhase g c st) s

/-- A deal ends with a status on every CD of the member: in its phase in progress, or in the next (06, R177; 12, R371). -/
def State.failDeal (s : State) (g : Group) (d : Deal) (st : Status) : State :=
  cds.foldl (fun s c =>
    match s.phaseOn g c with
    | some (_, e) => if e.ord = d.ord then s.failPhase g c st else s
    | none => s.modDeal g d.ord fun d => d.modCd c fun k => { k with status := if k.status = .ok && !k.closed then st else k.status }) s

/-- The deal of a group that has taken a sequence. -/
def Group.dealAt (g : Group) (seq : Nat) : Option Deal := g.deals.find? fun d => d.seq.any (·.toNat == seq)

/-- A record or row of a sequence comes with another hash: the member's deal of that sequence ends with ST_MISMATCH, the group is spent, and
ABORT goes to every member (12, R371). -/
def State.mismatchDeal (s : State) (g : Group) (d : Deal) (rank : Nat) : State :=
  ((s.spendGroup g (d.seq.getD 0) rank).failDeal g d .mismatch).sendAbort g ((d.seq.map (·.toNat)).getD 0) .mismatch

/-! ## Broken groups (12, R365) -/

/-- A group breaks: its collectives in flight, and the phase of a deal in progress, end with ST_PEER_RESET (12, R365, R372; 06,
R179). -/
def State.breakGroup (s : State) (g : Group) : State :=
  let s := s.modGroup g.tenant g.id fun g => { g with broken := true }
  let s := g.colls.foldl (fun s c => s.failColl g c .peerReset) s
  match s.group g.tenant g.id with
  | some g => s.failDeals g .peerReset
  | none => s

/-- An ABORT from a member reaches a collective in flight (12, R371, R372): it ends with that status; ST_PEER_RESET breaks the group, whose other
collectives end too (R365). -/
def State.abortColl (s : State) (g : Group) (c : Coll) (st : Status) (rank : Nat) : State :=
  let s := s.endColl g c st rank
  if st ≠ .peerReset then s
  else match s.group g.tenant g.id with
    | some h => s.breakGroup h
    | none => s

/-- An ABORT reaches a deal that has its sequence: it ends with that status, which spends or breaks the group (12, R365, R371; 06, R177). -/
def State.abortDeal (s : State) (g : Group) (d : Deal) (st : Status) (rank : Nat) : State :=
  let s := if st = .mismatch then s.spendGroup g (d.seq.getD 0) rank else s
  let s := s.failDeal g d st
  if st ≠ .peerReset then s
  else match s.group g.tenant g.id with
    | some h => s.breakGroup h
    | none => s

/-- Of the records held for a sequence, the one that ends it: the lowest rank of a mismatch, which takes precedence, else the status of the first ABORT
with the lowest rank that sent it (12, R373). `own` says that this member found the mismatch itself, by a READY of another hash. -/
structure HeldEnd where
  status : Status
  rank   : Nat
  own    : Bool

/-- The lowest of some ranks. -/
def lowest (l : List Nat) : Nat := l.foldl min 0xFFFFFFFF

/-- How the ABORTs and READYs held for a sequence end it, if they do, given the member's own hash (12, R371, R373). -/
def heldEnd (aborts early : List CollRec) (hash : Nat) : Option HeldEnd :=
  let bad := (early.filter (·.hash ≠ hash)).map (·.rank)
  let mism := (aborts.filter (·.status == .mismatch)).map (·.rank)
  if !(bad ++ mism).isEmpty then some { status := .mismatch, rank := lowest (bad ++ mism), own := !bad.isEmpty }
  else aborts.head?.map fun r => { status := r.status, rank := lowest ((aborts.filter (·.status == r.status)).map (·.rank)), own := false }

/-- Groups with a member at a (table, slot). -/
def State.groupsAt (s : State) (table : Half) (slot : Nat) : List Group :=
  s.groups.filter fun g => g.members.any fun m => m.table == table && m.slot == slot

/-- What a connection or a position carried to a package fails: remote adds to it complete with a status (11, R339; 12, R360),
and its landing registers take it. -/
def State.failAdds (s : State) (table : Half) (slot : Nat) (st : Status) : State :=
  let hit := s.sync.remotes.filter fun r => r.table == table && r.slot == slot && r.sent
  let s := { s with sync := { s.sync with remotes := s.sync.remotes.filter fun r => !(r.table == table && r.slot == slot && r.sent) } }
  hit.foldl (fun s r => s.landAdd r st) s

/-- Everything outstanding towards a package completes with a status: remote adds, and collectives of groups with a member there
(11, R339; 12, R360). -/
def State.failPeer (s : State) (table : Half) (slot : Nat) (st : Status) : State :=
  let s := s.failAdds table slot st
  (s.groupsAt table slot).foldl (fun s g =>
    let s := (g.colls.foldl (fun s c => s.failColl g c st) s).endCreate g st
    match s.group g.tenant g.id with
    | some g => s.failDeals g st
    | none => s) s

end Sys2Proof.Machine
end

