-- ==== Sys2Proof/Machine/Dummy.lean ====
section
/-! DEFINITION. The dummy: pools and open ranges on the buddy, epochs, restores and queries on the owner (18, section 18.6;
19, R554). -/

namespace Sys2Proof.Machine

/-! ## Layout (18, Tables 18-10 to 18-12) -/

/-- Device address of half `h` of a seat's dummy, on the buddy. -/
def halfBase (e : Entry) (h : Nat) : Nat := e.dummyBase + h * e.dummyHalf
/-- Device address of its commit page. -/
def commitAt (e : Entry) (h : Nat) : Nat := halfBase e h + e.dummyHalf - 4096

/-- A window that can be shadowed: w = 1, route 0x00, in the near or far tier (18, R528). -/
def shadowable (w : Window) : Bool :=
  w.w && w.size ≠ 0 && routeOf w.base == 0 && (match target w.base with | .far _ | .near _ => true | _ => false)

/-- The windows that a shadow mask names, ascending (18, R528). -/
def shadowWindows (e : Entry) (mask : Half) : List (Nat × Window) :=
  ((List.range 16).map fun i => (i, e.windows.getD i {})).filter fun p => mask.getLsbD p.1 && shadowable p.2

/-- Pages of a window. -/
def pagesOf (w : Window) : Nat := (w.size + 65535) / 65536

/-- Count of pages of a shadow set. -/
def pageTotal (ws : List (Nat × Window)) : Nat := ws.foldl (fun t p => t + pagesOf p.2) 0

/-- Offset in the half at which the pages start. -/
def pagesAt (p : Nat) : Nat := 65536 + roundUp (48 * p) 65536

/-- The windows with the offset of their first page in the half. -/
def placeWindows (off : Nat) : List (Nat × Window) → List (Nat × Window × Nat)
  | [] => []
  | (i, w) :: t => (i, w, off) :: placeWindows (off + roundUp w.size 65536) t

/-- The seat page (18, Table 18-11). -/
def seatPageBytes (capture entry : List Byte) (mask : Half) (p : Nat) (ws : List (Nat × Window × Nat)) : List Byte :=
  padTo 65536 (padTo 4096 capture ++ padTo 512 entry ++ leBytes 2 mask.toNat ++ zeros 6 ++ leBytes 8 p
    ++ ws.flatMap fun (i, w, off) => [BitVec.ofNat 8 i] ++ zeros 7 ++ leBytes 8 w.size ++ leBytes 8 off ++ leBytes 8 (pagesOf w))

/-- The manifest: the SHA-384 of each page. -/
def manifestBytes (hashes : Tbl Nat) (p : Nat) : List Byte := (List.range p).flatMap fun i => leBytes 48 (Tbl.get 0 hashes i)

/-- The commit record (18, Table 18-12). -/
def commitBytes (tenant : Half) (serial : Word) (e : Epoch) : List Byte :=
  leBytes 4 0x594D4D44 ++ [1, BitVec.ofNat 8 e.half] ++ leBytes 2 tenant.toNat ++ leBytes 8 e.epoch.toNat ++ leBytes 8 e.length
    ++ leBytes 8 serial.toNat ++ leBytes 2 e.seat ++ zeros 2 ++ leBytes 4 e.inc.toNat ++ leBytes 8 e.opened.toNat
    ++ leBytes 8 e.heartbeat.toNat ++ leBytes 8 e.cycles.toNat
    ++ leBytes 48 (sha384 (e.seatPage ++ manifestBytes e.hashes e.pages))

/-- A commit record is valid but for its digest (18, Table 18-12). -/
def commitOk (e : Entry) (h : Nat) (b : List Byte) : Bool :=
  field b 0 4 == 0x594D4D44 && field b 4 1 == 1 && field b 5 1 == h && decide (field b 0x10 8 + 4096 ≤ e.dummyHalf)
    && field b 6 2 == e.tenant.toNat

/-! ## Requests of firmware to the buddy (12, R357) -/

/-- Packet tags of a seat's epoch writes, epoch reads and restore reads. -/
def epochWTag (n : Nat) : Half := BitVec.ofNat 16 (0x4000 + n)
def epochRTag (n : Nat) : Half := BitVec.ofNat 16 (0x5000 + n)
def restoreTag (n : Nat) : Half := BitVec.ofNat 16 (0x6000 + n)

/-- A firmware WRITE. -/
def State.fwWrite (s : State) (pos : Nat) (tag : Half) (addr : Nat) (bs : List PByte) : State :=
  s.sendPacket { op := 1, tag := tag, dstPos := pos, incarnation := s.fw.pkgInc, arg := BitVec.ofNat 64 addr
                 ext := BitVec.ofNat 64 (poisonMask bs), data := plain bs }
/-- A firmware READ_REQ. -/
def State.fwRead (s : State) (pos : Nat) (tag : Half) (addr len : Nat) : State :=
  s.sendPacket { op := 3, tag := tag, dstPos := pos, incarnation := s.fw.pkgInc, arg := BitVec.ofNat 64 addr, reqLen := len }

/-- DUMMY_OPEN to a seat's buddy, for an epoch or for the restore or query of key `n` (18, R530). -/
def State.askOpen (s : State) (n : Nat) (restore : Bool) : State :=
  let e := (s.seat (n % 4096)).entry
  let q := s.mgmt.mbxSeq
  let s := s.sendMbx e.buddy 0x0100 (n % 4096) (leBytes 2 (n % 4096) ++ leBytes 2 e.tenant.toNat ++ zeros 4 ++ leBytes 8 e.dummyBase ++ leBytes 8 (2 * e.dummyHalf))
  { s with maint := { s.maint with opens := s.maint.opens ++ [(q, n, restore)] } }

/-! ## An epoch (18, R533, R534) -/

def State.modEpoch (s : State) (n : Nat) (f : Epoch → Epoch) : State :=
  { s with rel := { s.rel with epochs := s.rel.epochs.map fun e => if e.seat = n then f e else e } }
def State.half (s : State) (n h : Nat) : Option HalfInfo := Tbl.get none s.rel.halves (2 * n + h)
def State.setHalf (s : State) (n h : Nat) (v : Option HalfInfo) : State :=
  { s with rel := { s.rel with halves := Tbl.set none s.rel.halves (2 * n + h) v } }

/-- The half that does not hold the last committed epoch; A when neither does (18, R533). -/
def State.chooseHalf (s : State) (n : Nat) : Nat :=
  let last := (s.seat n).lastEpoch
  if last ≠ 0 && (s.half n 0).any (·.epoch == last) then 1 else 0

/-- A page may differ from the copy that was opened at a write stamp (18, R534). -/
def Memory.dirty (m : Memory) (stamp dev len : Nat) : Bool :=
  (List.range ((dev + len - 1) / 65536 - dev / 65536 + 1)).any fun i => stamp < Tbl.get 0 m.pageStamp (dev / 65536 + i)

/-- The chunks of the seat page and of every page that may differ from the half (18, R534 step 2). -/
def State.pageChunks (s : State) (n : Nat) (x : Epoch) (since : Option Nat) : List Chunk :=
  let e := (s.seat n).entry
  let base := halfBase e x.half
  let ws := placeWindows (pagesAt x.pages) (shadowWindows e x.mask)
  let firsts := ws.foldl (fun (acc : Nat × List (Nat × Window × Nat)) w => (acc.1 + pagesOf w.2.1, acc.2 ++ [(acc.1, w.2.1, w.2.2)]))
    (0, [])
  let one := fun (first : Nat) (w : Window) (off k : Nat) =>
    ({ dst := base + off + 65536 * k, len := min 65536 (w.size - 65536 * k)
       src := .pages (w.base + 65536 * k) (slotOf e w.k) (first + k) } : Chunk)
  let pages := firsts.2.flatMap fun (first, w, off) =>
    ((List.range (pagesOf w)).filter fun k => match since with
      | none => true
      | some st => s.memory.dirty st (w.base + 65536 * k) (min 65536 (w.size - 65536 * k))).map (one first w off)
  { dst := base, len := 65536, src := .lit x.seatPage } :: pages

/-- The chunks of the manifest's 64 KiB pages that changed (18, R534 step 2). -/
def manifestChunks (base : Nat) (x : Epoch) : List Chunk :=
  let new := manifestBytes x.hashes x.pages
  let old := manifestBytes x.old x.pages
  let cut := fun (l : List Byte) (k : Nat) => (l.drop (65536 * k)).take 65536
  ((List.range ((new.length + 65535) / 65536)).filter fun k => x.old.isEmpty || cut new k ≠ cut old k).map fun k =>
    { dst := base + 65536 + 65536 * k, len := (cut new k).length, src := .lit (cut new k) }

/-- What the stage of a copy has to write. -/
def State.fillStage (s : State) (n : Nat) (x : Epoch) (stage : Nat) : Epoch :=
  let e := (s.seat n).entry
  let zero := fun h => ({ dst := commitAt e h, len := 4096, src := .zero } : Chunk)
  match stage with
  | 3 => { x with stage := 3, todo := if (s.seat n).lastEpoch = 0 then [zero 0, zero 1] else [zero x.half] }
  | 4 =>
    let known := (s.half n x.half).bind fun k => if k.epoch ≠ 0 && k.mask = x.mask then k.stamp.map fun st => (st, k.hashes) else none
    { x with stage := 4, hashes := (known.map (·.2)).getD [], old := (known.map (·.2)).getD []
             todo := s.pageChunks n x (known.map (·.1)) }
  | 5 => { x with stage := 5, todo := manifestChunks (halfBase e x.half) x }
  | _ => { x with stage := 6, todo := [{ dst := commitAt e x.half, len := 4096, src := .lit (padTo 4096 (commitBytes e.tenant s.serial x)) }] }

/-- The bytes of the next packet of a chunk. -/
def State.chunkBytes (s : State) (c : Chunk) (k : Nat) : List PByte :=
  match c.src with
  | .zero => good (zeros k)
  | .lit b => good ((b.drop c.sent).take k)
  | .pages dev slot _ => s.readSlot slot (dev + c.sent) k

/-- The next write of a copy leaves; a page read to its end is hashed, and the last one brings the epoch tally its 1 (18, R534
steps 2 and 3). -/
def State.sendChunk (s : State) (n : Nat) (x : Epoch) (c : Chunk) (rest : List Chunk) : State :=
  let k := min 4096 (c.len - c.sent)
  let bs := s.chunkBytes c k
  let whole := c.len ≤ c.sent + k
  let buf := x.buf ++ plain bs
  let x := match c.src with
    | .pages _ _ p =>
      if whole then { x with buf := [], hashes := Tbl.set 0 x.hashes p (sha384 buf) } else { x with buf := buf }
    | _ => x
  let x := { x with todo := if whole then rest else { c with sent := c.sent + k } :: rest, waiting := some s.ns }
  let last := x.stage = 4 && x.todo.isEmpty
  let s := s.modEpoch n fun _ => { x with tallied := x.tallied || last }
  let s := s.fwWrite x.buddy (epochWTag n) (c.dst + c.sent) bs
  if last then s.tallyEpoch n else s

/-- Write one field of a seat's entry in the table. -/
def State.writeField (s : State) (n off : Nat) (bs : List Byte) : State := s.writeSlot 0 (s.entryAt n + off) (good bs)

/-- EPOCH_COMMIT (18, R534 step 4). -/
def State.commitEpoch (s : State) (n : Nat) (x : Epoch) : State :=
  let s := { s with rel := { s.rel with epochs := s.rel.epochs.filter (·.seat ≠ n) } }
  let s := s.setHalf n x.half (some { epoch := x.epoch, mask := x.mask, stamp := some x.stampAt, hashes := x.hashes })
  let s := if x.epoch = 1 then s.setHalf n (1 - x.half) (some { epoch := 0 }) else s
  (s.modSeat n fun i => { i with lastEpoch := x.epoch }).writeField n 0x68 (leBytes 8 x.epoch.toNat)

/-- The copy goes on: the next write, or the next stage (18, R534). `k` bounds the empty stages passed at once. -/
def State.epochNext (s : State) (n : Nat) : Nat → State
  | 0 => s
  | k + 1 =>
    match s.rel.epochs.find? (·.seat == n) with
    | none => s
    | some x =>
      if x.waiting.isSome || x.stage = 0 then s
      else if x.stage < 3 then
        (s.modEpoch n fun x => { x with waiting := some s.ns }).fwRead x.buddy (epochRTag n) (commitAt (s.seat n).entry (x.stage - 1)) 0x70
      else match x.todo with
        | c :: t => s.sendChunk n x c t
        | [] =>
          if x.stage = 6 then s.commitEpoch n x
          else
            -- a copy that starts to invalidate H knows nothing of it until it commits
            let y := s.fillStage n x (x.stage + 1)
            let s := if x.stage = 3 then s.setHalf n x.half none else s
            (s.modEpoch n fun _ => y).epochNext n k

/-- Both halves are known: the half is chosen, and the zero commit pages come first (18, R533, R534 step 1). -/
def State.epochStart (s : State) (n : Nat) : State :=
  let h := s.chooseHalf n
  let s := s.modEpoch n fun x => s.fillStage n { x with half := h, buf := [] } 3
  s.epochNext n 8

/-- The commit record of a half has been read (18, R534). -/
def State.epochRecord (s : State) (n : Nat) (bs : List PByte) : State :=
  match s.rel.epochs.find? (·.seat == n) with
  | none => s
  | some x =>
    if x.stage ≠ 1 && x.stage ≠ 2 then s
    else
      let h := x.stage - 1
      let ok := !anyPoison bs && commitOk (s.seat n).entry h (plain bs)
      let s := s.setHalf n h (some { epoch := if ok then BitVec.ofNat 64 (field (plain bs) 8 8) else 0 })
      let s := s.modEpoch n fun x => { x with waiting := none, stage := x.stage + 1 }
      if h = 0 then s.epochNext n 1 else s.epochStart n

/-- The WRITE_ACK of a copy's write (18, R534, R535). -/
def State.epochAck (s : State) (n : Nat) (st : Status) : State :=
  if st = .ok then (s.modEpoch n fun x => { x with waiting := none }).epochNext n 8 else s.abandonEpoch n st

/-- The timebase has passed a multiple of epoch_period seconds since the mark (18, R533). -/
def State.epochDue (s : State) (n : Nat) : Bool :=
  let i := s.seat n
  let p := i.entry.epochPeriod
  p ≠ 0 && decide (i.epochMark.toNat / p < s.ns / 1000000000 / p)

/-- The snapshot is offered: the epoch tally is odd, or the seat has none (18, R529). -/
def State.offered (s : State) (n : Nat) : Bool :=
  match epochTally (s.seat n).entry with
  | none => true
  | some t => (Tbl.get 0 s.sync.pkgTally t).toNat % 2 == 1

/-- EPOCH_OPEN: an epoch opens at a switch point of the PLAYING seat (18, R527, R528, R533). -/
def execEpochOpen (s : State) : Res :=
  .next (match s.play with
    | none => s
    | some p =>
      let n := p.seat
      let at' := match p.phase with | .draining _ => true | _ => false
      if !at' || s.dev ≠ .live || !s.epochDue n || !s.offered n || !s.mayStart 5 (some n) then s
      else if !s.hasDummy n then
        if (s.seat n).epochBad then s
        else (s.modSeat n fun i => { i with epochBad := true }).report 1 0x0701 10 (some n) [(s.seat n).lastEpoch.toNat + 1, 0] (some .badArg)
      else
        let s := s.modSeat n fun i => { i with
          epochMark := BitVec.ofNat 64 (s.ns / 1000000000), shadow := i.shadowNext.getD i.shadow, shadowNext := none }
        let i := s.seat n
        let e := i.entry
        let ws := shadowWindows e i.shadow
        let np := pageTotal ws
        let places := placeWindows (pagesAt np) ws
        let len := pagesAt np + ws.foldl (fun t w => t + roundUp w.2.size 65536) 0
        let cap := let t := (s.saveContexts n).seat n; contextBytes t.ctx t.conv
        let x : Epoch := {
          seat := n, epoch := i.lastEpoch + 1, half := s.chooseHalf n, buddy := e.buddy, opened := s.now
          heartbeat := BitVec.ofNat 64 (if e.heartbeat = 0xFFFF then 0 else (Tbl.get 0 s.sync.pkgTally e.heartbeat).toNat)
          cycles := (s.seq 0).ctx.cyc, inc := i.inc, mask := i.shadow, length := len, pages := np
          seatPage := seatPageBytes cap (patchEntry i) i.shadow np places, stampAt := s.memory.stamp }
        let s := { s with rel := { s.rel with epochs := s.rel.epochs ++ [x] } }
        if e.dummyHalf < len + 4096 then s.abandonEpoch n .overflow
        else if (s.half n 0).isSome && (s.half n 1).isSome then s.epochStart n
        else s.askOpen n false)

/-! ## The buddy's side (18, R530, R531; 19, R554) -/

/-- A reply to an MBX request of another package (16, R465, R474). -/
def State.mbxReply (s : State) (pos type : Nat) (q : Half) (inc : Quad) (st : Status) (retry : Nat := 0) : State :=
  s.sendPacket { op := 0x0B, dstPos := pos, incarnation := s.fw.pkgInc
                 data := msgBytes type q st 1 s.fw.pkgInc inc 0xFFFF (if retryable st then retry else 0) s.now [] }

/-- The package is at a table and takes packets: LIVE or FOLDED (11, section 11.6; 18, R526). -/
def State.takesPackets (s : State) : Bool := s.hasTable && (s.dev == .live || s.dev == .folded)

/-- A seat's restore and its query have keys of their own: the seat, and the seat + 4,096. -/
def Restore.key (r : Restore) : Nat := r.seat + 4096 * b2n (r.mode == 2)

/-- A restore or query ends with a status and its report (18, R536, R537). -/
def State.endRestore (s : State) (k : Nat) (st : Status) : State :=
  match s.maint.restores.find? (·.key == k) with
  | none => s
  | some r =>
    let s := { s with maint := { s.maint with restores := s.maint.restores.filter (·.key ≠ k) } }
    if r.mode = 2 then s.report 1 0x0704 0 (some r.seat) [0, 0, 0, 0] (some st)
    else
      let e := ((Tbl.get none r.halves r.half).map fun b => field b 8 8).getD 0
      s.report 1 0x0702 1 (some r.seat) [e, r.half, r.written] (some st)

/-- A range lies wholly in the dummy pool. -/
def inPool (pool : BitVec 48) (base len : Nat) : Bool :=
  inFar base len && len ≠ 0 && (List.range 48).all fun b => pool.getLsbD b || !overlap base len (b * 0x200000000) 0x200000000

/-- The checks of DUMMY_OPEN, in order (18, Table 18-9; 19, R554). -/
def State.judgeOpen (s : State) (m : DummyMsg) : Status × Nat :=
  let meet := s.maint.hosted.filter fun h => overlap h.base h.length m.base m.length
  let equal := fun (h : Hosted) => h.base == m.base && h.length == m.length
  let lost := fun (h : Hosted) =>
    let st := (s.table.roster.entries.getD h.pos {}).state
    st == 4 || st == 5
  if s.dev = .folded then (.folded, 0)
  else if s.dev ≠ .live then (.busy, 1000000)
  else if m.base % 65536 ≠ 0 || m.length % 65536 ≠ 0 || m.length = 0 then (.badArg, 0)
  else if !inPool s.rel.pool m.base m.length then (.noAccess, 0)
  else if overlap s.tableAt (512 * s.entries) m.base m.length
      || s.liveSeats.any (fun x => overlap x.2.entry.contextArea 4096 m.base m.length) then (.conflict, 0)
  else match meet.find? (·.scrub.isSome) with
    | some h => (.conflict, s.usUntil (h.scrub.getD 0))
    | none =>
      if meet.any (fun h => h.tenant ≠ m.tenant) then (.tenantBlocked, 0)
      else if meet.any (fun h => !equal h) then (.conflict, 0)
      else if meet.any (fun h => !(h.serial == m.serial && h.seat == m.seat) && !lost h) then (.conflict, 0)
      else (.ok, 0)

/-- Learn a peer's pkg_incarnation: what it had not answered completes with ST_RECEIVER_RESET (16, R474). -/
def State.learnInc (s : State) (pos : Nat) (inc : Quad) : State :=
  let old := Tbl.get 0 s.mgmt.peers pos
  let s := { s with mgmt := { s.mgmt with peers := Tbl.set 0 s.mgmt.peers pos inc.toNat } }
  if old = 0 || old = inc.toNat then s
  else
    let hit := (s.mgmt.asked.filter fun a => a.2.1 == pos).map (·.1)
    let waiters := s.maint.opens.filter fun o => hit.contains o.1
    let s := { s with
      mgmt := { s.mgmt with asked := s.mgmt.asked.filter fun a => a.2.1 ≠ pos }
      maint := { s.maint with opens := s.maint.opens.filter fun o => !hit.contains o.1 } }
    waiters.foldl (fun s o => if o.2.2 then s.endRestore o.2.1 .receiverReset else s.abandonEpoch o.2.1 .receiverReset) s

/-- An MBX message's meaning: the message leaves the packets that wait, unless its port's domain is closing (11, R329; 16, R474). -/
def State.onMbx (s : State) (pos type : Nat) (q : Half) (reply : Bool) (f : State → State) : State :=
  let hit := fun (x : Nat × Packet) => x.2.op == 0x0B && x.2.srcPos == pos && field x.2.data 2 2 == type
    && field x.2.data 4 2 == q.toNat && bit (field x.2.data 7 1) 0 == reply
  if !s.takesPackets then s
  else match s.takeOpen hit { op := 0x0B, srcPos := pos, tag := q, group := 0xFFFF } with
    | (s, none) => s
    | (s, some _) => f s

/-- A DUMMY message's meaning, once the peer's incarnation is learnt. -/
def State.onDummy (s : State) (type : Nat) (m : DummyMsg) (f : State → State) : State :=
  s.onMbx m.srcPos type m.sequence false fun s => f (s.learnInc m.srcPos m.senderInc)

/-- DUMMY_OPEN (18, R530, R526). -/
def execDummyOpen (m : DummyMsg) (s : State) : Res :=
  .next (s.onDummy 0x0100 m fun s =>
      let (st, retry) := if m.receiverInc ≠ 0 && m.receiverInc ≠ s.fw.pkgInc then (.peerReset, 0) else s.judgeOpen m
      let (retry, s) := s.hinted st retry
      let s := if st = .ok then
          let h : Hosted := { pos := m.srcPos, serial := m.serial, seat := m.seat, tenant := m.tenant, base := m.base, length := m.length }
          { s with maint := { s.maint with hosted := (s.maint.hosted.filter fun h => h.base ≠ m.base) ++ [h] } }
        else s
      s.mbxReply m.srcPos 0x0100 m.sequence m.senderInc st retry)

/-- A hosted range is closed, and its scrub starts: 64 bytes in each reserved slot, 256 GB/s at divider 4 (19, R554). -/
def State.closeHosted (s : State) (p : Hosted → Bool) : State :=
  let close := fun (h : Hosted) =>
    if p h && h.scrub.isNone then { h with scrub := some (s.ns + h.length * s.clk.div / 4 / 256) } else h
  { s with maint := { s.maint with hosted := s.maint.hosted.map close } }

/-- DUMMY_CLOSE (18, R531). -/
def execDummyClose (m : DummyMsg) (s : State) : Res :=
  .next (s.onDummy 0x0101 m fun s => s.closeHosted fun h => h.serial == m.serial && h.seat == m.seat && h.base == m.base)

/-- DUMMY_SCRUB_END: the range reads zeros under slot 0 and can be opened again (19, R554). -/
def execDummyScrubEnd (base : Nat) (s : State) : Res :=
  .next (match s.maint.hosted.find? fun h => h.base == base && h.scrub.isSome with
    | none => s
    | some h => { s with
        memory := s.memory.zeroRange (s.keyOf 0) h.base h.length
        maint := { s.maint with hosted := s.maint.hosted.filter fun k => k.base ≠ base } })

/-- DUMMY_NOTICE to the owner of a hosted half (18, R531). -/
def State.dummyNotice (s : State) (h : Hosted) (half reason : Nat) : State :=
  s.sendMbx h.pos 0x0102 h.seat (leBytes 2 h.seat ++ leBytes 8 h.base ++ [BitVec.ofNat 8 half, BitVec.ofNat 8 reason]) false

/-- DUMMY_NOTICE: the owner reports 0x0703, and knows nothing of the half any more (18, R531). -/
def execDummyNotice (m : DummyMsg) (s : State) : Res :=
  .next (s.onDummy 0x0102 m fun s =>
      let i := s.seat m.seat
      if i.state = .free || i.entry.dummyBase ≠ m.base || i.entry.buddy ≠ m.srcPos then s
      else
        let e := ((s.half m.seat m.half).map (·.epoch.toNat)).getD 0
        (s.setHalf m.seat m.half none).report 1 0x0703 1 (some m.seat) [e, m.half, m.srcPos, m.reason])

/-! ## Requests of the maintenance manager (18, Table 18-13) -/

/-- DUMMY_POOL (18, R530, R531; 19, R551). -/
def State.dummyPool (s : State) (mask : BitVec 48) : State × Status × Nat :=
  let bad := s.liveSeats.any fun x => x.2.entry.windows.any fun w =>
    !w.k && routeOf w.base == 0 && meetsPool mask w.base w.size
  if bad then (s, .conflict, 0)
  else
    let s := { s with rel := { s.rel with pool := mask } }
    let out := s.maint.hosted.filter fun h => h.scrub.isNone && !inPool mask h.base h.length
    let s := s.closeHosted fun h => !inPool mask h.base h.length
    (out.foldl (fun s h => (s.dummyNotice h 0 1).dummyNotice h 1 1) s, .ok, 0)

def execDummyPool (ch : Channel) (mask : BitVec 48) (s : State) : Res :=
  .next (s.objAct ch 0x6400 0x80 fun s => s.dummyPool mask)

/-- SHADOW_SET: the mask applies from the next epoch (18, R528, R540). -/
def State.shadowSet (s : State) (n : Nat) (all : Bool) (mask : Half) : State × Status × Nat :=
  if s.entries ≤ n || (s.seat n).state = .free then (s, .notFound, 0)
  else (s.modSeat n fun i => { i with shadowNext := some (if all then 0xFFFF else mask) }, .ok, 0)

def execShadowSet (ch : Channel) (seat : Nat) (all : Bool) (mask : Half) (s : State) : Res :=
  .next (s.objAct ch 0x6400 0x80 fun s => s.shadowSet seat all mask)

/-- One half of a hosted range, as its manifest and commit record say it should read (18, section 18.7). -/
def State.halfDiffers (s : State) (base half : Nat) : Bool :=
  let rd := fun (a n : Nat) => s.readSlot 0 a n
  let sp := rd base 65536
  let p := field (plain sp) 0x1208 8
  let recs := (List.range 16).map fun i =>
    (field (plain sp) (0x1210 + 32 * i + 8) 8, field (plain sp) (0x1210 + 32 * i + 16) 8, field (plain sp) (0x1210 + 32 * i + 24) 8)
  let man := rd (base + 65536) (48 * p)
  let places := (recs.flatMap fun (size, off, k) => (List.range k).map fun j => (off + 65536 * j, min 65536 (size - 65536 * j))).take p
  !inOneMem base half || decide (half < 65536 + 48 * p) || anyPoison sp || anyPoison man || decide (places.length < p)
    || places.zipIdx.any fun ((off, n), j) =>
      let b := rd (base + off) n
      anyPoison b || sha384 (plain b) ≠ field (plain man) (48 * j) 48

/-- A commit record stands at the end of a hosted half. -/
def State.halfCommitted (s : State) (base half : Nat) : Bool :=
  let b := plain (s.readSlot 0 (base + half - 4096) 0x70)
  field b 0 4 == 0x594D4D44 && field b 4 1 == 1

/-- SWEEP: each hosted committed half is hashed again; one that differs gets a zero commit page, and its owner a DUMMY_NOTICE (18,
Table 18-15). -/
def State.sweepAll (s : State) : State :=
  (s.maint.hosted.filter (·.scrub.isNone)).foldl (fun s h =>
    [0, 1].foldl (fun s k =>
      let base := h.base + k * (h.length / 2)
      if s.halfCommitted base (h.length / 2) && s.halfDiffers base (h.length / 2) then
        (s.writeSlot 0 (base + h.length / 2 - 4096) (good (zeros 4096))).dummyNotice h k 2
      else s) s) s

/-- SWEEP: on request, or by OHM-REL every 24 h, when it waits for its conflicts to end (18, R541). -/
def execSweep (ch : Option Channel) (s : State) : Res :=
  .next (match ch with
    | some ch => s.objAct ch 0x6400 0x80 fun s => s.allowActivity 6 none fun s => (s.sweepAll, .ok, 0)
    | none => if s.dev = .live && s.mayStart 6 then s.sweepAll else s)

/-! ## Restore (18, R536, R537) -/

def State.modRestore (s : State) (n : Nat) (f : Restore → Restore) : State :=
  { s with maint := { s.maint with restores := s.maint.restores.map fun r => if r.key = n then f r else r } }

/-- The window records of a seat page: window, size, offset in the half, pages. -/
def windowRecs (sp : List Byte) : List (Nat × Nat × Nat × Nat) :=
  ((List.range 16).map fun i =>
    let b := 0x1210 + 32 * i
    (field sp b 1, field sp (b + 8) 8, field sp (b + 16) 8, field sp (b + 24) 8)).filter fun r => r.2.2.2 ≠ 0

/-- Page `p` of a list of window records: window, page within it, offset in the half, bytes. -/
def pagePlace (p : Nat) : List (Nat × Nat × Nat × Nat) → Option (Nat × Nat × Nat × Nat)
  | [] => none
  | (w, size, off, k) :: t =>
    if p < k then some (w, p, off + 65536 * p, min 65536 (size - 65536 * p)) else pagePlace (p - k) t

/-- The stored bytes of the half a restore has chosen: commit record, seat page, manifest. -/
def Restore.held (r : Restore) : List Byte := (Tbl.get none r.halves r.half).getD []
def Restore.seatPage (r : Restore) : List Byte := (r.held.drop 0x70).take 65536
def Restore.manifest (r : Restore) : List Byte := r.held.drop (0x70 + 65536)

/-- What the restore reads now: address on the buddy and bytes in all. -/
def State.restoreItem (s : State) (r : Restore) : Nat × Nat :=
  let e := (s.seat r.seat).entry
  match r.phase with
  | 1 => (commitAt e 0, 0x70)
  | 3 => (commitAt e 1, 0x70)
  | 2 | 4 =>
    let p := if r.buf.length < 65536 then 0 else min (field r.buf 0x1208 8) (e.dummyHalf / 48)
    (halfBase e (r.phase / 2 - 1), 65536 + 48 * p)
  | _ =>
    match pagePlace r.page (windowRecs r.seatPage) with
    | some (_, _, off, n) => (halfBase e r.half + off, n)
    | none => (0, 0)

/-- The restore asks for its next 4 KiB. -/
def State.restoreRead (s : State) (n : Nat) : State :=
  match s.maint.restores.find? (·.key == n) with
  | none => s
  | some r =>
    let (a, len) := s.restoreItem r
    s.fwRead (s.seat r.seat).entry.buddy (restoreTag n) (a + r.buf.length) (min 4096 (len - r.buf.length))

/-- Epoch and heartbeat of a half that holds a valid commit record. -/
def Restore.facts (r : Restore) (h : Nat) : Option (Nat × Nat) :=
  (Tbl.get none r.halves h).map fun b => (field b 8 8, field b 0x30 8)

/-- The half that a request matches: the newest of those that match (18, Table 18-14). -/
def Restore.pick (r : Restore) : Option Nat :=
  let ok := fun (h : Nat) => (r.facts h).any fun f =>
    if r.mode = 1 then f.2 == r.value else r.value == 0 || f.1 == r.value
  match ok 0, ok 1 with
  | true, true => if ((r.facts 0).map (·.1)).getD 0 < ((r.facts 1).map (·.1)).getD 0 then some 1 else some 0
  | true, false => some 0
  | false, true => some 1
  | false, false => none

/-- Both halves are known: a query reports, a restore chooses and checks its windows (18, R536, Table 18-14). -/
def State.restoreDecide (s : State) (n : Nat) (r : Restore) : State :=
  if r.mode = 2 then
    let f := fun h => (r.facts h).getD (0, 0)
    let s := { s with maint := { s.maint with restores := s.maint.restores.filter (·.key ≠ n) } }
    s.report 1 0x0704 0 (some r.seat) [(f 0).1, (f 0).2, (f 1).1, (f 1).2] (some .ok)
  else match r.pick with
    | none => s.endRestore n .notFound
    | some h =>
      let r := { r with half := h, phase := 5, page := 0, buf := [], bad := false }
      let s := s.modRestore n fun _ => r
      let e := (s.seat r.seat).entry
      let ok := (windowRecs r.seatPage).all fun (w, size, _, _) =>
        decide (w < 16) && (e.windows.getD w {}).size == size && shadowable (e.windows.getD w {})
      if !ok then s.endRestore n .badArg
      else if field r.seatPage 0x1208 8 = 0 then s.modRestore n fun r => { r with phase := 6 }
      else s.restoreRead n

/-- A whole item has been read. -/
def State.restoreItemEnd (s : State) (n : Nat) (r : Restore) : State :=
  let e := (s.seat r.seat).entry
  let go := fun (s : State) (r : Restore) =>
    let s := s.modRestore n fun _ => r
    if r.phase = 5 then s.restoreDecide n r else s.restoreRead n
  match r.phase with
  | 1 | 3 =>
    let h := r.phase / 2
    if !r.bad && commitOk e h r.buf then
      go s { r with halves := Tbl.set none r.halves h (some r.buf), buf := [], bad := false, phase := r.phase + 1 }
    else go s { r with buf := [], bad := false, phase := r.phase + 2 }
  | 2 | 4 =>
    let h := r.phase / 2 - 1
    let rec' := (Tbl.get none r.halves h).getD []
    let ok := !r.bad && sha384 r.buf == field rec' 0x40 48
    let v : Option (List Byte) := if ok then some (rec' ++ r.buf) else none
    go s { r with halves := Tbl.set none r.halves h v, buf := [], bad := false, phase := r.phase + 1 }
  | _ =>
    match pagePlace r.page (windowRecs r.seatPage) with
    | none => s.modRestore n fun r => { r with phase := 6 }
    | some (w, k, _, len) =>
      if r.bad || sha384 r.buf ≠ field r.manifest (48 * r.page) 48 then s.endRestore n .integrity
      else
        let x := e.windows.getD w {}
        let s := s.writeSlot (slotOf e x.k) (x.base + 65536 * k) (good r.buf)
        let r := { r with page := r.page + 1, written := r.written + len, buf := [], bad := false }
        if field r.seatPage 0x1208 8 ≤ r.page then s.modRestore n fun _ => { r with phase := 6 }
        else (s.modRestore n fun _ => r).restoreRead n

/-- READ_DATA of a restore arrives (18, R537). -/
def State.restoreData (s : State) (n : Nat) (bs : List PByte) : State :=
  match s.maint.restores.find? (·.key == n) with
  | none => s
  | some r =>
    if r.phase = 0 || r.phase = 6 then s
    else
      let r := { r with buf := r.buf ++ plain bs, bad := r.bad || anyPoison bs }
      let s := s.modRestore n fun _ => r
      if r.buf.length < (s.restoreItem r).2 then s.restoreRead n else s.restoreItemEnd n r

/-- A DUMMY_OPEN has been answered (18, R530). -/
def State.dummyOpened (s : State) (q : Half) (st : Status) : State :=
  match s.maint.opens.find? (·.1 == q) with
  | none => s
  | some (_, n, restore) =>
    let s := { s with maint := { s.maint with opens := s.maint.opens.filter (·.1 ≠ q) } }
    if restore then
      if st = .ok then (s.modRestore n fun r => { r with phase := 1 }).restoreRead n else s.endRestore n st
    else if st = .ok then (s.modEpoch n fun x => { x with stage := 1 }).epochNext n 1
    else s.abandonEpoch n st

def State.addRestore (s : State) (r : Restore) : State :=
  { s with maint := { s.maint with restores := s.maint.restores.filter (fun q => q.key ≠ r.key) ++ [r] } }

/-- A restore is asked for: the checks that need no buddy, then DUMMY_OPEN; the checks that follow end it under report 0x0702 (18,
R536, Table 18-14). -/
def State.restore (s : State) (n mode value : Nat) : State × Status × Nat :=
  if s.entries ≤ n then (s, .notFound, 0)
  else if mode = 2 then
    if (s.seat n).state = .free then (s, .notFound, 0)
    else if !s.hasDummy n true then (s, .badArg, 0)
    else
      let r : Restore := { seat := n, mode := 2, value := 0 }
      ((s.addRestore r).askOpen r.key true, .ok, 0)
  else s.allowActivity 7 (some n) fun s =>
    if (s.seat n).state ≠ .parked then (s, .conflict, 0)
    else if !s.hasDummy n true then (s, .badArg, 0)
    else
      let r : Restore := { seat := n, mode := mode, value := value }
      ((s.addRestore r).askOpen r.key true, .ok, 0)

def execRestoreByEpoch (ch : Channel) (seat : Nat) (epoch : Word) (s : State) : Res :=
  .next (s.objAct ch 0x6400 0x80 fun s => s.restore seat 0 epoch.toNat)
def execRestoreByHeartbeat (ch : Channel) (seat : Nat) (heartbeat : Word) (s : State) : Res :=
  .next (s.objAct ch 0x6400 0x80 fun s => s.restore seat 1 heartbeat.toNat)
def execRestoreQuery (ch : Channel) (seat : Nat) (s : State) : Res :=
  .next (s.objAct ch 0x6400 0x80 fun s => s.restore seat 2 0)

/-- The context that a capture holds for a CD, read through the private layout; a number beyond its field's width is cut (03, R58;
log 9). -/
def captureCtx (cap : List Byte) (c : Nat) : Ctx :=
  let v := fun k => Config.contextNumber (cap.take 3712) c k
  { s := (List.range 31).foldl (fun t r => Tbl.set 0 t (r + 1) (BitVec.ofNat 64 (v (r + 1)))) []
    g := (List.range 16).foldl (fun t r => Tbl.set 0 t r (BitVec.ofNat 64 (v (32 + r)))) []
    f := (List.range 64).foldl (fun t r => Tbl.set false t r (v (48 + r) % 2 == 1)) []
    lc := (List.range 4).foldl (fun t l => Tbl.set {} t l {
      active := v (112 + 5 * l) % 2 == 1, count := BitVec.ofNat 32 (v (113 + 5 * l)), start := BitVec.ofNat 32 (v (114 + 5 * l))
      last := BitVec.ofNat 32 (v (115 + 5 * l)), lastLen := v (116 + 5 * l) }) []
    pc := BitVec.ofNat 32 (v 132), phase := BitVec.ofNat 6 (v 133), vl := BitVec.ofNat 11 (v 134), cyc := BitVec.ofNat 64 (v 135) }

/-- The conversion counters that a capture holds (04, R112). -/
def captureConv (cap : List Byte) : Tbl Conv :=
  (List.range 32).foldl (fun t k =>
    let b := 3712 + 12 * k
    Tbl.set {} t k { under := field cap b 4, sat := field cap (b + 4) 4, nan := field cap (b + 8) 4 }) []

/-- RESTORE_COMPLETE (18, R537). -/
def execRestoreComplete (seat : Nat) (s : State) : Res :=
  .next (match s.maint.restores.find? (·.key == seat) with
    | none => s
    | some r =>
      if r.phase ≠ 6 then s
      else if (s.seat seat).state ≠ .parked then s.endRestore seat .conflict
      else
        let sp := r.seatPage
        let e := field r.held 8 8
        let ctx := cds.foldl (fun t c =>
          let k := captureCtx sp c
          Tbl.set {} t c { k with s := Tbl.set 0 k.s 31 (BitVec.ofNat 64 e) }) ([] : Tbl Ctx)
        let conv := captureConv sp
        let s := s.modSeat seat fun i => { i with
          ctx := ctx, conv := conv, lastEpoch := BitVec.ofNat 64 e, shadow := BitVec.ofNat 16 (field sp 0x1200 2), shadowNext := none
          inc := i.inc + 1, epochMark := BitVec.ofNat 64 (s.ns / 1000000000) }
        let i := s.seat seat
        let s := s.writeSlot 0 i.entry.contextArea (good (contextBytes ctx conv))
        let s := (s.writeField seat 0x68 (leBytes 8 e)).writeField seat 8 (leBytes 4 i.inc.toNat)
        let s := ((s.setHalf seat 0 none).setHalf seat 1 none).destroyGroups seat .peerReset
        s.endRestore seat .ok)

end Sys2Proof.Machine
end

