-- ==== Sys2Proof/Machine/HostRegs.lean ====
section
/-! DEFINITION. The registers of the host interface and what a host access to each does (02, sections 2.1 to 2.5; access
codes 00, R2 to R5); mailbox windows (02, R35, R36; 16, R465 to R473). -/

namespace Sys2Proof.Machine

/-- A bit set to `v` in a 32-bit word. -/
def setBit32 (w : Quad) (n : Nat) (v : Bool) : Quad := if v then w ||| ((1 : Quad) <<< n) else w &&& ~~~((1 : Quad) <<< n)

/-! ## Interrupt registers (02, R34; 00, R4) -/

/-- A W1C write of `v` to IRQ_CAUSE_0 while the package sets the bits `again` in the same cycle: those end set, and an
unmasked one signals again. -/
def State.clearCause (s : State) (f : Nat) (v again : Quad) : State :=
  let p := s.fn f
  let again := again &&& 0xFFFFFF1F
  let s := s.modFn f fun q => { q with cause := (q.cause &&& ~~~v) ||| again }
  (List.range 32).foldl (fun s b =>
    if again.getLsbD b && (v.getLsbD b || !p.cause.getLsbD b) && !p.mask.getLsbD b then s.sendMsix f b else s) s

/-- A write to IRQ_MASK_0: every cause bit that is set and now unmasked by a write of 0 sends its message. -/
def State.writeMask (s : State) (f : Nat) (v : Quad) : State :=
  let c := (s.fn f).cause
  let s := s.modFn f fun q => { q with mask := v &&& 0xFFFFFF1F }
  (List.range 32).foldl (fun s b => if c.getLsbD b && !v.getLsbD b then s.sendMsix f b else s) s

/-- A write to a vector's mask bit; unmasking sends a pending message (02, R34). -/
def State.maskVector (s : State) (f v : Nat) (m : Bool) : State :=
  let s := s.modFn f fun q => { q with msix := Tbl.modify {} q.msix v fun e => { e with masked := m } }
  if !m && (s.fn f).pba.getLsbD v then
    (s.modFn f fun q => { q with pba := setBit32 q.pba v false }).sendMsix f v
  else s

/-! ## Mailbox windows (02, R35, R36) -/

/-- Setting MBX_IN_CTRL_0.post. -/
def State.postIn (s : State) (f : Nat) : State :=
  let p := s.fn f
  if p.inPost then s
  else if 1280 < p.inLen.toNat then s.modFn f fun q => { q with accept := statusCode .badArg }
  else s.modFn f fun q => { q with inPost := true }

/-- Clearing MBX_OUT_CTRL_0.full. -/
def State.clearOut (s : State) (f : Nat) : State := s.modFn f fun q => { q with outFull := false }

/-- Bytes of a window. -/
def winBytes (w : Tbl Byte) (n : Nat) : List Byte := (List.range n).map fun i => Tbl.get 0 w i

/-- Store bytes into a window from offset `o`. -/
def winPut (w : Tbl Byte) (o : Nat) : List Byte → Tbl Byte
  | [] => w
  | b :: t => winPut (Tbl.set 0 w o b) (o + 1) t

/-! ## Register views (02, Tables 2-3 to 2-13) -/

/-- HIF_EVENT_POP as the next read returns it (02, Table 2-6). -/
def eventWord (p : FnPage) : Nat :=
  match p.events with
  | [] => 0
  | e :: _ => 1 + 2 * b2n p.eventsLost + 16 * e.seat + 0x10000 * seatCode e.state + 0x100000 * e.haltCause.toNat
      + 2 ^ 32 * e.incarnation.toNat

/-- The 8-byte register at an 8-aligned function-page offset, for function `f` (02, Table 2-3). -/
def State.fnReg (s : State) (f off : Nat) : Nat :=
  let p := s.fn f
  match off with
  | 0x008 => p.dbStatus.toNat + 0x100 * p.dbCommand.toNat + 0x1000 * p.dbSeat.toNat + 2 ^ 24 * p.dbRetry.toNat
      + 2 ^ 40 * p.dbSeq.toNat
  | 0x010 => p.hostUpper.toNat
  | 0x018 => f + 0x10000 * s.seatsOwned f
  | 0x020 => eventWord p
  | 0x100 => p.cause.toNat
  | 0x108 => p.mask.toNat
  | 0x200 => b2n p.inPost + 0x100 * p.accept.toNat + 2 ^ 32 * p.inLen.toNat
  | 0x208 => b2n p.outFull + 2 ^ 32 * p.outLen.toNat
  | 0x500 => p.pba.toNat
  | _ =>
    if 0x300 ≤ off && off < 0x500 then
      let e := Tbl.get {} p.msix ((off - 0x300) / 16)
      if off % 16 = 0 then e.addr.toNat else e.data.toNat + 2 ^ 32 * b2n e.masked
    else if 0x600 ≤ off && off < 0xB00 then leNat ((List.range 8).map fun i => Tbl.get 0 p.inWin (off - 0x600 + i))
    else if 0xB00 ≤ off && off < 0x1000 then leNat ((List.range 8).map fun i => Tbl.get 0 p.outWin (off - 0xB00 + i))
    else 0

/-- The 8-byte register at an 8-aligned BAR0 offset of PF 0 (02, Tables 2-2, 2-9, 2-10, 2-11). -/
def State.bar0Reg (s : State) (off : Nat) : Nat :=
  if off < 0x1000 then s.fnReg 0 off
  else match off with
  | 0x1000 => 0x0008 + 0x10000 * field (Tbl.get [] s.boot.voted 0) 9 1
  | 0x1008 => devCode s.dev
  | 0x1010 => 2 ^ 30 * s.host.bar2Offset.toNat
  | 0x1018 => s.fw.version
  | 0x2000 => 0x10000 * s.host.tableBase.toNat
  | 0x2008 => s.host.tableSize.toNat
  | 0x2018 => b2n s.cmdTaken + 2 * b2n s.host.cmdLost + 0x100 * s.host.cmdStatus.toNat
      + 2 ^ 16 * s.host.cmdCommand.toNat + 2 ^ 20 * s.host.cmdSeat.toNat + 2 ^ 32 * s.host.cmdRetry.toNat
      + 2 ^ 48 * s.host.cmdSeq.toNat
  | 0x2020 => s.host.pinLimit.toNat + 0x100 * b2n s.host.evictHalted + 0x200 * b2n s.host.holdHalted
  | 0x2028 => s.occupied + 0x100 * s.pinnedCount + 0x10000 * s.host.evictions.toNat
  | 0x2030 => (match s.play with | some p => 1 + 16 * p.seat | none => 0) + 2 ^ 32 * s.host.playsAll.toNat
  | 0x2038 => s.host.switchNs.toNat + 2 ^ 32 * s.host.loadNs.toNat
  | _ =>
    if 0x10000 ≤ off && off < 0x20000 then
      let n := (off - 0x10000) / 16
      if s.entries ≤ n then 0
      else if off % 16 = 0 then s.heartbeat n
      else
        let i := s.seat n
        seatCode i.state + 0x100 * i.haltCause.toNat + 0x10000 * i.resetCount.toNat + 2 ^ 32 * i.plays.toNat
    else 0

/-! ## Register writes -/

/-- Bytes `data` written at byte `at0` of an 8-byte register whose value is `old`. -/
def mergeBytes (old at0 : Nat) (data : List Byte) : Nat :=
  leNat ((List.range 8).map fun i =>
    if at0 ≤ i && i < at0 + data.length then data.getD (i - at0) 0 else BitVec.ofNat 8 (old / 256 ^ i))

/-- The bytes that a write brings to an 8-byte register; bytes it does not reach count as 0 (for W1C and RW1S fields). -/
def broughtBytes (at0 : Nat) (data : List Byte) : Nat := mergeBytes 0 at0 data

/-- SEAT_TABLE_BASE and SEAT_TABLE_SIZE (02, R37). -/
def State.writeTable (s : State) (r : SeatTableReg) (v : Nat) : State :=
  if !s.liveSeats.isEmpty then s
  else match r with
    | .base => { s with host := { s.host with tableBase := BitVec.ofNat 40 (bits v 16 40) } }
    | .size => if 4096 < bits v 0 13 then s else { s with host := { s.host with tableSize := BitVec.ofNat 13 v } }

/-- A write to a doorbell or SEAT_CMD that reaches a byte of its fields; one that reaches reserved bytes only is ignored (00, R5). An
ACTIVATE written this way brings no decoded deck: what its private parts decode to is a free value (log 142). -/
def State.writeCmd (s : State) (p : CmdPort) (at0 v : Nat) : State :=
  if 2 ≤ at0 then s
  else
    let w : CmdWrite := { port := p, code := v % 16, seat := bits v 4 12 }
    if p = .seatCmd && w.code = 8 then
      State.arrive { s with freeCtr := s.freeCtr + 1 } { w with facts := Config.deckFacts s.freeCtr }
    else s.arrive w

/-- A write of up to 8 bytes inside one 8-byte register of a function page (02, Tables 2-3 to 2-8; 00, R2 to R5). -/
def State.writeFnReg (s : State) (f : Func) (off at0 : Nat) (data : List Byte) : State :=
  let k := f.val
  let p := s.fn k
  let v := mergeBytes (s.fnReg k off) at0 data
  let w := broughtBytes at0 data
  match off with
  | 0x000 => s.writeCmd (.doorbell f) at0 w
  | 0x010 => s.modFn k fun q => { q with hostUpper := BitVec.ofNat 16 v }
  | 0x100 => s.clearCause k (BitVec.ofNat 32 w) 0
  | 0x108 => if at0 < 4 then s.writeMask k (BitVec.ofNat 32 v) else s
  | 0x200 =>
    let s := if p.inPost then s else s.modFn k fun q => { q with inLen := BitVec.ofNat 11 (v / 2 ^ 32) }
    if bit w 0 then s.postIn k else s
  | 0x208 => if bit w 0 then s.clearOut k else s
  | _ =>
    if 0x300 ≤ off && off < 0x500 then
      let n := (off - 0x300) / 16
      if off % 16 = 0 then
        s.modFn k fun q => { q with msix := Tbl.modify {} q.msix n fun e => { e with addr := BitVec.ofNat 64 v } }
      else
        let s := s.modFn k fun q => { q with msix := Tbl.modify {} q.msix n fun e => { e with data := BitVec.ofNat 32 v } }
        if 4 < at0 + data.length then s.maskVector k n (bit v 32) else s
    else if 0x600 ≤ off && off < 0xB00 then
      if p.inPost then s else s.modFn k fun q => { q with inWin := winPut q.inWin (off - 0x600 + at0) data }
    else s

/-- A write inside one 8-byte register of PF 0's BAR0 beyond the function page (02, Tables 2-9 and 2-10). -/
def State.writePfReg (s : State) (off at0 : Nat) (data : List Byte) : State :=
  let v := mergeBytes (s.bar0Reg off) at0 data
  match off with
  | 0x1010 =>
    -- a value above 383 is outside the field's range and is ignored (log 19)
    if bits v 30 9 ≤ 383 then { s with host := { s.host with bar2Offset := BitVec.ofNat 9 (v / 2 ^ 30) } } else s
  | 0x2000 => s.writeTable .base v
  | 0x2008 => s.writeTable .size v
  | 0x2010 => s.writeCmd .seatCmd at0 (broughtBytes at0 data)
  | 0x2020 => { s with host := { s.host with pinLimit := BitVec.ofNat 6 v, evictHalted := bit v 8, holdHalted := bit v 9 } }
  | _ => s

/-- REGISTER_WRITE: stored or ignored according to the field's access code; reserved ranges discard it (00, R3, R5). A
write longer than one register is made register by register. -/
def State.regWrite (s : State) (f : Func) (off : Nat) (data : List Byte) : State :=
  let first := off / 8 * 8
  let n := if data.isEmpty then 0 else (off + data.length - 1) / 8 - off / 8 + 1
  (List.range n).foldl (fun s i =>
    let r := first + 8 * i
    let lo := max off r
    let part := (data.drop (lo - off)).take (r + 8 - lo)
    if r < 0x1000 then s.writeFnReg f r (lo - r) part
    else if f.val = 0 then s.writePfReg r (lo - r) part else s) s

def execSeatTableWrite (reg : SeatTableReg) (v : Word) (s : State) : Res :=
  .next (s.hostAccess 0 fun s => s.writeTable reg v.toNat)
def execRegisterWrite (f : Func) (off : Nat) (data : List Byte) (s : State) : Res :=
  .next (s.hostAccess f.val fun s => s.regWrite f off data)
/-- A read of HIF_EVENT_POP returns the oldest event and removes it (02, R33). -/
def State.popEvent (s : State) (f : Nat) : State :=
  let p := s.fn f
  let s := s.emit (.eventPop f (BitVec.ofNat 64 (eventWord p)))
  match p.events with
  | [] => s
  | _ :: t => s.modFn f fun q => { q with events := t, eventsLost := false }
/-- HIF_EVENT_POP (02, R33); a read that meets D3hot completes as an Unsupported Request (log 143). -/
def execHifEventPop (f : Func) (s : State) : Res :=
  .next (
    let t := s.hostAccess f.val fun s => s.popEvent f.val
    if s.bar0Open && s.fnEnabled f.val && s.host.d3hot then t.emit .unsupportedRequest else t)
/-- IRQ_CAUSE_CLEAR (02, R34). The bits that the package sets in the same cycle are set whether the write arrives or not (00, R4). -/
def execIrqCauseClear (f : Func) (v setAgain : Quad) (s : State) : Res :=
  .next (if s.bar0Open && s.fnEnabled f.val && !s.host.d3hot then s.clearCause f.val v setAgain
    else (s.hostAccess f.val id).clearCause f.val 0 setAgain)
def execIrqMaskWrite (f : Func) (v : Quad) (s : State) : Res := .next (s.hostAccess f.val fun s => s.writeMask f.val v)
def execMsiXTableWrite (f : Func) (vector : Fin 32) (masked : Bool) (s : State) : Res :=
  .next (s.hostAccess f.val fun s => s.maskVector f.val vector.val masked)
def execMbxInPost (f : Func) (s : State) : Res := .next (s.hostAccess f.val fun s => s.postIn f.val)
def execMbxOutClear (f : Func) (s : State) : Res := .next (s.hostAccess f.val fun s => s.clearOut f.val)

/-! ## Requests (16, R466 to R470) -/

/-- The reply to a request goes to the function's outbound queue (16, R465, R470). -/
def State.reply (s : State) (r : Req) (st : Status) (retry : Nat := 0) (payload : List Byte := []) : State :=
  let (retry, s) := s.hinted st retry
  let m := msgBytes r.type r.seq st 1 s.fw.pkgInc r.hostInc r.seat (if retryable st then retry else 0) s.now payload
  s.queueMsg r.f m

/-- A taken request is answered: it is no longer open. -/
def State.answer (s : State) (r : Req) (st : Status) (retry : Nat := 0) (payload : List Byte := []) : State :=
  ({ s with fw := { s.fw with reqs := s.fw.reqs.filter fun q => !(q.f == r.f && q.seq == r.seq && q.type == r.type) } }).reply
    r st retry payload

/-- The request of function `f` with a sequence number and type, when it is open. -/
def State.openReq (s : State) (f : Nat) (seq : Half) (type : Nat) : Option Req :=
  s.fw.reqs.find? fun r => r.f == f && r.seq == seq && r.type == type

/-- Types that only PF 0 may send (16, Table 16-5). -/
def pfOnly (type : Nat) : Bool := type == 2 || type == 3 || type == 0x10 || type == 0x11 || type == 0x12
/-- Types that the table lists for requests. -/
def knownType (type : Nat) : Bool := type == 1 || type == 4 || type == 5 || pfOnly type
/-- Service classes (16, Table 16-8). -/
def classOf (type : Nat) : Nat := if type == 3 || type == 2 || type == 0x11 || type == 0x12 then 0
  else if type == 4 || type == 1 then 1 else if type == 0x10 then 3 else 2

/-- The checks that every request passes before its own: known type, receiver incarnation, function, device state, seat
and quota (16, R467 to R469, R481; log 20 for their order). OHM-ROM serves LOAD alone (15, R453), OPTION_CONFLICT none (15, R447). -/
def State.reqCheck (s : State) (r : Req) : Option (Status × Nat) :=
  if s.dev = .optionConflict then some (.folded, 0)
  else if s.dev = .staging && r.type ≠ 2 then some (.busy, 100000)
  else if !knownType r.type then some (.unsupported, 0)
  else if r.recvInc ≠ 0 && r.recvInc ≠ s.fw.pkgInc then some (.peerReset, 0)
  else if pfOnly r.type && r.f ≠ 0 then some (.noAccess, 0)
  else if r.type = 2 then (if s.dev = .staging then none else some (.conflict, 0))
  else if s.dev ≠ .live then some (.conflict, 0)
  else if r.seat ≠ 0xFFFF && s.entries ≤ r.seat then some (.notFound, 0)
  else if r.seat ≠ 0xFFFF && (s.seat r.seat).state ≠ .free && (s.seat r.seat).entry.mbxQuota = 0 then some (.noAccess, 0)
  else if r.seat ≠ 0xFFFF && (s.seat r.seat).state ≠ .free
      && (s.seat r.seat).entry.mbxQuota ≤ (s.fw.reqs.filter (·.seat == r.seat)).length then some (.overflow, 0)
  else if classOf r.type ≠ 0 && 504 ≤ s.fw.reqs.length then some (.busy, 0)
  else none

/-- The retry-after of an answer to a full queue: an estimate, 100 µs to 1,000,000 µs (16, R481; log 3). -/
def State.queueHint (s : State) : Nat × State := let (v, s) := s.free; (100 + v.toNat % 999901, s)

/-- MESSAGE_ACCEPT: the package takes a posted message (16, R466). In a state with no Ohmeg running it is not taken. -/
def execMessageAccept (f : Func) (s : State) : Res :=
  .next (
    let k := f.val
    let p := s.fn k
    let mine := (s.fw.reqs.filter (·.f == k)).length
    if !p.inPost || s.dev = .cold || s.dev = .options || s.dev = .rom || s.dev = .recovering || 8 ≤ mine then s
    else
      let m := winBytes p.inWin p.inLen.toNat
      let take := fun (st : Status) =>
        (s.modFn k fun q => { q with inPost := false, accept := statusCode st }).raiseIrq k 1
      if m.length = 0 then take .ok
      else if m.length < 32 || m.length ≠ 32 + field m 0x12 2 then take .badArg
      else if field m 0 1 ≠ 1 then take .version
      else if field m 7 1 % 4 ≠ 0 then take .badArg
      else
        let r : Req :=
          { f := k, type := field m 2 2, seq := BitVec.ofNat 16 (field m 4 2), seat := field m 0x10 2, hostInc := p.hostInc
            minor := field m 1 1, recvInc := BitVec.ofNat 32 (field m 0xC 4), sendInc := BitVec.ofNat 32 (field m 8 4)
            payload := m.drop 32 }
        let s := take .ok
        match s.reqCheck r with
        | some (st, retry) =>
          if st = .busy && s.dev = .live then
            let (retry, s) := (s.bump 0x800303 64).queueHint
            s.reply r st retry
          else s.reply r st retry
        | none => { s with fw := { s.fw with reqs := s.fw.reqs ++ [r] } })

/-- The reply of an accepted reset command: of a RESET, or of an OBJECT that wrote reset_request (15, R435; 17, R509). -/
def isResetReply (m : List Byte) : Bool :=
  field m 6 1 == 0 && (field m 2 2 == 3
    || (field m 2 2 == 5 && (field m 34 1 == 4 || field m 34 1 == 5) && field m 44 2 == 0x1100 && field m 46 1 == 0x80))

/-- An accepted reset command's reply leaves the package: its 1 ms delay starts (15, R435). -/
def State.replyLeft (s : State) (m : List Byte) : State :=
  if isResetReply m then
    { s with boot := { s.boot with delayed := s.boot.delayed.map fun d => (d.1, d.2.1, true) } }
  else s

/-- MBX_OUT_WRITE: the next queued message goes to MBX_OUT_0 once the window is free; one addressed to another host
incarnation is dropped and counted (16, R470, R473). -/
def execMbxOutWrite (f : Func) (s : State) : Res :=
  .next (
    let k := f.val
    let p := s.fn k
    match p.outFull, p.outQ with
    | false, m :: t =>
      let s := s.modFn k fun q => { q with outQ := t ++ q.outHeld.take 1, outHeld := q.outHeld.drop 1 }
      let s := s.replyLeft m
      if field m 0xC 4 ≠ p.hostInc.toNat then s.bump 0x800305 64
      else (s.modFn k fun q => { q with outWin := winPut q.outWin 0 m, outLen := BitVec.ofNat 11 m.length, outFull := true }).raiseIrq k 0
    | _, _ => s)

/-! ## Function Level Reset, VFs, BAR2 (02, R25, R26, R28) -/

/-- A seat reset from an FLR or host-port reset: also of a seat that is being loaded or released, whose command ends (log 144). A seat
that is RESETTING already takes the new source, so that reset is no longer counted as one of a command (DESIGN CHOICE, log 141). -/
def State.resetFromHost (s : State) (n src : Nat) : State :=
  if (s.seat n).state = .free then s
  else if (s.seat n).state = .resetting then s.modSeat n fun i => { i with resetting := i.resetting.map fun r => (r.1, src) }
  else
    let s := if (s.seat n).loading.isSome || (s.seat n).releasing.isSome then s.dropBusy n else s
    (s.modSeat n fun i => { i with loading := none, releasing := none }).beginReset n src

/-- Seats that a function owns and that are not FREE. -/
def State.ownedSeats (s : State) (f : Nat) : List Nat := (s.liveSeats.filter fun e => e.2.entry.owner == f).map (·.1)

/-- The mailbox session of a function is new: what the old one staged or had in a snapshot is gone (17, R505). -/
def State.newMailSession (s : State) (p : Nat → Bool) : State :=
  let old := fun (ch : Channel) => match ch with | .mailbox f => p f.val | _ => false
  { s with kdp := { s.kdp with
      sessions := s.kdp.sessions.filter fun x => !old x.ch, staging := s.kdp.staging.filter fun g => !old g.ch } }

/-- FLR of a VF (02, R25): seats reset, page and FIFO at reset values, its held doorbells with them. -/
def State.flrVf (s : State) (f : Nat) : State :=
  let s := (s.ownedSeats f).foldl (fun s n => s.resetFromHost n 2) (s.newMailSession (· == f))
  { s with host := { s.host with
      fns := Tbl.set {} s.host.fns f {}
      heldCmds := s.host.heldCmds.filter fun w => portFn w.port ≠ f || w.port = .seatCmd } }

/-- The function pages and PF global registers return to reset values, except the table registers (02, R25). VF Enable, NumVFs and the
configuration space stay (DESIGN CHOICE: R25 does not speak of them, log 141). -/
def State.resetHostRegs (s : State) : State :=
  { s with
    host := {
      numVfs := s.host.numVfs, tableBase := s.host.tableBase, tableSize := s.host.tableSize, linkUp := s.host.linkUp
      bar2Log := s.host.bar2Log, d3hot := s.host.d3hot, aerStatus := s.host.aerStatus, aerMask := s.host.aerMask
      aerSeverity := s.host.aerSeverity }
    deckBuf := none }

/-- FLR of PF 0 (02, R25). -/
def State.flrPf (s : State) (src : Nat) : State :=
  ((s.liveSeats.map (·.1)).foldl (fun s n => s.resetFromHost n src) (s.newMailSession fun _ => true)).resetHostRegs

def execFunctionLevelReset (f : Func) (s : State) : Res :=
  .next (if f.val = 0 then s.flrPf 2 else if s.fnEnabled f.val then s.flrVf f.val else s)

/-- VF_DISABLE: each VF that ceases to exist is reset first, and its seats become PARKED (02, R26). -/
def execVfDisable (numVfs : Nat) (s : State) : Res :=
  .next (
    if s.host.numVfs ≤ numVfs then s
    else
      let gone := (List.range (s.host.numVfs - numVfs)).map (· + numVfs + 1)
      let s := gone.foldl (fun s f =>
        let ns := s.ownedSeats f
        ns.foldl (fun s n => s.modSeat n fun i => { i with parkAfter := true }) (s.flrVf f)) s
      { s with host := { s.host with numVfs := numVfs } })

/-- VF_ENABLE: the host sets VF Enable or raises NumVFs, up to TotalVFs 63 (02, R26, Table 2-1). -/
def execVfEnable (numVfs : Nat) (s : State) : Res :=
  .next (if s.host.numVfs < numVfs && numVfs ≤ 63 then { s with host := { s.host with numVfs := numVfs } } else s)

/-- Bytes of BAR2 (02, R27, Table 2-1). -/
def State.bar2Size (s : State) : Nat := 2 ^ s.host.bar2Log * 0x40000000

/-- BAR2 completes accesses in this device state (02, R28, Table 2-1; 14, R431; 15, R444, R452). -/
def State.bar2Open (s : State) : Bool :=
  s.host.linkUp && !s.host.d3hot && (s.dev = .live || s.dev = .staging || s.dev = .folded)

/-- BAR2_ACCESS (02, R28 to R30; 08, Table 8-7); one in DOZE is a wake event (14, R431). It waits while a link on its way has failed or asks for frames
again (10, R297, R299). What lies beyond BAR2 never reaches the function
(R27). -/
def execBar2Access (write : Bool) (off len : Nat) (data : List Byte) (ep : Bool) (s : State) : Res :=
  .next (
    let dev := s.host.bar2Offset.toNat * 0x40000000 + off
    let n := if write then data.length else len
    if s.bar2Size < off + n then s
    else if !s.bar2Open || farEnd < dev + n then ((s.aer 20).emit .unsupportedRequest).wake 5
    else if !s.pathClear 8 (memCd s.memory.bandMode dev) || !(write || s.pathClear (memCd s.memory.bandMode dev) 8) then s
    else if write then s.writeSlot 0 dev (data.map fun b => (b, ep))
    else
      let d := s.readSlot 0 dev n
      s.emit (.bar2Data (plain d) (anyPoison d)))

end Sys2Proof.Machine
end

