-- ==== Sys2Proof/Machine/Functions.lean ====
section
/-! DEFINITION. The functions of element programs (07, Table 7-4). A correctly rounded function is computed in fixed point far
beyond FP32 precision and rounded once; a composite follows its formula step by step. -/

namespace Sys2Proof.Machine

/-- Fraction bits of the fixed-point values below: enough that one rounding to FP32 is the correct one (log 25). -/
def fracBits : Nat := 640
/-- 1 in fixed point. -/
def fixOne : Int := 2 ^ fracBits

/-- floor of a rational in fixed point. -/
def fixOf (s : Bool) (n d : Nat) : Int := let v : Int := ((n * 2 ^ fracBits / d : Nat) : Int); if s then -v else v

/-- A fixed-point value as an exact number. -/
def ofFix (v : Int) : Num := .fin (decide (v < 0)) v.natAbs (2 ^ fracBits)

/-- Largest r with r * r ≤ x, over `k` result bits. -/
def isqrt (x : Nat) : Nat → Nat → Nat
  | 0, r => r
  | k + 1, r => let t := r + 2 ^ k; isqrt x k (if t * t ≤ x then t else r)

/-- √(n / d), with a sticky bit below it when it is not exact: rounding it to nearest rounds the exact root. -/
def sqrtNum (n d : Nat) : Num :=
  let e := ilog2 n d / 2
  let (a, b) := scale2 n d (-2 * e)
  let x := a * 2 ^ 160 / b
  let r := isqrt x 90 0
  let exact := r * r * b == a * 2 ^ 160
  (Num.fin false (2 * r + (if exact then 0 else 1)) (2 ^ 81)).scale e

/-- 1 / 3 + 1 / 3³ · 3 … : sum of t / (2j + 1) with t falling by z² each term; `z2` in fixed point. `alt` alternates signs. -/
def atanSum (z2 : Int) (alt : Bool) : Nat → Nat → Int → Int
  | 0, _, _ => 0
  | k + 1, j, t => let u := t / (2 * j + 1); u + (if alt then -1 else 1) * atanSum z2 alt k (j + 1) (t * z2 / fixOne)

/-- ln 2 in fixed point: 2 · atanh(1/3). -/
def ln2Fix : Int := 2 * atanSum (fixOne / 9) false 210 0 (fixOne / 3)
/-- π in fixed point: 16 · atan(1/5) − 4 · atan(1/239). -/
def piFix : Int :=
  16 * atanSum (fixOne / 25) true 145 0 (fixOne / 5) - 4 * atanSum (fixOne / 57121) true 45 0 (fixOne / 239)

/-- Σ rʲ / j! from term `j` on, in fixed point. -/
def expSum (r : Int) : Nat → Nat → Int → Int
  | 0, _, _ => 0
  | k + 1, j, t => t + expSum r k (j + 1) (t * r / fixOne / (j + 1))

/-- 2ᵏ · eʳ for 0 ≤ r < ln 2. -/
def expParts (k : Int) (r : Int) : Num := (ofFix (expSum r 120 0 fixOne)).scale k

/-- eˣ of a finite x. -/
def expNum (s : Bool) (n d : Nat) : Num :=
  let x := fixOf s (min n (300 * d)) d
  expParts (x / ln2Fix) (x % ln2Fix)

/-- 2ˣ of a finite x. -/
def exp2Num (s : Bool) (n d : Nat) : Num :=
  let x := fixOf s (min n (300 * d)) d
  expParts (x / fixOne) ((x % fixOne) * ln2Fix / fixOne)

/-- Binary exponent and ln of the mantissa of a positive x, in fixed point. -/
def logParts (n d : Nat) : Int × Int :=
  let e := ilog2 n d
  let (a, b) := scale2 n d (-e)
  let z := fixOf false (a - b) (a + b)
  (e, 2 * atanSum (z * z / fixOne) false 210 0 z)

/-- Alternating Taylor sum of sin (`j` = 1) and cos (`j` = 0): t, −t·r²/((j+1)(j+2)), … -/
def trigSum (r2 : Int) : Nat → Nat → Int → Int
  | 0, _, _ => 0
  | k + 1, j, t => t + trigSum r2 k (j + 2) (-(t * r2 / fixOne / ((j + 1) * (j + 2) : Nat)))

/-- sin (`q` = 0) or cos (`q` = 1) of a finite x. -/
def trigNum (q : Int) (s : Bool) (n d : Nat) : Num :=
  let x := fixOf s n d
  let h := piFix / 2
  let k := (2 * x + h) / (2 * h)
  let r := x - k * h
  let m := (k + q) % 4
  let v := if m % 2 = 0 then trigSum (r * r / fixOne) 90 1 r else trigSum (r * r / fixOne) 90 0 fixOne
  ofFix (if m < 2 then v else -v)

/-- tanh of a finite x, by (e^2|x| − 1) / (e^2|x| + 1). -/
def tanhNum (s : Bool) (n d : Nat) : Num :=
  if 60 * d ≤ n then .fin s 1 1
  else match expNum false (2 * n) d with
    | .fin _ a b => .fin s (a - b) (a + b)
    | v => v

/-- Σ (−1)ʲ x^(2j+1) / (j! (2j + 1)), in fixed point. -/
def erfSum (x2 : Int) : Nat → Nat → Int → Int
  | 0, _, _ => 0
  | k + 1, j, t => t / (2 * j + 1 : Nat) + erfSum x2 k (j + 1) (-(t * x2 / fixOne / (j + 1 : Nat)))

/-- erf of a finite x. -/
def erfNum (s : Bool) (n d : Nat) : Num :=
  if 6 * d ≤ n then .fin s 1 1
  else
    let x := fixOf false n d
    let v := erfSum (x * x / fixOne) 330 0 x
    let root : Int := (isqrt (piFix.toNat * 2 ^ fracBits) (fracBits + 2) 0 : Nat)
    ofFix (if s then -(2 * v * fixOne / root) else 2 * v * fixOne / root)

/-- The result of a correctly rounded function before its rounding; special values follow IEEE 754-2019 clause 9.2 (07, R206). -/
def realFun (f : EFun) (v : Num) : Num :=
  match f, v with
  | .frcp, v => (Num.fin false 1 1).div v
  | _, .nan => .nan
  | .fsqrt, .inf s => if s then .nan else .inf false
  | .fsqrt, .fin s n d => if n = 0 then .fin s 0 1 else if s then .nan else sqrtNum n d
  | .frsq, .inf s => if s then .nan else .fin false 0 1
  | .frsq, .fin s n d => if n = 0 then .inf s else if s then .nan else sqrtNum d n
  | .fexp, .inf s | .fexp2, .inf s => if s then .fin false 0 1 else .inf false
  | .fexp, .fin s n d => expNum s n d
  | .fexp2, .fin s n d => exp2Num s n d
  | .flog, .inf s | .flog2, .inf s => if s then .nan else .inf false
  | .flog, .fin s n d =>
    if n = 0 then .inf true else if s then .nan else let (e, l) := logParts n d; ofFix (e * ln2Fix + l)
  | .flog2, .fin s n d =>
    if n = 0 then .inf true else if s then .nan
    else let (e, l) := logParts n d; ofFix (e * fixOne + l * fixOne / ln2Fix)
  | .fsin, .inf _ | .fcos, .inf _ => .nan
  | .fsin, .fin s n d => if n = 0 then .fin s 0 1 else trigNum 0 s n d
  | .fcos, .fin s n d => if n = 0 then .fin false 1 1 else trigNum 1 s n d
  | .ftanh, .inf s | .ferf, .inf s => .fin s 1 1
  | .ftanh, .fin s n d => if n = 0 then .fin s 0 1 else tanhNum s n d
  | .ferf, .fin s n d => if n = 0 then .fin s 0 1 else erfNum s n d
  | _, v => v

/-- A correctly rounded function on FP32. -/
def fun32 (f : EFun) (a : Num) : Num := rne32 (realFun f a)

def fmul32 (a b : Num) : Num := rne32 (a.mul b)
def fma32 (a b c : Num) : Num := rne32 ((a.mul b).add c)
/-- FSIGM (07, Table 7-4). -/
def fsigm (a : Num) : Num := fun32 .frcp (faddRne (.fin false 1 1) (fun32 .fexp a.neg))

/-- 1/√2, √(2/π) and 0.044715 rounded to FP32 (07, section 7.4). -/
def gelu1 : Num := rne32 (sqrtNum 1 2)
def gelu2 : Num := rne32 (sqrtNum (2 ^ (fracBits + 1)) piFix.toNat)
def gelu3 : Num := rne32 (.fin false 44715 1000000)

/-- A function of Table 7-4 on an FP32 value. -/
def evalFun (f : EFun) (a : Num) : Num :=
  match f with
  | .fsigm => fsigm a
  | .fsilu => fmul32 a (fsigm a)
  | .fgelu =>
    let u := faddRne (.fin false 1 1) (fun32 .ferf (fmul32 a gelu1))
    fmul32 (fmul32 (.fin false 1 2) a) u
  | .fgelut =>
    let x3 := fmul32 (fmul32 a a) a
    let s := fmul32 gelu2 (fma32 gelu3 x3 a)
    fmul32 (fmul32 (.fin false 1 2) a) (faddRne (.fin false 1 1) (fun32 .ftanh s))
  | f => fun32 f a

end Sys2Proof.Machine
end

