-- ==== Sys2Proof/Machine/Matrix.lean ====
section
/-! DEFINITION. WLD, MMA, MMAG, the array's checks and retries, and the MVP (05; 06, sections 6.1 to 6.3; 07, section 7.7). -/

namespace Sys2Proof.Machine

/-! ## Checks at issue -/

/-- A slab extent that leaves the populated slab is a window fault (05, R123). -/
def State.slabFault (s : State) (c off len : Nat) : State := s.windowFault c off len 0x105

/-- First failing check of a list, in order: what the fault leaves. -/
def firstFault : List (Bool × State) → Option State
  | [] => none
  | (true, t) :: _ => some t
  | _ :: rest => firstFault rest

/-- A counter record lies in the slab, 16-byte aligned (04, R113); a misaligned one is taken as a window fault (DESIGN CHOICE, log 153). -/
def recordOk : Option Nat → Bool
  | none => true
  | some o => o % 16 == 0 && decide (o + 16 ≤ slabSize)

/-- The format and keep count of B for an MMA: WLD's in weight-stationary mode (05, R125, R128). -/
def State.bOf (s : State) (c : Nat) (a : MmaArgs) : Tensor :=
  if a.outStationary then a.b
  else match s.arr.bind with
    | some l => (l.map (·.b)).getD c a.b
    | none => a.b

/-- Each row group of A lies whole in one share (06, R159). -/
def groupsWhole (t : Tensor) (m : Nat) : Bool :=
  t.rows == 0 || (t.firstRow % 32 == 0 && ((t.firstRow + t.rows) % 32 == 0 || decide (m ≤ t.firstRow + t.rows)))

def keepOk (n : Nat) : Bool := n == 0 || n == 1 || n == 2 || n == 4

/-- The product that an MMA stands for, before its tiles. -/
def mmaProd (a : MmaArgs) (seed : Word) (b : List Tensor) (as cs : List Tensor) (zs : List (Option Nat))
    (rs : List (Option Nat)) : Prod :=
  { n := a.n, k := a.k, tileRows := a.tileRows, outFormat := a.outFormat, outStat := a.outStationary, transB := a.transB
    rnd := { mode := a.rounding, seed := seed, sat := a.sat }, accumulate := a.accumulate, haltAtOnce := a.haltAtOnce
    toQueue := a.toQueue, kcompact := a.kcompact, segs := if a.m = 0 then [] else [{ m := a.m, b := b }], a := as, c := cs
    zmaps := if a.zmap.isSome then some (zs.map (·.getD 0)) else none, records := rs, tag := a.tag }

/-- The first byte range of a list that leaves the slab, as the window fault that it is. -/
def State.partsFault (s : State) (c : Nat) (l : List (Nat × Nat)) : Bool × State :=
  match offPart l with
  | some x => (true, s.slabFault c x.1 x.2)
  | none => (false, s)

/-- Bytes of a CD's zero map over `rows` of its own rows (06, R159). -/
def zmapPart (base k rows : Nat) : Nat × Nat := (base, (rows + 31) / 32 * (((k + 31) / 32 + 63) / 64) * 8)

/-- The formats of an MMA are accepted: of its pair, or of what is known when no WLD has bound a B (04, R92, R118). -/
def State.mmaFormats (s : State) (c : Nat) (a : MmaArgs) : Bool :=
  if a.outStationary || s.arr.bind.isSome then pairOk a.a.format (s.bOf c a).format a.outFormat
  else rateOf a.a.format != 0 && (a.outFormat == 1 || a.outFormat == 2 || a.outFormat == 3 || (a.outFormat == 0x0D && isIntFmt a.a.format))

/-- Checks of an MMA at issue on one CD (05, R123 to R131; 06, R151, R159, R161; 04, R92, R118). A zero map may lie at any byte (log 68). -/
def State.mmaCheck (s : State) (c : Nat) (a : MmaArgs) : Option State :=
  let bad := s.issueFault c 4
  let b := s.bOf c a
  let p := mmaProd a 0 [] [] [] [] []
  firstFault [
    (decide (1048576 < a.m) || decide (1048576 < a.n) || decide (1048576 < a.k), bad),
    (!a.outStationary && (a.tileRows == 0 || decide (1024 < a.tileRows)), bad),
    (decide (4 < a.rounding) || !keepOk b.keep || a.a.keep != 0, bad),
    (a.outStationary && (a.transB || b.keep != 0), bad),
    (a.toQueue && a.outFormat == 0x0D, bad),
    (a.kcompact && a.zmap.isNone, bad),
    (a.zmap.isSome && !groupsWhole a.a a.m, bad),
    (!a.outStationary && a.k != 0 && s.arr.bind.isNone, bad),
    (!s.mmaFormats c a, bad),
    ((s.mapTiles p a.tileMap).isNone, bad),
    s.partsFault c (if a.k = 0 then [] else shareParts a.a a.a.rows),
    s.partsFault c (if a.k = 0 then [] else match a.zmap with | some z => [zmapPart z a.k a.a.rows] | none => []),
    s.partsFault c (if a.k = 0 || !a.outStationary then [] else shareParts b b.rows),
    s.partsFault c (if a.toQueue && !a.accumulate then [] else shareParts a.c a.c.rows),
    (!recordOk a.record, s.slabFault c (a.record.getD 0) 16)]

/-- MMA (05, R123). -/
def execMma (i : Issue) (a : MmaArgs) (s : State) : Res :=
  .next (s.issueGang i 4 (srcReg a.seed) (.mma i a) fun s => s.mmaCheck i.cd.val a)

/-- WLD (05, R123, R125): limits, an accepted format, and its share in the slab. -/
def execWld (i : Issue) (a : WldArgs) (s : State) : Res :=
  .next (s.issueGang i 4 [] (.wld i a) fun s =>
    let c := i.cd.val
    let bad := s.issueFault c 4
    firstFault [
      (decide (1048576 < a.n) || decide (1048576 < a.k) || !keepOk a.b.keep || rateOf a.b.format == 0, bad),
      s.partsFault c (shareParts a.b (keptRows a.b a.b.rows))])

/-! ## MMAG (06, section 6.3) -/

/-- A segment entry with its index (06, Table 6-4). -/
structure SegEntry where
  idx    : Nat
  expert : Nat
  order  : Nat
  rows   : Nat
  aRow   : Nat
  cRow   : Nat
  bDesc  : Nat
deriving DecidableEq, Repr

/-- The segment entries of a group descriptor. -/
def segEntries (d : List Byte) : List SegEntry :=
  (List.range (field d 0 2)).map fun i =>
    let o := 0x40 + 32 * i
    ⟨i, field d o 2, field d (o + 2) 2, field d (o + 4) 4, field d (o + 8) 4, field d (o + 12) 4, field d (o + 16) 8⟩

/-- A byte of the deal block that an indirect MMAG reads is poisoned (06, R166; 08, Table 8-7). -/
def State.segPoison (s : State) (c : Nat) (d : List Byte) : Bool :=
  let db := field d 0x14 4
  bit (field d 2 1) 0 && ((s.slabByte c db).2 || (segEntries d).any fun g =>
    anyPoison (s.slabBytes c (db + 0x080 + 8 * g.expert) 8) || anyPoison (s.slabBytes c (db + 0x280 + 8 * g.expert) 8))

/-- Row counts and first rows, from the deal block when indirect is set (06, R166). An expert index above 63, for which Table 6-4 names no
outcome, is looked up at the same offsets (DESIGN CHOICE, log 167). -/
def State.segRows (s : State) (c : Nat) (d : List Byte) : List SegEntry :=
  if !bit (field d 2 1) 0 then segEntries d
  else
    let db := field d 0x14 4
    let ok := s.slabField c db 1 == 0
    (segEntries d).map fun g =>
      let r := if ok then s.slabField c (db + 0x080 + 8 * g.expert) 8 else 0
      let f := s.slabField c (db + 0x280 + 8 * g.expert) 8
      { g with rows := r, aRow := f, cRow := f }

/-- Two row ranges overlap. -/
def rowsMeet (a b : SegEntry) : Bool := a.cRow < b.cRow + b.rows && b.cRow < a.cRow + a.rows

/-- Bytes of the descriptor: header and entries, at most 256 segments. -/
def State.descBytes (s : State) (c off : Nat) : List PByte :=
  s.slabBytes c off (64 + 32 * min 256 (s.slabField c off 2))

/-- The checks of R169 that do not depend on the rows (04, R92, R118). A value outside its range in Table 6-3, more than 256 segments among
them, fails them too (DESIGN CHOICE, log 167). -/
def mmagShape (d : List Byte) : Bool :=
  let fl := field d 2 1
  let n := field d 0 2
  let orders := (segEntries d).map (·.order)
  n ≤ 256 && keepOk (field d 3 1) && !(bit fl 2 && !bit fl 1) && field d 4 4 ≤ 1048576 && field d 8 4 ≤ 1048576
    && 1 ≤ field d 0xC 2 && field d 0xC 2 ≤ 1024 && bits (field d 0x11 1) 0 3 ≤ 4
    && pairOk (BitVec.ofNat 8 (field d 0xE 1)) (BitVec.ofNat 8 (field d 0xF 1)) (BitVec.ofNat 8 (field d 0x10 1))
    && (!bit fl 3 || (List.range n).all orders.contains)

/-- The operand descriptor of a segment's B. -/
def segB (bs : List Tensor) (g : SegEntry) : Tensor := bs.getD g.idx { format := 0 }

/-- The checks of R169 on the rows, and that the B of each non-empty segment has the header's format and keep (DESIGN CHOICE, log 167); of an
empty one nothing is read (06, R168). -/
def mmagRows (d : List Byte) (bs : List Tensor) (l : List SegEntry) : Bool :=
  let l := l.filter (·.rows != 0)
  (field d 8 4 == 0 || l.all fun g => (segB bs g).format.toNat == field d 0xF 1 && (segB bs g).keep == field d 3 1) && l.all (fun g => g.aRow + g.rows ≤ field d 0x34 4 && g.cRow + g.rows ≤ field d 0x34 4)
    && l.all (fun g => l.all fun h => g.idx == h.idx || !rowsMeet g h)
    && decide (l.foldl (· + ·.rows) 0 ≤ 1048576)

/-- The 64 bytes at a non-empty segment's b_desc do not lie in the issuing CD's own slab (05, R123; log 154). -/
def bDescBad (e : Entry) (c : Nat) (g : SegEntry) : Bool :=
  g.rows != 0 && match translate e g.bDesc 64 .r with
    | some (dev, _) => !(routeOf dev == 0 && target dev == .slab c && target (dev + 63) == .slab c)
    | none => true

/-- The share of A or C of an MMAG on one CD, and of its zero map (06, R164, R165). -/
def mmagA (d : List Byte) (a : MmagArgs) (c : Nat) : Tensor :=
  { a.aScales with
    format := BitVec.ofNat 8 (field d 0xE 1), base := field d 0x20 4, rowStride := field d 0x24 4
    rows := dealLocal (field d 0x34 4) c, cols := field d 8 4, keep := 0 }
def mmagC (d : List Byte) (c : Nat) : Tensor :=
  { format := BitVec.ofNat 8 (field d 0x10 1), base := field d 0x28 4, rowStride := field d 0x2C 4
    rows := dealLocal (field d 0x34 4) c, cols := field d 4 4 }

/-- The segments of an MMAG in run order (06, R167, R168). -/
def runOrder (d : List Byte) (l : List SegEntry) : List SegEntry :=
  let l := if bit (field d 2 1) 3 then (List.range l.length).filterMap fun o => l.find? (·.order == o) else l
  l.filter (·.rows != 0)

/-- The product that an MMAG stands for: descriptor `d`, run-order segments, and the CDs' arguments. -/
def mmagProd (d : List Byte) (l : List SegEntry) (args : List MmagArgs) : Prod :=
  let r := field d 0x11 1
  let out := BitVec.ofNat 8 (field d 0x10 1)
  let head := args.head?
  { n := field d 4 4, k := field d 8 4, tileRows := field d 0xC 2, outFormat := out
    rnd := { mode := bits r 0 3, seed := BitVec.ofNat 64 (field d 0x18 8), sat := bit r 3 }, accumulate := bit r 4
    haltAtOnce := match head with | some a => a.haltAtOnce | none => false
    kcompact := bit (field d 2 1) 2
    segs := l.map fun g => { m := g.rows, aRow := g.aRow, cRow := g.cRow, b := args.map fun a => segB a.bs g }
    a := args.zipIdx.map fun x => mmagA d x.1 x.2
    c := args.zipIdx.map fun x => mmagC d x.2
    deal := true
    zmaps := if bit (field d 2 1) 1 then some (args.map fun _ => field d 0x30 4) else none
    records := args.map (·.record), tag := match head with | some a => a.tag | none => 0 }

/-- The slab bytes of the B of an MMAG's non-empty segments (05, R123). -/
def mmagBParts (d : List Byte) (bs : List Tensor) (l : List SegEntry) : List (Nat × Nat) :=
  if field d 8 4 = 0 then []
  else (l.filter (·.rows != 0)).flatMap fun g => shareParts (segB bs g) (keptRows (segB bs g) (segB bs g).rows)

/-- The first non-empty segment whose b_desc is not in the CD's own slab, as the window fault that it is (05, R123; 06, R168). -/
def State.bDescFault (s : State) (c : Nat) (l : List SegEntry) : Bool × State :=
  match l.find? (bDescBad s.playEntry c) with
  | some g => (true, s.windowFault c g.bDesc 64 (windowOf g.bDesc))
  | none => (false, s)

/-- Checks of an MMAG at issue on one CD (06, R165, R169; 05, R123). Row bytes that are no multiple of 512 halt the seat (DESIGN CHOICE, log
167). With indirect set, what depends on the rows is checked at the gang point (R169). -/
def State.mmagCheck (s : State) (c : Nat) (a : MmagArgs) : Option State :=
  let raw := s.descBytes c a.desc
  let d := plain raw
  let bad := s.issueFault c 4
  let l := segEntries d
  let direct := !bit (field d 2 1) 0
  let k0 := field d 8 4 == 0
  let p := mmagProd d (runOrder d l) [a]
  firstFault [
    (decide (slabSize < a.desc + 64) || decide (slabSize < a.desc + raw.length), s.slabFault c a.desc 64),
    (anyPoison raw, s.poisonHalt c (slabAddr c a.desc) 1),
    (!mmagShape d || (direct && (!mmagRows d a.bs l || (s.mapTiles p a.tileMap).isNone)), bad),
    (field d 0x24 4 % 512 != 0 || field d 0x2C 4 % 512 != 0, bad),
    s.partsFault c (if k0 then [] else shareParts (mmagA d a c) (mmagA d a c).rows),
    s.partsFault c (if k0 || !bit (field d 2 1) 1 then [] else [zmapPart (field d 0x30 4) (field d 8 4) (mmagA d a c).rows]),
    s.partsFault c (shareParts (mmagC d c) (mmagC d c).rows),
    s.partsFault c (if direct then mmagBParts d a.bs l else []),
    (!recordOk a.record, s.slabFault c (a.record.getD 0) 16),
    s.bDescFault c (if direct then l else [])]

/-- MMAG (06, R165): the descriptor is read at issue and compared at the gang point. -/
def execMmag (i : Issue) (a : MmagArgs) (s : State) : Res :=
  .next (s.issueGang i 4 [] (.mmag i a) (fun s => s.mmagCheck i.cd.val a) (plain (s.descBytes i.cd.val a.desc)))

/-! ## Array operations -/

/-- A product with tiles enters the array's queue; `done` are the eight CDs' @done signals. One without work completes in
its turn (05, R123; 03, R90). -/
def State.pushProd (s : State) (ins : Instr) (p : Prod) (done : List (Nat × Target)) : State :=
  let id := s.nextOp
  let none' := p.segs.isEmpty || p.n = 0 || (p.k = 0 && p.accumulate)
  let s := s.pushOp 0 .array ins done none'
  let s := if none' then s else { s with arr := { s.arr with prods := s.arr.prods ++ [{ id := id, prod := p }] } }
  if p.toQueue then
    cds.foldl (fun s c => { s with arr := { s.arr with queues := Tbl.modify {} s.arr.queues c fun q => { q with mmas := q.mmas ++ [id] } } }) s
  else s

def State.arrOp (s : State) : Option ArrOp :=
  match s.headOp 0 .array with
  | none => none
  | some o => s.arr.prods.find? (·.id == o.id)

def State.modArr (s : State) (f : Arr → Arr) : State := { s with arr := f s.arr }
def State.modProg (s : State) (id c : Nat) (f : SliceProg → SliceProg) : State :=
  s.modArr fun a => { a with prods := a.prods.map fun o => if o.id = id then { o with prog := Tbl.modify {} o.prog c f } else o }
def State.modQueue (s : State) (c : Nat) (f : TileQ → TileQ) : State :=
  s.modArr fun a => { a with queues := Tbl.modify {} a.queues c f }

/-- What the VRUN at the head of the queue has done so far is forgotten: the next one starts afresh (07, R196, R210, R217, R218). -/
def TileQ.fresh (q : TileQ) : TileQ := { q with taken := 0, red := none, counts := {}, vecs := [], covers := [], active := false }

/-- VRUN `v` leaves the queue without its end, and the MMA that it pairs with keeps no VRUN: what that MMA has pushed and pushes from now on is
dropped, so that every later MMA keeps its own VRUN (07, R212; log 140). -/
def TileQ.leave (q : TileQ) (v : Nat) : TileQ :=
  let m := (q.vruns.findIdx? (· == v)).bind fun i => q.mmas[i]?
  let r := if q.vruns.head? = some v then q.fresh else q
  { r with vruns := q.vruns.filter (· ≠ v), mmas := q.mmas.filter (some · ≠ m), entries := q.entries.filter (some ·.op ≠ m)
           lost := q.lost ++ m.toList }

/-- The tile-mode VRUN of CD `c` that pairs with MMA `id` leaves the vector engine (07, R212; log 140). -/
def State.dropPaired (s : State) (id c : Nat) : State :=
  let q := Tbl.get {} s.arr.queues c
  match (q.mmas.findIdx? (· == id)).bind fun i => q.vruns[i]? with
  | none => s
  | some v => (s.dropOps [v]).modQueue c fun q => q.leave v

/-- The operation that halted leaves the array, its tile queue entries with it; its @done never acts (05, R143). The VRUNs that pair with
it can get no tile and leave with it. -/
def State.dropArr (s : State) (id : Nat) : State :=
  let s := if (s.arr.prods.find? (·.id == id)).any (·.prod.toQueue) then cds.foldl (fun s c => s.dropPaired id c) s else s
  let s := { s with ops := s.ops.filter (·.id ≠ id) }
  let s := s.modArr fun a => { a with prods := a.prods.filter (·.id ≠ id) }
  cds.foldl (fun s c => s.modQueue c fun q => { q with
    mmas := q.mmas.filter (· ≠ id), entries := q.entries.filter (·.op ≠ id), lost := q.lost.filter (· ≠ id) }) s

/-- The stationary tile of slice `c`'s current pass is read from the slab. The load checks every N:M group; one that fails halts the seat
(05, R125; 06, R153). -/
def State.fillTile (s : State) (id c : Nat) (p : Prod) (t : Tile) (pass : Nat) (again : Bool) : State :=
  let ks := indicesOf p.k (s.passBlocks p t pass)
  let old := Tbl.get {} s.arr.planes c
  match s.badGroup (p.bShares t) p.transB c t.col0 t.cols ks with
  | some (col, g) => (s.dropArr id).issueFault c 4 (c + col * 256 + g * 2 ^ 32)
  | none =>
    let kept := if again then { old with ks := old.ks.filter (!ks.contains ·), cells := ((old.ks.zip old.cells).filter fun e => !ks.contains e.1).map (·.2) }
      else s.carried p t pass old
    let new := s.readPlane p.wld (p.bShares t) p.transB c t.col0 t.cols ks
    (s.modArr fun a => { a with planes := Tbl.set {} a.planes c { new with ks := kept.ks ++ ks, cells := kept.cells ++ new.cells } }).modProg
      id c fun x => { x with toLoad := none }

/-- The stationary tile of slice `c`'s current pass is due (05, R125): it stands in the cells where WLD loaded the same tile of the same B
and no retry asks for it again; otherwise it is loaded once the array owns slots for it (03, R79). -/
def State.loadTile (s : State) (id c : Nat) (again : Bool) : State :=
  match s.arr.prods.find? (·.id == id) with
  | none => s
  | some o =>
    let p := o.prod
    let pr := Tbl.get {} o.prog c
    match (p.tilesFor c)[pr.tile]? with
    | none => s
    | some t =>
      if p.outStat || p.k = 0 then s
      else if !again && pr.pass = 0 && (Tbl.get {} s.arr.planes c).serves p t (indicesOf p.k (s.passBlocks p t pr.pass)) then
        s.modProg id c fun x => { x with toLoad := none }
      else if s.sharesOpen (p.bShares t) p.transB c t.col0 t.cols then s.fillTile id c p t pr.pass again
      else s.modProg id c fun x => { x with toLoad := some again }

/-- A load that waits for slots goes on. -/
def State.tryLoad (s : State) (c : Nat) : State :=
  match s.arrOp with
  | none => s
  | some o => match (Tbl.get {} o.prog c).toLoad with
    | some again => if o.started then s.loadTile o.id c again else s
    | none => s

/-- Words d0 to d3 of reports 0x0104 and 0x0105: slice, mode and pass, A row, K block, column. -/
def checkWords (c mode pass row : Nat) (block col : Option Nat) : List Nat :=
  [c + mode * 256 + pass * 65536, row, block.getD (2 ^ 64 - 1), col.getD (2 ^ 64 - 1)]

/-- A check failure on slice `c`: the single retry of all slices, or the halt with cause 0x04 (05, R143). The failing slice reloads its
stationary tile. -/
def State.checkFail (s : State) (o : ArrOp) (c row : Nat) (block col : Option Nat) : State :=
  let pr := Tbl.get {} o.prog c
  let d := checkWords c (if o.prod.outStat then 1 else 0) pr.pass row block col
  if o.prod.haltAtOnce || pr.retried then
    let s := s.report 1 0x0105 3 (some s.playSeat) d (some .integrity) c
    let s := s.modArr fun a => { a with halts := Tbl.modify 0 a.halts c fun n => min (n + 1) (maxOf 16) }
    (s.dropArr o.id).haltPlay 0x04
  else
    let s := s.modArr fun a => { a with retries := Tbl.modify 0 a.retries c fun n => min (n + 1) (maxOf 32) }
    let s := cds.foldl (fun s k => s.modProg o.id k fun p => { p with row := 0, retried := true, stopped := some (p.row, s.now) }) s
    (s.modProg o.id c fun p => { p with fail := d }).loadTile o.id c true

/-- A further failure, of another slice or of the slice's other check, in the cycle in which a retry started: it joins that retry, and its
slice reloads its tile too (05, section 5.7). The retries counter of the slice that failed first is the one that rose (DESIGN CHOICE, log
168). -/
def State.joinRetry (s : State) (o : ArrOp) (c row : Nat) (block col : Option Nat) : State :=
  let pr := Tbl.get {} o.prog c
  let d := checkWords c (if o.prod.outStat then 1 else 0) pr.pass row block col
  (s.modProg o.id c fun p => { p with fail := if p.fail.isEmpty then d else p.fail }).loadTile o.id c true

/-- A check of slice `c` fails in the cycle in which a retry stopped it: at the row at which it stopped, or anywhere in an output-stationary
tile, whose rows are all compared at its end (05, R141, R143). -/
def SliceProg.joins (pr : SliceProg) (outStat : Bool) (row : Nat) (now : Word) : Bool :=
  pr.stopped.any fun x => x.2 == now && (outStat || x.1 == row)

/-- ARRAY_OPERATION_START: the head of the array's queue starts on all eight slices (01, R13; 05, R145). -/
def execArrayOperationStart (s : State) : Res :=
  .next (match s.arrOp with
    | none => s
    | some o =>
      if o.started then s
      else
        let s := s.modArr fun a => { a with prods := a.prods.map fun x => if x.id = o.id then { x with started := true } else x }
        cds.foldl (fun s c => s.loadTile o.id c false) s)

/-- An indication of a faulty row or column (05, R144). -/
def State.indicate (s : State) (c : Nat) (row : Bool) (l : List Nat) : State :=
  s.modArr fun a => { a with indics := a.indics ++ l.map fun x => ⟨c, row, x, s.now⟩ }

/-- Finished sums of one row go into the tile queue's entries of their band (07, R211, R214). -/
def State.rowToQueue (s : State) (id c : Nat) (t : Tile) (row : Nat) (acc : List Num) : State :=
  s.modQueue c fun q => { q with entries := q.entries.map fun e =>
    if e.op = id && e.row0 ≤ t.row0 + row && t.row0 + row < e.row0 + 128 && t.col0 ≤ e.col0 && e.col0 < t.col0 + t.cols && !e.avail then
      let r := t.row0 + row - e.row0
      { e with filled := r + 1
               data := (List.range e.cols).foldl (fun d i =>
                 Tbl.set 0 d (128 * r + i) (toF32 (acc.getD (e.col0 - t.col0 + i) (.fin false 0 1)))) e.data }
    else e }

/-- One row of a tile has passed its check: it is written, once, to the accumulator file, to C or to the tile queue (05,
R127, R142, R143). -/
def State.rowDone (s : State) (o : ArrOp) (c : Nat) (t : Tile) (row : Nat) : State :=
  let p := o.prod
  let pr := Tbl.get {} o.prog c
  if row < pr.written then s
  else
    let acc := s.rowPass p t row pr.pass
    let s := s.modProg o.id c fun x => { x with written := row + 1 }
    if pr.pass + 1 < s.passes p t then s.modArr fun a => { a with acc := Tbl.set [] a.acc (1024 * c + row) acc }
    else if p.toQueue then
      s.rowToQueue o.id c t row (acc.zipIdx.map fun x => (s.withC p t row x.2 x.1).1)
    else
      let (s, k, _) := s.writeRow p t row acc
      let s := s.countConv c 0 k.under k.sat k.nan
      s.modProg o.id c fun x => { x with counts := x.counts.plus k.under k.sat k.nan }

/-- The rows that one comparison lets through: one row, or the whole tile in output-stationary mode (05, R142). -/
def rowsAt (p : Prod) (t : Tile) (row : Nat) : List Nat := if p.outStat then List.range t.rows else [row]

/-- The rows that the output stage can deliver: those that the comparison lets through, and to the tile queue those of claimed bands that it
has not delivered (07, R213). -/
def rowsOut (p : Prod) (t : Tile) (pr : SliceProg) (row : Nat) : List Nat :=
  (rowsAt p t row).filter fun r => !p.toQueue || (decide (r < 128 * pr.bands) && (!p.outStat || decide (pr.written ≤ r)))

/-- The slice goes on after a row: next row, next pass, next tile. A restarted pass that ends is reported as 0x0104. -/
def State.nextRow (s : State) (o : ArrOp) (c : Nat) (t : Tile) (row : Nat) : State :=
  let p := o.prod
  let pr := Tbl.get {} o.prog c
  if !p.outStat && row + 1 < t.rows then s.modProg o.id c fun x => { x with row := row + 1, stopped := none }
  else
    let s := if pr.fail.isEmpty then s else s.report 0 0x0104 2 (some s.playSeat) pr.fail (some .ok) c
    (s.modProg o.id c fun x =>
      if pr.pass + 1 < s.passes p t then { x with pass := pr.pass + 1, row := 0, written := 0, retried := false, fail := [], stopped := none }
      else { x with tile := pr.tile + 1, pass := 0, row := 0, written := 0, bands := 0, retried := false, fail := [], stopped := none }).loadTile o.id c false

/-! ## Partial stalls (05, R133, R144) -/

/-- Rows that a slice has streamed in an operation: of its ended tiles and passes, and of the pass that runs. -/
def State.streamed (s : State) (o : ArrOp) (c : Nat) : Nat :=
  let pr := Tbl.get {} o.prog c
  let l := o.prod.tilesFor c
  (l.take pr.tile).foldl (fun n t => n + t.rows * s.passes o.prod t) 0 + (match l[pr.tile]? with | some t => pr.pass * t.rows + pr.row | none => 0)

/-- The slice has tiles left. -/
def ArrOp.busy (o : ArrOp) (c : Nat) : Bool := decide ((Tbl.get {} o.prog c).tile < (o.prod.tilesFor c).length)

/-- The row can stream: a die before it on the ring that must forward the row is not 128 rows behind, and a die after it that takes rows
from it has room in its elastic buffer of 128 rows (05, R133). -/
def State.rowSpace (s : State) (o : ArrOp) (t : Tile) (c row : Nat) : Bool :=
  match o.prod.aHome (o.prod.aRowOf t row) with
  | none => true
  | some (h, _) =>
    let behind := fun (d : Nat) => o.busy d && decide (s.streamed o d + 128 ≤ s.streamed o c)
    !(h ≠ c && behind (ringPrev c)) && !(h ≠ ringNext c && behind (ringNext c))

/-- The current row of a slice may be computed: the array owns the slots that it needs, and the ring has room (05, R132, R133; 03, R79). -/
def State.rowOpen (s : State) (o : ArrOp) (c : Nat) (t : Tile) (row : Nat) : Bool :=
  let pr := Tbl.get {} o.prog c
  let write := pr.pass + 1 == s.passes o.prod t && !o.prod.toQueue
  (rowsAt o.prod t row).all (fun r => s.rowSlots o.prod t c r (r == 0) write) && s.rowSpace o t c row

/-- A partial stall of a slice begins, or goes on. -/
def State.stallSlice (s : State) (id c : Nat) : State :=
  s.modProg id c fun p => { p with stall := some (p.stall.getD s.now) }

/-- A partial stall ends: its CCLK cycles are counted (05, Table 5-4). -/
def State.endSlice (s : State) (id c : Nat) : State :=
  match (s.arr.prods.find? (·.id == id)).bind fun o => (Tbl.get {} o.prog c).stall with
  | none => s
  | some t0 =>
    let n := s.cyclesIn (s.now - t0).toNat
    (s.modArr fun a => { a with stalls := Tbl.modify 0 a.stalls c fun x => min (x + n) (maxOf 64) }).modProg id c fun p => { p with stall := none }

/-- The cell rows that a failing block names: those that hold it in the stationary tile, or the output row's own in output-stationary mode (05, R121,
R144; 06, R155). -/
def State.cellRowsOf (s : State) (p : Prod) (t : Tile) (pass row block : Nat) : List Nat :=
  if p.outStat then [row]
  else match (s.passBlocks p t pass).findIdx? (· == block) with
    | none => []
    | some i => (List.range (16384 / p.tileK)).map (16384 / p.tileK * i + ·)

/-- One more check-column failure of a slice, and what it indicates. -/
def State.columnFail (s : State) (p : Prod) (t : Tile) (c pass row block : Nat) : State :=
  (s.modArr fun a => { a with failCol := Tbl.modify 0 a.failCol c fun n => min (n + 1) (maxOf 32) }).indicate c true
    (s.cellRowsOf p t pass row block)

/-- The comparison of one row of a slice. -/
def State.compareRow (s : State) (c tile row : Nat) (bad : Option Nat) : State :=
  match s.arrOp with
    | none => s
    | some o =>
      let p := o.prod
      let pr := Tbl.get {} o.prog c
      match (p.tilesFor c)[pr.tile]? with
      | none => s
      | some t =>
        if !o.started || p.k = 0 || tile ≠ pr.tile then s
        else match bad with
          | some j =>
            if pr.joins p.outStat row s.now then (s.columnFail p t c pr.pass row j).joinRetry o c (t.row0 + row) (some j) none
            else if (!p.outStat && row ≠ pr.row) || pr.toLoad.isSome || !s.rowOpen o c t row then s
            else (s.columnFail p t c pr.pass row j).checkFail o c (t.row0 + row) (some j) none
          | none =>
            if !p.outStat && row ≠ pr.row then s
            else if pr.toLoad.isSome || !s.rowOpen o c t row then s.stallSlice o.id c
            else
              let last := pr.pass + 1 == s.passes p t
              if (rowsAt p t row).any (fun r => s.rowPoison p t r (if pr.pass = 0 then 0 else s.segsBy p t (pr.pass - 1)) (s.segsBy p t pr.pass)
                  || (last && (List.range t.cols).any fun i => (s.withC p t r i (.fin false 0 1)).2)) then
                (s.dropArr o.id).poisonHalt c (slabAddr c 0) 1
              else
                let out := if last then rowsOut p t pr row else rowsAt p t row
                if out.isEmpty then s.stallSlice o.id c
                else
                  let s := s.endSlice o.id c
                  let s := out.foldl (fun s r =>
                    match s.arrOp with | some o => s.rowDone o c t r | none => s) s
                  if p.outStat && p.toQueue && 128 * pr.bands < t.rows then s.stallSlice o.id c else s.nextRow o c t row

/-- CHECK_COLUMN_COMPARE: the comparison of one row (05, R140 to R143). `tile` counts the slice's own tiles. A row whose data or stationary
tile has not come, or that cannot be delivered because its band is not claimed, stalls (05, R133). A failure in the cycle in which another
failure started the retry joins that retry. -/
def execCheckColumnCompare (cd : Cd) (tile row : Nat) (bad : Option Nat) (s : State) : Res :=
  .next ((s.tryLoad cd.val).compareRow cd.val tile row bad)

/-- A failing re-add at the end of WLD's stationary load, before an MMA uses the tile: the slice loads its tile once more, and halts the
seat when that fails too (05, R140, R143). No MMA gives its check action yet, and the model takes retry (DESIGN CHOICE, log 168). The load
checks every N:M group again (06, R153) and waits for slots (03, R79). -/
def State.wldReadd (s : State) (c col : Nat) : State :=
  let x := Tbl.get {} s.arr.planes c
  match s.arr.bind with
  | none => s
  | some l =>
    if x.ks.isEmpty || x.wld ≠ s.arr.boundBy || s.play.isNone then s
    else
      let s := s.modArr fun a => { a with failRow := Tbl.modify 0 a.failRow c fun n => min (n + 1) (maxOf 32) }
      let s := s.indicate c false [col]
      let d := checkWords c 0 0 0 none (some col)
      if x.again then
        let s := s.report 1 0x0105 3 (some s.playSeat) d (some .integrity) c
        (s.modArr fun a => { a with halts := Tbl.modify 0 a.halts c fun n => min (n + 1) (maxOf 16) }).haltPlay 0x04
      else
        let bs := l.map (·.b)
        let s := s.modArr fun a => { a with retries := Tbl.modify 0 a.retries c fun n => min (n + 1) (maxOf 32) }
        if !s.sharesOpen bs x.transB c x.col0 x.cols then
          -- the cells stay empty: the MMA that uses the tile loads it in its own slots
          s.modArr fun a => { a with planes := Tbl.set {} a.planes c { x with ks := [], cells := [], again := true } }
        else match s.badGroup bs x.transB c x.col0 x.cols x.ks with
          | some (col, g) => s.issueFault c 4 (c + col * 256 + g * 2 ^ 32)
          | none =>
            let new := s.readPlane x.wld bs x.transB c x.col0 x.cols x.ks
            s.modArr fun a => { a with planes := Tbl.set {} a.planes c { new with again := true } }

/-- CHECK_ROW_READD: the check row's re-add at the end of a load or later; a pass changes nothing (05, R140, R143). -/
def execCheckRowReadd (cd : Cd) (tile : Nat) (bad : Option Nat) (s : State) : Res :=
  .next (match bad with
    | none => s
    | some col =>
      let c := cd.val
      match s.arrOp.filter (·.started) with
      | none => if tile = 0 then s.wldReadd c col else s
      | some o =>
        let pr := Tbl.get {} o.prog c
        match (o.prod.tilesFor c)[pr.tile]? with
        | none => s
        | some t =>
        if o.prod.k = 0 || tile ≠ pr.tile then s
        else
          let row := t.row0 + pr.row
          let s := s.modArr fun a => { a with failRow := Tbl.modify 0 a.failRow c fun n => min (n + 1) (maxOf 32) }
          let s := s.indicate c false [col]
          if (pr.stopped.map (·.2)) == some s.now then s.joinRetry o c row none (some col) else s.checkFail o c row none (some col))

/-- Outputs of an MMA with K = 0 and accumulate off: +0 everywhere (05, R123). -/
def State.writeZeros (s : State) (p : Prod) : State :=
  p.tiles.foldl (fun s t => (List.range t.rows).foldl (fun s r =>
    (s.writeRow p t r (List.replicate t.cols (.fin false 0 1))).1) s) s

/-- Every slice has written its last tile (01, R13). -/
def ArrOp.ended (o : ArrOp) : Bool :=
  cds.all fun c => (o.prod.k == 0 && !o.prod.toQueue) || decide ((o.prod.tilesFor c).length ≤ (Tbl.get {} o.prog c).tile)

/-- The stationary tile that WLD loads on a slice before it knows M or the map: its first under the default deal of a product with a tile for
every slice, of B's own rate class (05, R125, R130; DESIGN CHOICE, log 66). -/
def State.wldTile (s : State) (a : WldArgs) (c : Nat) : Nat × Nat × List Nat :=
  let j := ((List.range c).filter fun d => s.sliceMode d != 3).length % max 1 ((a.n + 511) / 512)
  let kt := 512 * rateOf a.b.format * (if a.b.keep != 0 && !a.transB then 2 else 1)
  (512 * j, min (if s.sliceMode c = 0 then 512 else 256) (a.n - 512 * j), List.range (min a.k kt))

/-- The array owns the slots in which slice `c` loads its tile of a WLD (03, R79). -/
def State.wldOpen (s : State) (op : Op) (c : Nat) : Bool :=
  match s.arr.loads.find? (·.1 == op.id) with
  | none => true
  | some (_, l) =>
    match l.head? with
    | none => true
    | some a =>
      let x := s.wldTile (l.getD c a) c
      s.sliceMode c == 3 || s.sharesOpen (l.map (·.b)) a.transB c x.1 x.2.1

/-- WLD loads each slice's first stationary tile; a group that fails its check halts the seat (05, R125; 06, R153). -/
def State.wldLoad (s : State) (op : Op) : State :=
  match s.arr.loads.find? (·.1 == op.id) with
  | none => s
  | some (_, l) =>
    let s := s.modArr fun a => { a with loads := a.loads.filter (·.1 ≠ op.id) }
    match l.head? with
    | none => s
    | some a =>
      let bs := l.map (·.b)
      cds.foldl (fun s c =>
        let (col0, cols, ks) := s.wldTile (l.getD c a) c
        if s.sliceMode c == 3 then s
        else match s.badGroup bs a.transB c col0 cols ks with
          | some (col, g) => s.issueFault c 4 (c + col * 256 + g * 2 ^ 32)
          | none =>
            let x := s.readPlane (some op.id) bs a.transB c col0 cols ks
            s.modArr fun r => { r with planes := Tbl.set {} r.planes c x }) s

/-- Slice `c` owns the slots of what an operation does at its end: the +0 that an MMA with K = 0 writes, and the counter record (03, R79; 05,
R123; 04, R113). -/
def State.endOpen (s : State) (o : ArrOp) (c : Nat) : Bool :=
  (!(o.prod.k = 0 && !o.prod.toQueue) || (o.prod.tilesFor c).all fun t => (List.range t.rows).all fun r => s.outOpen o.prod t c r)
    && s.partsOpen .array c (recordPart (o.prod.records.getD c none))

/-- ARRAY_OPERATION_END: the last slice has written its last tile; the records are updated and the @done signals act on
every CD (01, R13; 03, R63; 04, R113). An end whose slots are missing waits (03, R79). -/
def execArrayOperationEnd (s : State) : Res :=
  .next (match s.headOp 0 .array with
    | none => s
    | some op =>
      match s.arrOp with
      | none => if !op.fin || !cds.all (s.wldOpen op) then s else (s.wldLoad op).retire op
      | some o =>
        if !o.started || !o.ended || !cds.all (s.endOpen o) then s
        else
          let s := if o.prod.k = 0 && !o.prod.toQueue then s.writeZeros o.prod else s
          let s := cds.foldl (fun s c => s.addRecord c (o.prod.records.getD c none) (Tbl.get {} o.prog c).counts) s
          let s := s.modArr fun a => { a with prods := a.prods.filter (·.id ≠ o.id) }
          let s := cds.foldl (fun s c => s.modQueue c fun q => { q with lost := q.lost.filter (· ≠ o.id) }) s
          s.retire op)

/-- SOFT_JOKER_ASSIGN: the row or column has been indicated three times within 24 h (05, R144; 0x6300.02). -/
def execSoftJokerAssign (cd : Cd) (row : Bool) (index : Nat) (s : State) : Res :=
  .next (
    let day := 86400 * 1000000000
    let n := (s.arr.indics.filter fun k => k.cd == cd.val && k.row == row && k.index == index
      && decide (s.now.toNat % 2 ^ 60 ≤ k.time.toNat % 2 ^ 60 + day)).length
    if n < 3 || s.arr.soft.contains (cd.val, row, index) then s
    else s.modArr fun a => { a with soft := a.soft ++ [(cd.val, row, index)] })

/-! ## The MVP (05, section 5.9) -/

def mvpCols (a : MvpArgs) : Nat := 64 * pairRate a.x.format a.w.format

/-- A device address lies in CD `c`'s own near tier, own slab or own far-tier stack in a per-stack band (05, R147). -/
def State.wHome (s : State) (c dev : Nat) : Bool :=
  routeOf dev == 0 && match target dev with
    | .near n | .slab n => n == c
    | .far b => s.memory.bandMode.getLsbD b && (stackOf s.memory.bandMode dev).1 == c
    | _ => false

/-- All of `len` bytes lie so: the answer can change at a boundary of 1 GiB only, and at the end of a slab. -/
def State.wAllHome (s : State) (c dev len : Nat) : Bool :=
  (List.range ((dev % 0x40000000 + len + 0x3FFFFFFF) / 0x40000000)).all (fun i => s.wHome c (max dev ((dev / 0x40000000 + i) * 0x40000000)))
    && s.wHome c (dev + (len - 1))

/-- Bytes of W's elements in MVP layout: whole weight tiles of 32 rows (05, R147). -/
def mvpBytes (a : MvpArgs) (n k : Nat) : Nat :=
  let w := mvpCols a
  (n + w - 1) / max w 1 * ((k + 31) / 32) * 32 * w * elemBits a.w.format / 8

/-- Checks of an MVP at issue (05, R147, R150; 04, R118). -/
def State.mvpCheck (s : State) (c : Nat) (a : MvpArgs) : Option State :=
  let n := (s.src c a.n).toNat
  let k := (s.src c a.k).toNat
  let bad := s.issueFault c 5
  let tr := translate s.playEntry a.wAddr.toNat (mvpBytes a n k) .r
  firstFault [
    (decide (1048576 < n) || decide (1048576 < k) || a.batch == 0 || decide (8 < a.batch) || decide (4 < a.rounding), bad),
    (decide (262144 < (a.batch * k * elemBits a.x.format + 7) / 8), bad),
    (!pairOk a.x.format a.w.format a.out.format || a.w.keep != 0, bad),
    (n != 0 && k != 0 && tr.isNone, s.windowFault c a.wAddr.toNat (mvpBytes a n k) (windowOf a.wAddr.toNat)),
    (n != 0 && k != 0 && tr.any (fun x => !s.wAllHome c x.1 (mvpBytes a n k)), bad),
    s.partsFault c (if n = 0 || k = 0 then [] else shareParts { a.x with cols := k } a.batch),
    s.partsFault c (if n = 0 || k = 0 then [] else scaleParts { a.w with cols := n } k),
    s.partsFault c (if n = 0 || k = 0 then [] else match a.zmap with | some z => [zmapPart z k 1] | none => []),
    s.partsFault c (if n = 0 then [] else shareParts { a.out with cols := n } a.batch),
    (!recordOk a.record, s.slabFault c (a.record.getD 0) 16)]

/-- MVP (05, R147, R150): its operands are fixed at issue. -/
def execMvp (i : Issue) (a : MvpArgs) (s : State) : Res :=
  .next (
    let c := i.cd.val
    let fixed := { a with n := .imm (s.src c a.n), k := .imm (s.src c a.k), seed := .imm (s.src c a.seed) }
    s.issueOp i 5 [] (srcReg a.n ++ srcReg a.k ++ srcReg a.seed) .mvp (.mvp i fixed) (fun s => s.mvpCheck c a)
      (fun s => s.src c a.n = 0 || (s.src c a.k = 0 && a.accumulate)))

def immOf : Src → Nat | .imm v => v.toNat | _ => 0

/-- An element of W in MVP layout: column group, then K blocks, then 32 rows of w columns (05, R147). Its scales and trump records lie in
their own arrays of the CD's slab, along either axis (05, R122; log 27). -/
def State.wAt (s : State) (c : Nat) (a : MvpArgs) (k n : Nat) : Num × Bool :=
  match translate s.playEntry a.wAddr.toNat 1 .r with
  | none => (.nan, false)
  | some (dev, key) =>
    let w := mvpCols a
    let kb := (immOf a.k + 31) / 32
    let tile := n / w * kb + k / 32
    let off := (tile * 32 * w + k % 32 * w + n % w) * elemBits a.w.format
    let rd := fun i => s.memory.read1 (s.keyOf (slotOf s.playEntry key)) (dev + i)
    let code := bitField (fun i => (rd i).1) off (elemBits a.w.format)
    let bs := blockSize a.w.format
    let axis := if a.w.blockCols then n else k
    let blk := (if a.w.blockCols then k else n) * a.w.scaleRow + axis / bs
    let sc := s.slabByte c (a.w.scaleBase + blk)
    let q := (rd (off / 8)).2 || (rd ((off + elemBits a.w.format - 1) / 8)).2
    match fmtOf a.w.format with
    | some (.mx e _) => (rne32 (decodeMx e sc.1.toNat code), q || sc.2)
    | some (.kx e _ _) =>
      let tb := if a.w.trump then s.slabBytes c (a.w.trumpBase + 4 * blk) 4 else []
      (decodeKx e a.w.coarse sc.1.toNat (if a.w.trump then some (leNat (plain tb)) else none) (axis % bs) code, q || sc.2 || anyPoison tb)
    | _ => (decodeElem a.w.format code, q)

/-- A block of the batch is skipped by the zero map (06, R163). -/
def State.mvpSkip (s : State) (c : Nat) (a : MvpArgs) (j : Nat) : Bool :=
  match a.zmap with
  | none => false
  | some z => bit (s.slabField c (z + j / 64 * 8) 8) (j % 64)

/-- One output of the MVP, and a poison mark: the bits of an MMA with M equal to the batch (05, R148). -/
def State.mvpOut (s : State) (c : Nat) (a : MvpArgs) (m n : Nat) : Num × Bool :=
  let k := immOf a.k
  let isInt := a.out.format == 0x0D
  let nb := (k + 31) / 32
  let prods := fun j => (List.range (min 32 (k - 32 * j))).map fun i =>
    let x := s.elemAt c a.x m (32 * j + i)
    let y := s.wAt c a (32 * j + i) n
    (x.1.mul y.1, x.2 || y.2)
  let p := fun j => if s.mvpSkip c a j then Num.fin false 0 1 else blockSum isInt ((prods j).map (·.1))
  let bad := (List.range nb).any fun j => !s.mvpSkip c a j && (prods j).any (·.2)
  ((addSegs isInt nb p 0 ((nb + 15) / 16) none).getD (.fin false 0 1), bad)

/-- Slab offset and bytes of an output element of the MVP. -/
def mvpAddr (a : MvpArgs) (m n : Nat) : Nat × Nat :=
  let size := elemBits a.out.format / 8
  (a.out.base + m * a.out.rowStride + n * size, size)

/-- The code of one output, C added where the operation accumulates (05, R148). -/
def State.mvpCode (s : State) (c : Nat) (a : MvpArgs) (m n : Nat) : Conved :=
  let v := (s.mvpOut c a m n).1
  let at' := mvpAddr a m n
  let v := if a.accumulate then accAdd (a.out.format == 0x0D) v (decodeElem a.out.format (s.slabField c at'.1 at'.2)) else v
  convert a.out.format { mode := a.rounding, seed := BitVec.ofNat 64 (immOf a.seed), sat := a.sat } (m * immOf a.n + n) v

/-- The columns of a column group. -/
def mvpSpan (a : MvpArgs) (g : Nat) : List Nat :=
  (List.range (min (mvpCols a) (immOf a.n - g * mvpCols a))).map (g * mvpCols a + ·)

/-- Poisoned data enter the outputs of a column group (08, R241). -/
def State.mvpPoison (s : State) (c : Nat) (a : MvpArgs) (g : Nat) : Bool :=
  (a.zmap.any fun z => anyPoison (s.slabBytes c z (zmapPart z (immOf a.k) 1).2)) || (List.range a.batch).any fun m => (mvpSpan a g).any fun n =>
    (s.mvpOut c a m n).2 || (a.accumulate && anyPoison (s.slabBytes c (mvpAddr a m n).1 (mvpAddr a m n).2))

/-- All outputs of a column group, for every vector of the batch; each vector's outputs are one write. -/
def State.mvpGroup (s : State) (c : Nat) (a : MvpArgs) (g : Nat) : State :=
  (List.range a.batch).foldl (fun s m =>
    let outs := (mvpSpan a g).map fun n => (s.mvpCode c a m n, mvpAddr a m n)
    let k := outs.foldl (fun (k : Conv) x => k.plus x.1.under x.1.sat x.1.nan) {}
    let s := (s.putRuns (outs.map fun x => (c, x.2.1, good (leBytes x.2.2 x.1.code)))).countConv c 0 k.under k.sat k.nan
    s.modArr fun r => { r with mvp := Tbl.modify {} r.mvp c fun p => { p with counts := p.counts.plus k.under k.sat k.nan } }) s

/-- Weight tiles of one column group: its K blocks that are not skipped. -/
def State.mvpTiles (s : State) (c : Nat) (a : MvpArgs) : Nat :=
  ((List.range ((immOf a.k + 31) / 32)).filter fun j => !s.mvpSkip c a j).length

/-- The MVP owns slots where weight tile `tile` of an operation lies, on the slab ports of what goes with it (its vectors, scales and zero map), and at
the end of a column group on those of the outputs: it reads and writes through its own slots only (01, R15; 05, R147, R149; 03, R79). -/
def State.mvpOpen (s : State) (c : Nat) (a : MvpArgs) (tile : Nat) : Bool :=
  match translate s.playEntry a.wAddr.toNat 1 .r with
  | none => true
  | some (dev, _) =>
    let kb := (immOf a.k + 31) / 32
    let kept := (List.range kb).filter fun j => !s.mvpSkip c a j
    let bytes := 4 * mvpCols a * elemBits a.w.format
    let x := { a.x with cols := immOf a.k }
    s.memOpen .mvp (dev + (tile / kept.length * kb + kept.getD (tile % kept.length) 0) * bytes) bytes
      && (List.range a.batch).all (fun m => s.partsOpen .mvp c (rowParts x m))
      && s.partsOpen .mvp c (scaleParts { a.w with cols := immOf a.n } (immOf a.k))
      && (match a.zmap with | some z => s.partsOpen .mvp c [zmapPart z (immOf a.k) 1] | none => true)
      && ((tile + 1) % kept.length != 0 || (List.range a.batch).all fun m => (mvpSpan a (tile / kept.length)).all fun n =>
        s.memOpen .mvp (slabAddr c (mvpAddr a m n).1) (mvpAddr a m n).2)

/-- The MVP owns the slots of what an operation does at its end: the outputs of one without a weight tile, with its zero map, and the counter
record (03, R79; 05, R150; 04, R113). -/
def State.mvpEndOpen (s : State) (c : Nat) (a : MvpArgs) : Bool :=
  (s.mvpTiles c a != 0 || ((match a.zmap with | some z => s.partsOpen .mvp c [zmapPart z (immOf a.k) 1] | none => true)
      && (List.range a.batch).all fun m => (List.range ((immOf a.n + mvpCols a - 1) / max (mvpCols a) 1)).all fun g => (mvpSpan a g).all fun n =>
        s.memOpen .mvp (slabAddr c (mvpAddr a m n).1) (mvpAddr a m n).2))
    && s.partsOpen .mvp c (recordPart a.record)

/-- The MVP operation at the head of CD `c`'s queue. -/
def State.mvpOp (s : State) (c : Nat) : Option (Op × MvpArgs) :=
  match s.headOp c .mvp with
  | some o => match o.instr with | .mvp _ a => some (o, a) | _ => none
  | none => none

/-- MVP_COMPARE: the two copies of a weight tile's block sums, once the tile has come through the MVP's slots (05, R589). The
last tile of a group that passes lets the group be written, once. -/
def execMvpCompare (cd : Cd) (tile : Nat) (differ : Bool) (s : State) : Res :=
  .next (
    let c := cd.val
    match s.mvpOp c with
    | none => s
    | some (o, a) =>
      let pr := Tbl.get {} s.arr.mvp c
      let per := s.mvpTiles c a
      let groups := (immOf a.n + mvpCols a - 1) / max (mvpCols a) 1
      if o.fin || tile ≠ pr.next || groups * per ≤ tile || !s.mvpOpen c a tile then s
      else if differ then
        if pr.restarted then
          let s := s.report 1 0x0106 3 (some s.playSeat) [c, tile] (some .integrity) c
          let s := s.modArr fun r => { r with halts := Tbl.modify 0 r.halts c fun n => min (n + 1) (maxOf 16), mvp := Tbl.set {} r.mvp c {} }
          ({ s with ops := s.ops.filter (·.id ≠ o.id) }).haltPlay 0x04
        else
          let s := s.report 0 0x0106 2 (some s.playSeat) [c, tile] (some .ok) c
          s.modArr fun r => { r with
            retries := Tbl.modify 0 r.retries c fun n => min (n + 1) (maxOf 32)
            mvp := Tbl.modify {} r.mvp c fun p => { p with next := 0, restarted := true } }
      else
        let s := s.modArr fun r => { r with mvp := Tbl.modify {} r.mvp c fun p => { p with next := tile + 1 } }
        let g := tile / per
        if (tile + 1) % per ≠ 0 || g < pr.written then s
        else if s.mvpPoison c a g then
          let s := s.modArr fun r => { r with mvp := Tbl.set {} r.mvp c {} }
          ({ s with ops := s.ops.filter (·.id ≠ o.id) }).poisonHalt c (slabAddr c a.x.base) 2
        else
          (s.mvpGroup c a g).modArr fun r => { r with mvp := Tbl.modify {} r.mvp c fun p => { p with written := g + 1 } })

/-- MVP_END: every group has been compared and written (05, R149); with no weight tile to read the outputs are formed from a
zero sum (05, R150; 06, R163). An end whose slots are missing waits (03, R79). -/
def execMvpEnd (cd : Cd) (s : State) : Res :=
  .next (
    let c := cd.val
    match s.mvpOp c with
    | none => s
    | some (o, a) =>
      let pr := Tbl.get {} s.arr.mvp c
      let per := s.mvpTiles c a
      let groups := (immOf a.n + mvpCols a - 1) / max (mvpCols a) 1
      if o.fin then s.retire o
      else if (per ≠ 0 && pr.next < groups * per) || !s.mvpEndOpen c a then s
      else if per = 0 && (List.range groups).any (s.mvpPoison c a) then
        let s := s.modArr fun r => { r with mvp := Tbl.set {} r.mvp c {} }
        ({ s with ops := s.ops.filter (·.id ≠ o.id) }).poisonHalt c (slabAddr c a.out.base) 2
      else
        let s := if per = 0 then (List.range groups).foldl (fun s g => s.mvpGroup c a g) s else s
        let s := s.addRecord c a.record (Tbl.get {} s.arr.mvp c).counts
        (s.modArr fun r => { r with mvp := Tbl.set {} r.mvp c {} }).retire o)

/-! ## The tile queue's producer (07, R211 to R214) -/

/-- The VRUN that pairs with MMA `id` on a CD, once it has been issued (07, R212). -/
def State.pairOf (s : State) (id c : Nat) : Option Nat :=
  let q := Tbl.get {} s.arr.queues c
  (q.mmas.findIdx? (· == id)).bind fun i => q.vruns[i]?

/-- Depth of the VRUN that pairs with MMA `id`; 0 means 16, and with no VRUN yet issued the MMA may fill the queue (07, R212, Table 7-1). -/
def State.pairDepth (s : State) (id c : Nat) : Nat :=
  match (s.pairOf id c).bind s.opById with
  | none => 16
  | some o =>
    let d := field o.data 0x29 1 % 32
    if d = 0 then 16 else d

/-- The queue has room for a band of `need` entries of MMA `id` (07, R213); the band of an MMA whose VRUN has left takes none (log 140). -/
def State.bandRoom (s : State) (id c need : Nat) : Bool :=
  let q := Tbl.get {} s.arr.queues c
  q.lost.contains id || decide (q.entries.length + need ≤ s.pairDepth id c)

/-- TILE_BAND_CLAIM: all entries of the next band, once the paired VRUN's depth covers them; otherwise the slice stalls (07,
R213; 05, R133). -/
def execTileBandClaim (cd : Cd) (s : State) : Res :=
  .next (
    let c := cd.val
    match s.arrOp with
    | none => s
    | some o =>
      let p := o.prod
      let pr := Tbl.get {} o.prog c
      match (p.tilesFor c)[pr.tile]? with
      | none => s
      | some t =>
        if !o.started || !p.toQueue || t.rows ≤ 128 * pr.bands || (p.k ≠ 0 && pr.pass + 1 ≠ s.passes p t) then s
        else
          let need := (t.cols + 127) / 128
          if !s.bandRoom o.id c need then s.stallSlice o.id c
          else
            let rows := min 128 (t.rows - 128 * pr.bands)
            let es : List TEntry := (List.range need).map fun i =>
              { op := o.id, n := p.n, row0 := t.row0 + 128 * pr.bands, col0 := t.col0 + 128 * i, rows := rows
                cols := min 128 (t.cols - 128 * i), tag := p.tag, filled := if p.k = 0 then rows else 0 }
            let s := (s.endSlice o.id c).modQueue c fun q => { q with entries := if q.lost.contains o.id then q.entries else q.entries ++ es }
            let s := s.modProg o.id c fun x => { x with bands := pr.bands + 1 }
            if p.k = 0 && t.rows ≤ 128 * (pr.bands + 1) then s.modProg o.id c fun x => { x with tile := pr.tile + 1, bands := 0 } else s)

/-- TILE_ENTRY_AVAILABLE: the oldest entry that is filled and not yet available (07, R214). -/
def execTileEntryAvailable (cd : Cd) (s : State) : Res :=
  .next (
    let q := Tbl.get {} s.arr.queues cd.val
    match q.entries.findIdx? fun e => !e.avail with
    | some i =>
      match q.entries[i]? with
      | some e => if e.filled = e.rows then s.modQueue cd.val fun q => { q with entries := q.entries.set i { e with avail := true } } else s
      | none => s
    | none => s)

end Sys2Proof.Machine
end

