-- ==== Sys2Proof/Machine/Gang.lean ====
section
/-! DEFINITION. Gang instructions of the package class, the gang point, phase changes and wait timeouts (03, sections 3.4 to
3.7; 09, R279, R280). -/

namespace Sys2Proof.Machine

/-- RDX (03, R70). -/
def execRdx (i : Issue) (tag : Byte) (op : RdxOp) (g : Fin 16) (a : Src) (s : State) : Res :=
  .next (s.issueGang i 12 (.g g :: srcReg a) (.rdx i tag op g a) fun _ => none)
/-- SETPH (03, R78). -/
def execSetph (i : Issue) (tag : Byte) (n : Nat) (s : State) : Res :=
  .next (s.issueGang i 12 [] (.setph i tag n) fun _ => none)
/-- SWPT (03, R81). -/
def execSwpt (i : Issue) (tag : Byte) (k : Nat) (s : State) : Res :=
  .next (s.issueGang i 12 [] (.swpt i tag k) fun _ => none)
/-- END (03, R71). -/
def execEnd (i : Issue) (tag : Byte) (s : State) : Res :=
  .next (s.issueGang i 12 [] (.end_ i tag) fun _ => none)

/-! ## The gang point (03, R68, R69) -/

/-- The issue fields of a gang instruction. -/
def gangIssue : Instr → Option Issue
  | .wld i _ | .mma i _ | .mmag i _ | .rdx i _ _ _ _ | .setph i _ _ | .swpt i _ _ | .end_ i _ => some i
  | _ => none

/-- The formats of an MMAG's B stand in the descriptor, which is compared as bytes (06, R165); an operand with only what R69 compares: its format. -/
def shareKey (t : Tensor) : Tensor := { format := t.format, keep := t.keep }

/-- What the eight streams must agree on: the mnemonic, the tag and the shared attributes (03, R69). Zero-map use, K compaction and the
N:M keep of B count as shared, for they fix the operation as a whole; R69's table does not list them (DESIGN CHOICE, log 148). -/
def State.gangKey (s : State) (c : Nat) : Option (Instr × List Byte) :=
  let no : Issue := { cd := 0, bytes := 0 }
  (s.seq c).gang.map fun g =>
    match g with
    | .wld _ a => (.wld no { a with b := shareKey a.b }, [])
    | .mma _ a => (.mma no { a with
        a := shareKey a.a, b := shareKey a.b, c := shareKey a.c, seed := .imm (s.src c a.seed)
        zmap := a.zmap.map fun _ => 0, record := none }, [])
    | .mmag _ a => (.mmag no { a with desc := 0, aScales := { format := 0 }, bs := [], record := none }, (s.seq c).gangDesc)
    | .rdx _ t op g _ => (.rdx no t op g (.imm 0), [])
    | .setph _ t n => (.setph no t n, [])
    | .swpt _ t k => (.swpt no t k, [])
    | .end_ _ t => (.end_ no t, [])
    | _ => (.gangPoint, [])

/-- A gang mismatch: report 0x0102 with the eight pcs, two to a word, and halt cause 0x08 (03, R69). -/
def State.gangMismatch (s : State) : State :=
  let w := fun c => s.pc c + 2 ^ 32 * s.pc (c + 1)
  (s.report 1 0x0102 3 (some s.playSeat) [w 0, w 2, w 4, w 6] none).haltPlay 0x08

/-- One step of a gang reduction (03, Table 3-4). -/
def rdxStep (op : RdxOp) (a b : Word) : Word :=
  let f := fun (g : Num → Num → Num) => (toF32 (g (ofF32 (a.setWidth 32)) (ofF32 (b.setWidth 32)))).setWidth 64
  match op with
  | .add => a + b | .min => signedMin a b | .max => signedMax a b | .minu => unsignedMin a b | .maxu => unsignedMax a b
  | .and => a &&& b | .or => a ||| b | .xor => a ^^^ b
  | .fadd => f Num.add | .fmax => f Num.maxNum | .fmin => f Num.minNum

/-- The reduction of eight values in CD order (03, R70). -/
def rdxOf (op : RdxOp) : List Word → Word
  | [] => 0
  | a :: t => t.foldl (rdxStep op) a

/-- The @done signals of the eight streams. -/
def State.gangDone (s : State) : List (Nat × Target) :=
  cds.filterMap fun c => (s.seq c).gang.bind fun g => (gangIssue g).bind fun i => (doneOf i).map fun t => (c, t)

/-- The streams go on past the gang instruction, and its @issue signals act, of all eight in the gang point's cycle (03, R63, R68;
DESIGN CHOICE: an early issue may still be withdrawn, log 148). -/
def State.startGang (s : State) : State :=
  (cds.foldl (fun s c =>
    match (s.seq c).gang.bind gangIssue with
    | none => s
    | some i =>
      let s := s.modSeq c fun q => { q with gang := none, gangDesc := [] }
      (s.signalIssue i).advance c i.bytes) s).sameCycle s

/-- The @issue signals of a gang instruction at which the streams stay. -/
def State.signalGang (s : State) : State :=
  (cds.foldl (fun s c =>
    match (s.seq c).gang.bind gangIssue with
    | none => s
    | some i => s.signalIssue i) s).sameCycle s

/-- The places of an interval at which the shares that hold a place can change: its first, and each bound within it. -/
def breaks (first width : Nat) (bounds : List Nat) : List Nat :=
  first :: bounds.filter fun x => decide (first < x) && decide (x < first + width)

/-- Some row of A, column of B or element of C is in no CD's share: the operand descriptors do not cover the operation (log
28). -/
def Prod.uncovered (p : Prod) (m : Nat) : Bool :=
  let inputs := p.k != 0 && (
    (List.range m).any (fun r => (p.aHome r).isNone)
    || p.tiles.any fun t =>
      let lb := (p.segs.getD t.seg { m := 0, b := [] }).b
      let ns := breaks t.col0 t.cols (lb.flatMap fun x => if p.transB then [x.firstRow, x.firstRow + x.rows] else [x.firstCol, x.firstCol + x.cols])
      ns.any fun n => (shareOf lb t.cd (holdsCol p.transB n)).isNone)
  let output := (!p.toQueue || p.accumulate) && !(p.k == 0 && p.accumulate) && p.tiles.any fun t =>
      let rs := breaks t.row0 t.rows (p.c.flatMap fun x => [x.firstRow, x.firstRow + x.rows])
      let ns := breaks t.col0 t.cols (p.c.flatMap fun x => [x.firstCol, x.firstCol + x.cols])
      rs.any fun r => ns.any fun n => (shareOf p.c t.cd (holdsCell r n)).isNone
  !p.deal && (inputs || output)

/-- The arguments of an MMA on every CD. -/
def State.mmaArgs (s : State) : List MmaArgs :=
  cds.filterMap fun c => match (s.seq c).gang with | some (.mma _ a) => some a | _ => none
def State.mmagArgs (s : State) : List MmagArgs :=
  cds.filterMap fun c => match (s.seq c).gang with | some (.mmag _ a) => some a | _ => none
def State.wldArgs (s : State) : List WldArgs :=
  cds.filterMap fun c => match (s.seq c).gang with | some (.wld _ a) => some a | _ => none

/-- The gang point of an MMA (05, R123, R130). -/
def State.gangMma (s : State) (ins : Instr) (a : MmaArgs) : State :=
  let l := s.mmaArgs
  let b := cds.map fun c => s.bOf c (l.getD c a)
  let p := mmaProd a (s.src 0 a.seed) b (l.map (·.a)) (l.map (·.c)) (l.map (·.zmap)) (l.map (·.record))
  match s.mapTiles p a.tileMap with
  | none => s.issueFault 0 4
  | some ts =>
    let p := { p with tiles := ts }
    if p.uncovered a.m then s.issueFault 0 4
    else (s.pushProd ins { p with wld := if p.outStat then none else s.arr.boundBy } s.gangDone).startGang

/-- What an indirect MMAG's rows bring at the gang point: the first CD whose segments name a B descriptor or a share of B outside its own
slab, as the window fault that it is (05, R123; 06, R168, R169). -/
def State.gangBFault (s : State) (d : List Byte) (l : List SegEntry) : Option State :=
  if !bit (field d 2 1) 0 then none
  else firstFault (s.mmagArgs.zipIdx.flatMap fun x => [s.partsFault x.2 (mmagBParts d x.1.bs l), s.bDescFault x.2 l])

/-- The gang point of an MMAG: the checks of R169 on the rows, and its tiles (06, R165 to R169). -/
def State.gangMmag (s : State) (ins : Instr) (a : MmagArgs) : State :=
  let d := (s.seq 0).gangDesc
  let l := s.segRows 0 d
  if s.segPoison 0 d then s.poisonHalt 0 (slabAddr 0 (field d 0x14 4)) 1
  else if s.mmagArgs.any fun x => !mmagRows d x.bs l then s.issueFault 0 4
  else
    let p := mmagProd d (runOrder d l) s.mmagArgs
    match s.mapTiles p a.tileMap with
    | none => s.issueFault 0 4
    | some ts => match s.gangBFault d l with
      | some t => t
      | none => (s.pushProd ins { p with tiles := ts } s.gangDone).startGang

/-- GANG_POINT: all eight sequencers have issued; their attributes are compared and the operation starts (03, R68, R69). An
array operation waits for room in the array's command queue (03, R60). -/
def execGangPoint (s : State) : Res :=
  .next (
    if !s.play.any (fun p => p.phase = .issuing) || cds.any (fun c => (s.seq c).gang.isNone) then s
    else if cds.any (fun c => s.gangKey c ≠ s.gangKey 0) then s.gangMismatch
    else match (s.seq 0).gang with
      | some (.rdx i t op g a) =>
        let v := rdxOf op (cds.map fun c => match (s.seq c).gang with | some (.rdx _ _ _ _ a) => s.src c a | _ => s.src c a)
        let s := cds.foldl (fun s c => s.pend c { dst := .g g, src := .rdx, value := some v
                                                  done := ((s.seq c).gang.bind gangIssue).bind doneOf }) s
        let _ := (i, t)
        s.startGang
      | some (.setph _ _ n) =>
        if s.playDeck.phaseCount ≤ n then s.issueFault 0 12
        else
          let old := match s.phaseNext with | some (_, l) => l | none => []
          { s with phaseNext := some (n, old ++ s.gangDone) }.startGang
      | some (.swpt _ _ k) =>
        let s := s.signalGang
        { s with play := s.play.map fun p => { p with phase := .draining k } }
      | some (.end_ _ _) =>
        let s := s.signalGang
        { s with play := s.play.map fun p => { p with phase := .ending } }
      | some (.wld i a) =>
        if 8 ≤ s.queued 0 .array then s
        else
          let id := s.nextOp
          let s := { s with arr := { s.arr with bind := some s.wldArgs, boundBy := some id, loads := s.arr.loads ++ [(id, s.wldArgs)] } }
          (s.pushOp 0 .array (.wld i a) s.gangDone true).startGang
      | some (.mma i a) => if 8 ≤ s.queued 0 .array then s else s.gangMma (.mma i a) a
      | some (.mmag i a) => if 8 ≤ s.queued 0 .array then s else s.gangMmag (.mmag i a) a
      | _ => s)

/-- Phase `n` is the active phase on all eight CDs (03, R78). -/
def State.enterPhase (s : State) (n : Nat) : State :=
  cds.foldl (fun s c => s.modSeq c fun q => { q with ctx := { q.ctx with phase := BitVec.ofNat 6 n } })
    { s with phaseNext := none, play := s.play.map fun p => { p with phaseSince := s.now } }

/-- PHASE_CHANGE: at a package-period boundary the next phase becomes active on all eight CDs, and SETPH's @done signals act
(03, R78, R63). Requests of the narrow view that waited for the phase are served (R79). -/
def execPhaseChange (s : State) : Res :=
  .next (match s.phaseNext, s.play with
    | some (n, done), some p =>
      let s := s.enterPhase n
      let s := (done.foldl (fun s d => s.signalOf d.1 0 p.seat d.2) s).sameCycle s
      cds.foldl State.narrowServeAll s
    | _, _ => s)

/-! ## Wait timeouts (09, R279, R280, Table 9-7) -/

/-- The 64 bytes of a wait-timeout record, of seat `who` in its incarnation. -/
def stallRecord (s : State) (c : Nat) (k : Stall) (who : Nat × Quad) : List Byte :=
  let val : Nat := if k.objKind = 0 then (s.cdTally c k.object).toNat else if k.objKind = 1 then (s.pkgTally k.object).toNat
    else if k.objKind = 2 then b2n (s.flag c k.object)
    else if k.objKind = 3 then (Tbl.get {} s.sync.locks k.object).state else 0
  let own := if k.objKind = 3 then (Tbl.get {} s.sync.locks k.object).owner else none
  [BitVec.ofNat 8 k.kind, BitVec.ofNat 8 c] ++ leBytes 2 who.1 ++ leBytes 4 who.2.toNat
    ++ leBytes 4 k.pc.toNat ++ leBytes 2 k.objKind ++ leBytes 2 k.object ++ leBytes 8 k.threshold.toNat ++ leBytes 8 val
    ++ leBytes 8 k.since.toNat ++ leBytes 8 s.now.toNat
    ++ (match own with
        | some o => leBytes 2 o.1 ++ leBytes 2 o.2.2 ++ leBytes 4 o.2.1.toNat
        | none => leBytes 2 0xFFFF ++ zeros 6) ++ zeros 8

/-- Every timeout: the counter and report 0x0108 with its record (09, R280). -/
def State.timeoutReport (s : State) (c : Nat) (k : Stall) (action : Nat) : State :=
  (s.bump 0x610001 32).report 1 0x0108 action (some s.playSeat) [] (some .timeout) c [stallRecord s c k (s.playSeat, (s.seat s.playSeat).inc)]

end Sys2Proof.Machine
end

