-- ==== Sys2Proof/Machine/Vector.lean ====
section
/-! DEFINITION. The vector engine (07): the VRUN block, its checks, element programs, stores, reductions and the consumption of
tile-queue entries. -/

namespace Sys2Proof.Machine

/-! ## The VRUN block (07, Tables 7-1 and 7-2) -/

/-- A stream descriptor. -/
structure Strm where
  kind    : Nat
  format  : Byte
  int     : Bool
  trump   : Bool
  zmap    : Bool
  base    : Nat
  rowStep : Nat
  colStep : Nat
  scales  : Nat
  trumps  : Nat
  coarse  : Quad
  zbase   : Nat
deriving DecidableEq, Repr

def strmAt (d : List Byte) (o : Nat) : Strm :=
  { kind := field d o 1 % 8, format := BitVec.ofNat 8 (field d (o + 1) 1), int := bit (field d (o + 2) 1) 0
    trump := bit (field d (o + 2) 1) 1, zmap := bit (field d (o + 2) 1) 2, base := field d (o + 4) 4
    rowStep := field d (o + 8) 4, colStep := field d (o + 12) 4, scales := field d (o + 16) 4
    trumps := field d (o + 20) 4, coarse := BitVec.ofNat 32 (field d (o + 24) 4), zbase := field d (o + 28) 4 }

/-- A VRUN block. -/
structure VBlock where
  program : Nat
  tile    : Bool
  rnd     : Rnd
  set     : Nat
  rows    : Nat
  maskKind : Nat
  maskBase : Nat
  causal  : Int
  record  : Option Nat
  tblBase : Nat
  tblLen  : Nat
  tblFmt  : Byte
  depth   : Nat
  ins     : List Strm
  outs    : List Strm
deriving DecidableEq, Repr

def vblock (d : List Byte) : VBlock :=
  let r := field d 3 1
  let rec' := field d 0x1C 4
  let dep := field d 0x29 1 % 32
  { program := field d 0 2, tile := bit (field d 2 1) 0
    rnd := { mode := r % 8, seed := BitVec.ofNat 64 (field d 8 8), sat := bit r 3 }, set := bits r 4 2
    rows := field d 4 4, maskKind := field d 0x10 1 % 4, maskBase := field d 0x14 4, causal := signed 32 (field d 0x18 4)
    record := if rec' = 0xFFFFFFFF then none else some rec', tblBase := field d 0x20 4, tblLen := field d 0x24 4
    tblFmt := BitVec.ofNat 8 (field d 0x28 1), depth := if dep = 0 then 16 else dep
    ins := [strmAt d 0x40, strmAt d 0x60, strmAt d 0x80, strmAt d 0xA0], outs := [strmAt d 0xC0, strmAt d 0xE0] }

/-! ## Addresses (07, R196) -/

/-- Bit offset of an element in the slab. -/
def strmBit (t : Strm) (row col : Nat) : Nat :=
  let b := elemBits t.format
  match t.kind with
  | 3 => t.base * 8 + col * b
  | 4 => t.base * 8 + row * b
  | _ =>
    if b % 8 ≠ 0 || isScaled t.format then (t.base + row * t.rowStep) * 8 + col * b
    else (t.base + row * t.rowStep + col * t.colStep) * 8

/-- Block number of an element for its scale and trump arrays; `w` is the row width W. -/
def strmBlk (t : Strm) (w row col : Nat) : Nat :=
  let bs := blockSize t.format
  row * ((w + bs - 1) / bs) + col / bs

/-- Packed output: place in the entry's own rows (07, R196). -/
def packedRow (k row : Nat) : Nat := 128 * k + row

/-- An input element as the lanes see it, and its poison mark: an FP32 element is its 32 bits (07, R197). -/
def State.loadElem (s : State) (c : Nat) (t : Strm) (w row col : Nat) : Quad × Bool :=
  let b := elemBits t.format
  let off := strmBit t row col
  let code := bitField (fun i => (s.slabByte c i).1) off b
  let q := (s.slabByte c (off / 8)).2 || (s.slabByte c ((off + b - 1) / 8)).2
  match fmtOf t.format with
  | some (.mx e _) =>
    let sc := s.slabByte c (t.scales + strmBlk t w row col)
    (toF32 (decodeMx e sc.1.toNat code), q || sc.2)
  | some (.kx e _ _) =>
    let k := strmBlk t w row col
    let sc := s.slabByte c (t.scales + k)
    let tr := if t.trump then some (s.slabField c (t.trumps + 4 * k) 4) else none
    (toF32 (decodeKx e t.coarse sc.1.toNat tr (col % 16) code), q || sc.2 || (t.trump && anyPoison (s.slabBytes c (t.trumps + 4 * k) 4)))
  | some (.int n sg) => if t.int then (BitVec.ofInt 32 (if sg then signed n code else code), q) else (toF32 (decodeElem t.format code), q)
  | _ => (if t.format = 1 then BitVec.ofNat 32 code else toF32 (decodeElem t.format code), q)

/-! ## The slab bytes of a row (07, R196, R198, R199) -/

/-- Bytes of elements `col` to `col + n − 1` of a row of a stream; for a packed output the row and columns of its place. -/
def elemSpans (t : Strm) (row col n : Nat) : List (Nat × Nat) :=
  let b := elemBits t.format
  let at' := fun (i : Nat) => if t.kind = 6 then t.base * 8 + (128 * row + i) * b else strmBit t row i
  let one := (at' col / 8, (b + 7) / 8)
  if t.kind = 4 || ((t.kind = 2 || t.kind = 5) && b % 8 = 0 && !isScaled t.format && t.colStep = 0) then [one]
  else if (t.kind = 2 || t.kind = 5) && b % 8 = 0 && !isScaled t.format && t.colStep * 8 ≠ b then
    (List.range n).map fun i => (at' (col + i) / 8, b / 8)
  else [(at' col / 8, (at' (col + n - 1) + b + 7) / 8 - at' col / 8)]

/-- Bytes of the scales and trump words of those elements. -/
def scaleSpans (t : Strm) (w row col n : Nat) : List (Nat × Nat) :=
  if !isScaled t.format then []
  else
    let k := strmBlk t w row col
    let m := strmBlk t w row (col + n - 1) + 1 - k
    (t.scales + k, m) :: (if t.trump then [(t.trumps + 4 * k, 4 * m)] else [])

/-- Elements that an output of `n` elements from the start of a block stores: block-scaled formats store whole blocks, pad elements included (04,
R99, R105). -/
def wholeBlocks (t : Strm) (n : Nat) : Nat :=
  let bs := blockSize t.format
  if isScaled t.format then (n + bs - 1) / bs * bs else n

/-- Part of a VRUN's row: its logical row and first column, its place in a packed output, and how many columns it has. -/
structure RowPart where
  row  : Nat
  col  : Nat
  prow : Nat := 0
  n    : Nat
deriving DecidableEq, Repr

/-- Slab bytes that a VRUN of width `w` reads and writes for a part of a row. -/
def VBlock.spans (b : VBlock) (w : Nat) (x : RowPart) : List (Nat × Nat) :=
  if x.n = 0 then []
  else
    let strm := fun (t : Strm) =>
      let n := if t.kind = 5 || t.kind = 6 then wholeBlocks t x.n else x.n
      if t.kind = 0 || t.kind = 1 then []
      else if t.kind = 6 then elemSpans t x.prow 0 n ++ scaleSpans t 128 x.prow 0 x.n
      else elemSpans t x.row x.col n ++ scaleSpans t w x.row x.col x.n
    let first := (x.row * w + x.col) / 8
    let out0 := b.outs.headD (strmAt [] 0)
    let words := ((w + 31) / 32 + 63) / 64
    (b.ins ++ b.outs).flatMap strm
      ++ (if b.maskKind = 1 then [(b.maskBase + first, (x.row * w + x.col + x.n - 1) / 8 + 1 - first)] else [])
      ++ (if out0.zmap && out0.kind ≠ 0 then
          [(out0.zbase + (x.row / 32 * words + x.col / 2048) * 8, ((x.col + x.n - 1) / 2048 + 1 - x.col / 2048) * 8)] else [])

/-- The GATH table (07, Table 7-1). -/
def VBlock.table (b : VBlock) : Nat × Nat := (b.tblBase, b.tblLen * (elemBits b.tblFmt / 8))

/-- The rows of a slab-mode VRUN. -/
def VBlock.slabRows (b : VBlock) (vl : Nat) : List RowPart := (List.range b.rows).map fun r => { row := r, col := 0, n := vl }

/-- The rows of a tile-queue entry, the `k`-th that the VRUN takes (07, R191, R196). -/
def TEntry.parts (e : TEntry) (k : Nat) : List RowPart :=
  (List.range e.rows).map fun r => { row := e.row0 + r, col := e.col0, prow := packedRow k r, n := e.cols }

/-- A program has a GATH. -/
def usesTable (prog : List EStep) : Bool := prog.any fun x => match x.op with | .gath _ _ => true | _ => false

/-- The vector engine owns a slot on every slab port that the parts of a VRUN lie on (07, R199). -/
def State.vecOpen (s : State) (c : Nat) (b : VBlock) (prog : List EStep) (w : Nat) (l : List RowPart) : Bool :=
  (!usesTable prog || s.partsOpen .vec c [b.table]) && l.all fun x => s.partsOpen .vec c (b.spans w x)

/-! ## Checks at issue (07, R193, R198, R203, R213; 04, R92) -/

def isRowOp : EInstr → Bool | .rsum _ _ | .rmax _ _ | .rmin _ _ | .rarg _ _ => true | _ => false

/-- A stream that a VRUN must refuse. Kind 7, an input of kind 5 or 6 and an output of kind 1 to 4 have no meaning in Table 7-2: the model refuses
them (DESIGN CHOICE, log 169). -/
def strmBad (b : VBlock) (isOut : Bool) (first : Bool) (t : Strm) : Bool :=
  t.kind != 0 && (
    (if isOut then !(t.kind == 5 || t.kind == 6) else !(1 ≤ t.kind && t.kind ≤ 4))
    || (t.kind == 1 && !(first && b.tile)) || (t.kind == 6 && !b.tile)
    || (t.kind != 1 && (fmtOf t.format).isNone)
    || ((elemBits t.format % 8 != 0 || isScaled t.format) && t.colStep != 0)
    || (t.zmap && isOut && (!first || t.kind == 6)))

/-- The zero map can cover out0: whole blocks of 32 columns, in rows that hold whole blocks (07, R218; 06, R159). -/
def zmapOk (b : VBlock) (vl : Nat) (t : Strm) : Bool :=
  !t.zmap || t.kind == 0 || (t.rowStep * 8 % (32 * elemBits t.format) == 0 && (b.tile || vl % 32 == 0))

/-- Checks of a VRUN or VRED at issue. Addresses grow with the row, so the last row of a slab-mode VRUN has the highest; those of a tile-mode VRUN
are judged entry by entry. A depth above 16 is refused (DESIGN CHOICE, log 158), and so are a mask_kind of 3 and a GATH table in a scaled format or
one narrower than a byte; a rows field above 1,048,576 runs (DESIGN CHOICE, log 169). -/
def State.vrunCheck (s : State) (c : Nat) (a : VrunArgs) : Option State :=
  let raw := s.slabBytes c a.block 256
  let b := vblock (plain raw)
  let vl := (s.seq c).ctx.vl.toNat
  let prog := (s.seat s.playSeat).eprogs.getD b.program []
  let bad := s.issueFault c 3
  let streams := (b.ins.zipIdx.map fun x => (x.1, false, x.2 == 0)) ++ (b.outs.zipIdx.map fun x => (x.1, true, x.2 == 0))
  let gath := usesTable prog
  let need := if s.sliceMode c = 0 then 4 else 2
  let live := !b.tile && b.rows != 0 && vl != 0
  let past := offPart ((if live then b.spans vl { row := b.rows - 1, col := 0, n := vl } else [])
    ++ (if gath && vl != 0 && (b.tile || b.rows != 0) then [b.table] else []))
  firstFault [
    (decide (slabSize < a.block + 256), s.slabFault c a.block 256),
    (anyPoison raw, s.poisonHalt c (slabAddr c a.block) 3),
    (decide (s.playDeck.eprogCount ≤ b.program), bad),
    (streams.any fun x => strmBad b x.2.1 x.2.2 x.1, bad),
    (!zmapOk b vl (b.outs.headD (strmAt [] 0)), bad),
    (decide (4 < b.rnd.mode) || b.maskKind == 3, bad),
    (b.tile && vl != 0 && vl != 1024, bad),
    (b.tile && prog.any (fun x => isRowOp x.op), bad),
    (b.tile && s.sliceMode c != 3 && decide (b.depth < need), bad),
    (decide (16 < b.depth), bad),
    (prog.isEmpty && (b.outs.headD (strmAt [] 0)).format != 1, bad),
    (gath && (isScaled b.tblFmt || (fmtOf b.tblFmt).isNone || elemBits b.tblFmt % 8 != 0), bad),
    (!recordOk b.record, s.slabFault c (b.record.getD 0) 16),
    (past.isSome, s.slabFault c (past.getD (0, 0)).1 (past.getD (0, 0)).2)]

/-- The block, vl and the parameters, as read at issue (07, R195). -/
def State.vrunVals (s : State) (c : Nat) (a : VrunArgs) : List Nat :=
  (s.seq c).ctx.vl.toNat :: a.params.map fun r => (s.src c (.s r)).toNat % 2 ^ 32

/-- The VRUN works on nothing: vl 0, or a slab-mode rows field of 0 (07, R194). -/
def State.vrunEmpty (s : State) (c : Nat) (a : VrunArgs) : Bool :=
  let b := vblock (plain (s.slabBytes c a.block 256))
  (s.seq c).ctx.vl == 0 || (!b.tile && b.rows == 0)

/-- A tile-mode VRUN that takes part joins the CD's pairing list (07, R194, R212). -/
def State.joinQueue (s : State) (c : Nat) (a : VrunArgs) (id : Nat) : State :=
  if !(vblock (plain (s.slabBytes c a.block 256))).tile || (s.seq c).ctx.vl = 0 then s
  else s.modQueue c fun q => { q with vruns := q.vruns ++ [id] }

/-- VRUN (07, R195). -/
def execVrun (i : Issue) (a : VrunArgs) (s : State) : Res :=
  .next (
    let c := i.cd.val
    s.issueOp i 3 [] (a.params.map Dst.s) .vec (.vrun i a) (fun s => s.vrunCheck c a) (fun s => s.vrunEmpty c a)
      (fun t => t.joinQueue c a s.nextOp) (fun s => plain (s.slabBytes c a.block 256)) (fun s => s.vrunVals c a))

/-! ## VRED (07, R217) -/

/-- Identity of an operator: exact value and 64 bits (07, Table 7-6). -/
def redIdentity : VredOp → Num × Word
  | .fadd => (.fin true 0 1, 0) | .fmax => (.inf true, 0) | .fmin => (.inf false, 0)
  | .max => (.nan, 0x8000000000000000) | .min => (.nan, 0x7FFFFFFFFFFFFFFF) | .and => (.nan, 0xFFFFFFFF)
  | _ => (.nan, 0)

/-- One element joins a reduction; the first of a minimum or maximum is the reduction (04, R116). -/
def redStep (op : VredOp) (old : Option (Num × Word)) (v : Quad) : Num × Word :=
  let x := ofF32 v
  let w := v.signExtend 64
  let r := old.getD (redIdentity op)
  match op with
  | .fmax | .fmin => if old.isNone then (x, 0) else (if op = .fmax then r.1.maxNum x else r.1.minNum x, 0)
  | .fadd => (r.1.add x, 0)
  | .add => (.nan, r.2 + w) | .max => (.nan, signedMax r.2 w) | .min => (.nan, signedMin r.2 w)
  | .and => (.nan, r.2 &&& v.setWidth 64) | .or => (.nan, r.2 ||| v.setWidth 64) | .xor => (.nan, r.2 ^^^ v.setWidth 64)
  | .count => (.nan, if v = 0 then r.2 else r.2 + 1)

/-- The scalar that a reduction leaves: of no active element, the identity (07, R217). -/
def redResult (op : VredOp) (old : Option (Num × Word)) : Word :=
  let r := old.getD (redIdentity op)
  match op with
  | .fadd | .fmax | .fmin => (toF32 r.1).setWidth 64
  | _ => r.2

/-- VRED: a VRUN whose e0 is reduced into sD; the register's write is pending until the reduction lands (03, R66; 07, R217). -/
def execVred (i : Issue) (op : VredOp) (d : Dst) (a : VrunArgs) (s : State) : Res :=
  .next (
    let c := i.cd.val
    s.issueOp i 3 [d] (a.params.map Dst.s) .vec (.vred i op d a) (fun s => s.vrunCheck c a) (fun s => s.vrunEmpty c a)
      (fun t => (t.joinQueue c a s.nextOp).pend c { dst := d, src := .vred, op := some s.nextOp })
      (fun s => plain (s.slabBytes c a.block 256)) (fun s => s.vrunVals c a))

/-! ## Element programs (07, sections 7.3 to 7.5, 7.9) -/

/-- One lane at work. -/
structure Lane where
  row  : Nat
  col  : Nat
  /-- position for the SR draw and the bitmap -/
  idx  : Nat
  act  : Bool
  e    : List Quad := List.replicate 16 0
  m    : List Bool := [false, false, false]
  ins  : List Quad := []
  outs : List (Option Quad) := [none, none]
  counts : Conv := {}
  fault : Option Int := none
  poison : Bool := false
deriving DecidableEq, Repr

/-- What a program reads besides its lane: parameters, rounding and the GATH table. -/
structure VEnv where
  params : List Nat
  rnd    : Rnd
  gath   : Int → Option (Quad × Bool)

def Lane.mask (l : Lane) (n : Nat) : Bool := if n = 0 then l.act else l.m.getD (n - 1) false
def Lane.setMask (l : Lane) (n : Nat) (v : Bool) : Lane := if n = 0 then l else { l with m := l.m.set (n - 1) v }
def Lane.setE (l : Lane) (n : Nat) (v : Quad) : Lane := { l with e := l.e.set n v }
def Lane.get (x : VEnv) (l : Lane) : EOp → Quad
  | .e r => l.e.getD r.val 0
  | .inp n => l.ins.getD n.val 0
  | .p n => BitVec.ofNat 32 (x.params.getD n.val 0)
  | .imm v => v

/-- A comparison of two signed words. -/
def icmpHolds (cc : ECc) (a b : Quad) : Bool :=
  match cc with
  | .eq => a == b | .ne => a != b | .lt => a.slt b | .le => a.sle b | .gt => b.slt a | .ge => b.sle a

/-- Two-operand arithmetic (07, Table 7-3). -/
def evalBin (op : EBin) (a b : Quad) : Quad :=
  let f := fun (g : Num → Num → Num) => toF32 (g (ofF32 a) (ofF32 b))
  match op with
  | .fadd => f Num.add | .fsub => f fun x y => x.add y.neg | .fmul => f Num.mul | .fdiv => f Num.div
  | .fmin => f Num.minNum | .fmax => f Num.maxNum
  | .iadd => a + b | .isub => a - b | .imul => a * b
  | .imin => if b.slt a then b else a | .imax => if a.slt b then b else a
  | .and => a &&& b | .or => a ||| b | .xor => a ^^^ b
  | .shl => a <<< (b.toNat % 32) | .shr => a >>> (b.toNat % 32) | .sra => a.sshiftRight (b.toNat % 32)

/-- Count a conversion on a lane that counts (07, R207, R208). -/
def Lane.count (l : Lane) (k : Conved) : Lane := if l.act then { l with counts := l.counts.plus k.under k.sat k.nan } else l

/-- One instruction on one lane whose predicate holds; row instructions are `rowStep`. -/
def laneStep (x : VEnv) (l : Lane) (op : EInstr) : Lane :=
  let g := l.get x
  match op with
  | .bin o d a b => l.setE d.val (evalBin o (g a) (g b))
  | .fma d a b c => l.setE d.val (toF32 (((ofF32 (g a)).mul (ofF32 (g b))).add (ofF32 (g c))))
  | .fabs d a => l.setE d.val (if (ofF32 (g a)).isNan then 0x7FC00000 else g a &&& 0x7FFFFFFF)
  | .fneg d a => l.setE d.val (if (ofF32 (g a)).isNan then 0x7FC00000 else g a ^^^ 0x80000000)
  | .fcmp cc m a b => l.setMask m.val (Num.cmp cc (ofF32 (g a)) (ofF32 (g b)))
  | .icmp cc m a b => l.setMask m.val (icmpHolds cc (g a) (g b))
  | .fsel d m a b => l.setE d.val (if l.mask m.val then g a else g b)
  | .cvt fmt d a =>
    let k := convert fmt x.rnd l.idx (ofF32 (g a))
    (l.count k).setE d.val (toF32 (decodeElem fmt k.code))
  | .cvtfi d a =>
    let k := toInt 32 true x.rnd l.idx (ofF32 (g a))
    (l.count k).setE d.val (BitVec.ofNat 32 k.code)
  | .cvtif d a =>
    let k := toFloat fp32 x.rnd l.idx false (Num.ofInt (signed 32 (g a).toNat))
    l.setE d.val (BitVec.ofNat 32 k.code)
  | .mand d a b => l.setMask d.val (l.mask a.val && l.mask b.val)
  | .mor d a b => l.setMask d.val (l.mask a.val || l.mask b.val)
  | .mnot d a => l.setMask d.val (!l.mask a.val)
  | .mov d a => l.setE d.val (g a)
  | .idxR d => l.setE d.val (BitVec.ofNat 32 l.row)
  | .idxC d => l.setE d.val (BitVec.ofNat 32 l.col)
  | .gath d a =>
    let i := signed 32 (g a).toNat
    match x.gath i with
    | some (v, q) => { l.setE d.val v with poison := l.poison || (q && l.act) }
    | none => if l.act && l.fault.isNone then { l with fault := some i } else l
  | .func f d a => l.setE d.val (toF32 (evalFun f (ofF32 (g a))))
  | .st o a => { l with outs := l.outs.set o.val (some (g a)) }
  | .rsum _ _ | .rmax _ _ | .rmin _ _ | .rarg _ _ => l

/-- The predicate of an instruction on a lane (07, R208). -/
def Lane.holds (l : Lane) : Option (Fin 4 × Bool) → Bool
  | none => true
  | some (m, v) => l.mask m.val == v

/-- The one value of a row instruction over the active lanes (07, R216). -/
def rowValue (x : VEnv) (ls : List Lane) (op : EInstr) : Option (Nat × Quad) :=
  let vals := fun (a : EOp) => (ls.filter (·.act)).map fun l => ofF32 (l.get x a)
  match op with
  | .rsum d a => some (d.val, toF32 (Num.sum (vals a)))
  | .rmax d a => some (d.val, toF32 (match vals a with | [] => .inf true | v :: t => t.foldl Num.maxNum v))
  | .rmin d a => some (d.val, toF32 (match vals a with | [] => .inf false | v :: t => t.foldl Num.minNum v))
  | .rarg d a =>
    let b := (ls.filter (·.act)).foldl (fun b l =>
      let v := ofF32 (l.get x a)
      match b with
      | none => some (l.col, v)
      | some (i, w) => if w.totalLt v then some (l.col, v) else some (i, w)) (none : Option (Nat × Num))
    some (d.val, match b with | some (i, _) => BitVec.ofNat 32 i | none => 0xFFFFFFFF)
  | _ => none

/-- One instruction on all lanes of a step. -/
def stepLanes (x : VEnv) (ls : List Lane) (st : EStep) : List Lane :=
  match rowValue x ls st.op with
  | some (d, v) => ls.map fun l => if l.holds st.pred then l.setE d v else l
  | none => ls.map fun l => if l.holds st.pred then laneStep x l st.op else l

/-- A whole program; one of no instructions stores in0 to out0 (07, R203). -/
def runProgram (x : VEnv) (prog : List EStep) (ls : List Lane) : List Lane :=
  if prog.isEmpty then ls.map fun l => { l with outs := [some (l.ins.getD 0 0), none] }
  else prog.foldl (stepLanes x) ls

/-! ## Stores (07, R197, R207, R208) -/

/-- Bits that a store puts into one byte of the slab: byte, mask, bits. -/
abbrev BitPut := Nat × Nat × Nat

/-- `b` bits at a bit offset; the last element of a tensor's row clears the bits above it in its byte (04, R97). -/
def bitPuts (off b v : Nat) (last : Bool) : List BitPut :=
  let n := (off % 8 + b + 7) / 8
  let m := if last then 2 ^ (8 * n) - 2 ^ (off % 8) else (2 ^ b - 1) * 2 ^ (off % 8)
  let x := v % 2 ^ b * 2 ^ (off % 8)
  (List.range n).map fun i => (off / 8 + i, m / 256 ^ i % 256, x / 256 ^ i % 256)

/-- Puts of neighbouring bytes become one run: first byte, masks and bits. -/
def putRunsOf : List BitPut → List (Nat × List (Nat × Nat))
  | [] => []
  | x :: t =>
    match putRunsOf t with
    | (a, (m, v) :: l) :: r =>
      if x.1 + 1 = a then (x.1, x.2 :: (m, v) :: l) :: r
      else if x.1 = a then (a, (x.2.1 ||| m, x.2.2 - (x.2.2 &&& m) + v) :: l) :: r
      else (x.1, [x.2]) :: (a, (m, v) :: l) :: r
    | r => (x.1, [x.2]) :: r

/-- Store puts, each run as one write; a byte that is written in part keeps its other bits, and its mark (08, R241). -/
def State.putPuts (s : State) (c : Nat) (l : List BitPut) : State :=
  (putRunsOf l).foldl (fun s r =>
    s.putSlab c r.1 (r.2.zipIdx.map fun (x, i) =>
      let old := s.slabByte c (r.1 + i)
      (BitVec.ofNat 8 (old.1.toNat - (old.1.toNat &&& x.1) + x.2), x.1 ≠ 255 && old.2))) s

/-- A lane that stores to output `o`. -/
def storing (o : Nat) (l : Lane) : Option Quad := if l.act then l.outs.getD o none else none

/-- What the lanes of a step store to one output, and what the conversions count. `rowOf` gives the row used for addresses (the packed row
for a packed output), `colOf` the column. A program of no instructions stores the register as it is (R203); an integer output with the int
bit set takes the register's I32, an INT32 output without conversion; every other output converts from FP32 (log 30). A block-scaled output stores each
block whole, with the pad elements that R99 and R105 give it (log 159). -/
def storePuts (r : Rnd) (t : Strm) (copy : Bool) (o w : Nat) (rowOf colOf : Lane → Nat) (ls : List Lane) : List BitPut × Conv :=
  let b := elemBits t.format
  let at' := fun (row col : Nat) => if t.kind = 6 then t.base * 8 + (128 * row + col) * b else strmBit t row col
  match fmtOf t.format with
  | none => ([], {})
  | some (.float _) | some (.int _ _) =>
    ls.foldl (fun (st : List BitPut × Conv) l =>
      match storing o l with
      | none => st
      | some v =>
        let k : Conved :=
          if copy || (t.int && t.format == 0x0D) then { code := v.toNat }
          else if t.int && isIntFmt t.format then convert t.format r l.idx (Num.ofInt (signed 32 v.toNat))
          else convert t.format r l.idx (ofF32 v)
        (st.1 ++ bitPuts (at' (rowOf l) (colOf l)) b k.code (b % 8 != 0 && colOf l + 1 == w), st.2.plus k.under k.sat k.nan)) ([], {})
  | some f =>
    let bs := blockSize t.format
    let key := fun l => strmBlk t w (rowOf l) (colOf l)
    let keys := (ls.filter fun l => (storing o l).isSome).map key |>.eraseDups
    keys.foldl (fun (st : List BitPut × Conv) k =>
      let mine := ls.filter fun l => key l == k
      match mine with
      | [] => st
      | l0 :: _ =>
        let slots : List Slot4 := (List.range bs).map fun i =>
          (mine.find? fun l => colOf l % bs == i).bind fun l => (storing o l).map fun v => (ofF32 v, l.idx)
        let blk := match f with
          | .mx e emax => encodeMx e emax r slots
          | .kx e n d => encodeKx e n d t.coarse t.trump r slots
          | _ => {}
        let c0 := colOf l0 / bs * bs
        let elems := (List.range bs).flatMap fun i => bitPuts (at' (rowOf l0) (c0 + i)) b (blk.elems.getD i 0) false
        let scale := (t.scales + k, 255, blk.scale % 256)
        let trump := if t.trump then (leBytes 4 blk.trump).zipIdx.map fun (x, i) => (t.trumps + 4 * k + i, 255, x.toNat) else []
        (st.1 ++ elems ++ [scale] ++ trump, st.2.plus blk.under blk.sat blk.nan)) ([], {})

/-- An element lies in one of the regions that a VRUN has stored. -/
def coversCell (l : List (Nat × Nat × Nat × Nat)) (r n : Nat) : Bool :=
  l.any fun x => x.1 ≤ r && r < x.1 + x.2.1 && x.2.2.1 ≤ n && n < x.2.2.1 + x.2.2.2

/-- The bits of a zero map for the blocks of the region stored last, from out0 as the VRUN has stored it so far; elements outside what it has
stored count as zero (07, R218). -/
def State.zmapUpdate (s : State) (c : Nat) (t : Strm) (w : Nat) (covers : List (Nat × Nat × Nat × Nat)) : State :=
  match covers with
  | [] => s
  | (row0, rows, col0, cols) :: _ =>
    if !t.zmap || t.kind = 0 then s
    else
      let words := ((w + 31) / 32 + 63) / 64
      (List.range ((row0 + rows + 31) / 32 - row0 / 32)).foldl (fun s i =>
        (List.range ((col0 + cols + 31) / 32 - col0 / 32)).foldl (fun s j =>
          let q := row0 / 32 + i
          let k := col0 / 32 + j
          let zero := (List.range 32).all fun a => (List.range 32).all fun b =>
            !coversCell covers (32 * q + a) (32 * k + b)
              || (s.loadElem c { t with kind := 2, int := false } w (32 * q + a) (32 * k + b)).1 &&& 0x7FFFFFFF == 0
          let off := t.zbase + (q * words + k / 64) * 8 + k % 64 / 8
          s.putPuts c [(off, 2 ^ (k % 8), if zero then 2 ^ (k % 8) else 0)]) s) s

/-- The zero-map bits of the regions that a VRUN has stored since `was`: none while it has had no active element, and with the first one those
of the regions before it too (07, R218; edges of 7.5). -/
def State.zmapStep (s : State) (c : Nat) (t : Strm) (w : Nat) (was now : Bool) : List (Nat × Nat × Nat × Nat) → State
  | [] => s
  | x :: l =>
    if !now then s
    else (if was then s else State.zmapStep s c t w was now l).zmapUpdate c t w (x :: l)

/-! ## Running a VRUN -/

/-- The reduction of a VRED, if the operation is one. -/
def vredOf (o : Op) : Option VredOp := match o.instr with | .vred _ op _ _ => some op | _ => none

/-- Whether an element of the VRUN is active, and the mark of the bit read (07, R207). -/
def State.maskOf (s : State) (c : Nat) (b : VBlock) (w row col : Nat) : Bool × Bool :=
  match b.maskKind with
  | 0 => (true, false)
  | 1 => let x := s.slabByte c (b.maskBase + (row * w + col) / 8); (bit x.1.toNat ((row * w + col) % 8), x.2)
  | _ => (decide ((col : Int) ≤ row + b.causal), false)

/-- Elements of row and column vectors that a VRUN has read, key 4 × index + stream (07, R210). -/
abbrev VecCache := Tbl (Quad × Bool)

/-- The elements of row and column vectors that some cells need, each read once per VRUN (07, R210). Table 7-2 gives a vector one address per
column or row and no block number: a vector in a block-scaled format takes the scales of its first row or column (DESIGN CHOICE, log 169). -/
def State.cacheVecs (s : State) (c : Nat) (b : VBlock) (w : Nat) (cells : List (Nat × Nat)) (v : VecCache) : VecCache :=
  b.ins.zipIdx.foldl (fun v (t, n) =>
    if t.kind ≠ 3 && t.kind ≠ 4 then v
    else (cells.map fun x => if t.kind = 3 then x.2 else x.1).eraseDups.foldl (fun v i =>
      if v.any (·.1 == 4 * i + n) then v
      else Tbl.set (0, false) v (4 * i + n) (s.loadElem c t w (if t.kind = 3 then 0 else i) (if t.kind = 3 then i else 0))) v) v

/-- Inputs of a lane: in0 may be the tile queue's value; row and column vectors come as they were read first; a stream of kind none gives a
free value (log 3). -/
def State.laneIns (s : State) (c : Nat) (b : VBlock) (block : List Byte) (w row col : Nat) (tile : Option Quad) (v : VecCache) : List Quad × Bool :=
  b.ins.zipIdx.foldl (fun (st : List Quad × Bool) (t, n) =>
    let x : Quad × Bool := match t.kind with
      | 0 => (Config.absentInput block n row col, false)
      | 1 => (tile.getD 0, false)
      | 3 => Tbl.get (0, false) v (4 * col + n)
      | 4 => Tbl.get (0, false) v (4 * row + n)
      | _ => s.loadElem c t w row col
    (st.1 ++ [x.1], st.2 || x.2)) ([], false)

def State.laneAt (s : State) (c : Nat) (b : VBlock) (block : List Byte) (w row col : Nat) (tile : Option Quad) (v : VecCache) : Lane :=
  let (ins, q) := s.laneIns c b block w row col tile v
  let act := s.maskOf c b w row col
  { row := row, col := col, idx := row * w + col, act := act.1, ins := ins, poison := (q && act.1) || act.2 }

/-- What a VRUN has left to store, counted and reduced so far. -/
structure VecAcc where
  puts   : List BitPut := []
  counts : Conv := {}
  red    : Option (Num × Word) := none
  /-- an element has been active -/
  active : Bool := false
deriving DecidableEq, Repr

/-- The program on the lanes of a step (07, R200): inputs come from `s`. -/
def State.evalStep (s : State) (o : Op) (b : VBlock) (prog : List EStep) (lanes : List Lane) : List Lane :=
  let n := elemBits b.tblFmt / 8
  let gath : Int → Option (Quad × Bool) := fun i =>
    if i < 0 || (b.tblLen : Int) ≤ i then none
    else
      let off := b.tblBase + i.toNat * n
      some (toF32 (decodeElem b.tblFmt (s.slabField o.cd off n)), anyPoison (s.slabBytes o.cd off n))
  runProgram { params := o.vals.drop 1, rnd := b.rnd, gath := gath } prog lanes

/-- A step that halts the seat: a GATH index out of range, or poisoned data (07, R209; 08, Table 8-7). -/
def State.stepFault (s : State) (o : Op) (ls : List Lane) : Option State :=
  match ls.findSome? (·.fault) with
  | some i => some ((s.dropOps [o.id]).windowFault o.cd (unsigned 64 i) 0 0x104)
  | none => if ls.any (·.poison) then some ((s.dropOps [o.id]).poisonHalt o.cd (slabAddr o.cd (field o.data 0x44 4)) 3) else none

/-- What a step of lanes adds: stores, counts, and the reduction of a VRED. -/
def stepAcc (o : Op) (b : VBlock) (copy : Bool) (w : Nat) (rowOf colOf : Strm → Lane → Nat) (ls : List Lane) (acc : VecAcc) : VecAcc :=
  let k := ls.foldl (fun k l => k.plus l.counts.under l.counts.sat l.counts.nan) acc.counts
  let put := fun (st : VecAcc) (n : Nat) =>
    let t := b.outs.getD n (strmAt [] 0)
    if t.kind = 0 then st
    else
      let x := storePuts b.rnd t copy n (if t.kind = 6 then 128 else w) (rowOf t) (colOf t) ls
      { st with puts := st.puts ++ x.1, counts := st.counts.plus x.2.under x.2.sat x.2.nan }
  let red := match vredOf o with
    | some op => (ls.filter (·.act)).foldl (fun r l => some (redStep op r (l.e.getD 0 0))) acc.red
    | none => acc.red
  put (put { acc with counts := k, red := red, active := acc.active || ls.any (·.act) } 0) 1

/-- What steps have left to store is stored, and counted beyond `old`. -/
def State.storeAcc (s : State) (c : Nat) (b : VBlock) (acc : VecAcc) (k : Conv) : State :=
  (s.putPuts c acc.puts).countConv c b.set k.under k.sat k.nan

/-- The rows of a slab-mode VRUN from `row` on: all inputs of a row are read before its outputs are written (07, R191, R200). Answers the state and
what was counted and reduced, or the halt. -/
def State.slabSteps (s : State) (o : Op) (b : VBlock) (prog : List EStep) (vl : Nat) (v : VecCache) :
    Nat → Nat → VecAcc → State × Option VecAcc
  | 0, _, acc => (s, some acc)
  | n + 1, row, acc =>
    let cells := (List.range vl).map fun col => (row, col)
    let v := s.cacheVecs o.cd b vl cells v
    let ls := s.evalStep o b prog (cells.map fun x => s.laneAt o.cd b o.data vl x.1 x.2 none v)
    match s.stepFault o ls with
    | some t => (t, none)
    | none =>
      let x := stepAcc o b prog.isEmpty vl (fun _ l => l.row) (fun _ l => l.col) ls { red := acc.red, active := acc.active }
      State.slabSteps (s.storeAcc o.cd b x x.counts) o b prog vl v n (row + 1)
        { red := x.red, active := x.active, counts := acc.counts.plus x.counts.under x.counts.sat x.counts.nan }

/-- The operation's own end: the record, the VRED's value, its @done signals (04, R113; 07, R217). -/
def State.endVec (s : State) (o : Op) (b : VBlock) (k : Conv) (red : Option (Num × Word)) : State :=
  let s := s.addRecord o.cd b.record k
  let s := match vredOf o with
    | some op =>
      let fill := fun (p : Pend) => if p.op = some o.id then { p with value := some (redResult op red) } else p
      s.modSeq o.cd fun q => { q with pend := q.pend.map fill }
    | none => s
  s.retire o

/-- A slab-mode VRUN or VRED runs to its end; one with nothing to do writes nothing and reduces to the identity (07, R194). -/
def State.runSlabVec (s : State) (o : Op) : State :=
  let b := vblock o.data
  let vl := o.vals.headD 0
  if o.fin then s.endVec o { b with record := none } {} none
  else
    let prog := (s.seat o.seat).eprogs.getD b.program []
    match s.slabSteps o b prog vl [] b.rows 0 {} with
    | (t, none) => t
    | (t, some acc) =>
      (t.zmapStep o.cd (b.outs.getD 0 (strmAt [] 0)) vl false acc.active [(0, b.rows, 0, vl)]).endVec o b acc.counts acc.red

/-- Cells of one step of a tile-queue entry: 8 of its rows (07, R191). -/
def TEntry.cells (e : TEntry) (st : Nat) : List (Nat × Nat) :=
  (List.range 8).flatMap fun a => (List.range e.cols).filterMap fun i => if 8 * st + a < e.rows then some (8 * st + a, i) else none

/-- The 16 steps of the `k`-th entry, all inputs from `s` (07, R200). Answers what is left to store, or the halt. -/
def State.tileSteps (s : State) (o : Op) (b : VBlock) (prog : List EStep) (e : TEntry) (k : Nat) (v : VecCache) :
    Nat → Nat → VecAcc → State ⊕ VecAcc
  | 0, _, acc => .inr acc
  | m + 1, st, acc =>
    let lanes := (e.cells st).map fun x =>
      s.laneAt o.cd b o.data e.n (e.row0 + x.1) (e.col0 + x.2) (some (Tbl.get 0 e.data (128 * x.1 + x.2))) v
    let ls := s.evalStep o b prog lanes
    match s.stepFault o ls with
    | some t => .inl t
    | none =>
      State.tileSteps s o b prog e k v m (st + 1) (stepAcc o b prog.isEmpty e.n
        (fun t l => if t.kind = 6 then packedRow k (l.row - e.row0) else l.row)
        (fun t l => if t.kind = 6 then l.col - e.col0 else l.col) ls acc)

/-- The VRUN at the head of a CD's queue, and the entry that it takes next: the oldest of its paired MMA, once available (07, R212, R214). -/
def State.nextEntry (s : State) (c : Nat) : Option (Op × TEntry) :=
  let q := Tbl.get {} s.arr.queues c
  match s.headOp c .vec, q.vruns, q.mmas, q.entries with
  | some o, v :: _, m :: _, e :: _ => if o.id ≠ v || e.op ≠ m || !e.avail then none else some (o, e)
  | _, _, _, _ => none

/-- The first slab byte range of an entry that leaves the populated slab (07, R198). -/
def VBlock.offEntry (b : VBlock) (e : TEntry) (k : Nat) : Option (Nat × Nat) := (e.parts k).findSome? fun x => offPart (b.spans e.n x)

/-- TILE_ENTRY_CONSUME: the VRUN at the head works through the oldest available entry, in slots that it owns, writes the entry's outputs
after its last step, and frees it (07, R199, R213, R214). -/
def execTileEntryConsume (cd : Cd) (s : State) : Res :=
  .next (
    let c := cd.val
    let q := Tbl.get {} s.arr.queues c
    match s.nextEntry c with
    | none => s
    | some (o, e) =>
      let b := vblock o.data
      let prog := (s.seat o.seat).eprogs.getD b.program []
      match b.offEntry e q.taken with
      | some x => ((s.dropOps [o.id]).slabFault c x.1 x.2).modQueue c fun q => q.leave o.id
      | none =>
        if !s.vecOpen c b prog e.n (e.parts q.taken) then s
        else
          let v := s.cacheVecs c b e.n ((List.range 16).flatMap fun st => (e.cells st).map fun x => (e.row0 + x.1, e.col0 + x.2)) q.vecs
          match s.tileSteps o b prog e q.taken v 16 0 { red := q.red, active := q.active } with
          | .inl t => t.modQueue c fun q => q.leave o.id
          | .inr acc =>
            let covers := (e.row0, e.rows, e.col0, e.cols) :: q.covers
            let s := (s.storeAcc c b acc acc.counts).zmapStep c (b.outs.getD 0 (strmAt [] 0)) e.n q.active acc.active covers
            s.modQueue c fun q => { q with
              entries := q.entries.tail, taken := q.taken + 1, red := acc.red, vecs := v, covers := covers, active := acc.active
              counts := q.counts.plus acc.counts.under acc.counts.sat acc.counts.nan })

/-- The slice has delivered every tile of the MMA that is at the head of its queue (07, R212). -/
def State.sliceDelivered (s : State) (c id : Nat) : Bool :=
  match s.arr.prods.find? (·.id == id) with
  | none => true
  | some o => o.started && decide ((o.prod.tilesFor c).length ≤ (Tbl.get ({} : SliceProg) o.prog c).tile)

/-- The vector engine owns the slots of a VRUN's counter record (07, R199; 04, R113). -/
def State.recordOpen (s : State) (o : Op) : Bool := s.partsOpen .vec o.cd (recordPart (vblock o.data).record)

/-- A tile-mode VRUN ends after the last entry of its paired MMA on its slice (07, R212). -/
def State.endTileVec (s : State) (o : Op) : State :=
  let q := Tbl.get {} s.arr.queues o.cd
  match q.vruns, q.mmas with
  | v :: vs, m :: ms =>
    if o.fin then s.runSlabVec o
    else if v ≠ o.id || !s.sliceDelivered o.cd m || q.entries.any (·.op == m) || !s.recordOpen o then s
    else
      let s := s.modQueue o.cd fun q => { q.fresh with vruns := vs, mmas := ms }
      s.endVec o (vblock o.data) q.counts q.red
  | _, _ => if o.fin then s.runSlabVec o else s

/-- The vector engine lacks a slot for the VRUN at the head of its queue (03, R79; 07, R199). -/
def State.vecStuck (s : State) (c : Nat) (o : Op) : Bool :=
  let b := vblock o.data
  let prog := (s.seat o.seat).eprogs.getD b.program []
  let q := Tbl.get {} s.arr.queues c
  if b.tile then
    ((s.nextEntry c).any fun x => !s.vecOpen c b prog x.2.n (x.2.parts q.taken))
      || (q.vruns.head? == some o.id && q.mmas.head?.any (fun m => s.sliceDelivered c m && !q.entries.any (·.op == m)) && !s.recordOpen o)
  else !s.vecOpen c b prog (o.vals.headD 0) (b.slabRows (o.vals.headD 0)) || !s.recordOpen o

/-- A VRUN or VRED at the head of its queue comes to its end. -/
def State.endVector (s : State) (o : Op) : State :=
  if (vblock o.data).tile then s.endTileVec o else s.runSlabVec o

end Sys2Proof.Machine
end

