-- ==== Sys2Proof/Machine/Dma.lean ====
section
/-! DEFINITION. The transpose-and-stride unit, the DMA engines and their bursts (08, sections 8.3, 8.7, 8.10 and 8.11). -/

namespace Sys2Proof.Machine

/-! ## XPS (08, Table 8-3) -/

/-- A decoded XPS descriptor. -/
structure XpsDesc where
  src : Nat
  dst : Nat
  cd  : Nat
  size : Nat
  transpose : Bool
  rows : Nat
  cols : Nat
  srcRow  : Int
  srcElem : Int
  dstRow  : Int
deriving DecidableEq, Repr

def xpsDesc (d : List Byte) : XpsDesc :=
  let f := field d 8 4
  { src := field d 0 4, dst := field d 4 4, cd := f % 8, size := 2 ^ bits f 4 2, transpose := bit f 8
    rows := field d 0xC 4, cols := field d 0x10 4, srcRow := signed 32 (field d 0x14 4)
    srcElem := signed 32 (field d 0x18 4), dstRow := signed 32 (field d 0x1C 4) }

/-- Lowest offset and one past the highest of a strided extent (08, R247): two strides with their counts, and the length of
a run. -/
def extent (base : Nat) (n1 : Nat) (s1 : Int) (n2 : Nat) (s2 : Int) (len : Nat) : Int × Int :=
  let a := (n1 - 1 : Nat) * s1
  let b := (n2 - 1 : Nat) * s2
  (base + min 0 a + min 0 b, base + max 0 a + max 0 b + len)

def xpsSrc (x : XpsDesc) : Int × Int := extent x.src x.rows x.srcRow x.cols x.srcElem x.size
def xpsDst (x : XpsDesc) : Int × Int :=
  if x.transpose then extent x.dst x.cols x.dstRow x.rows x.size x.size else extent x.dst x.rows x.dstRow x.cols x.size x.size

/-- An extent leaves the populated slab. -/
def offSlab (e : Int × Int) : Bool := decide (e.1 < 0) || decide ((slabSize : Int) < e.2)
def meets (a b : Int × Int) : Bool := decide (a.1 < b.2) && decide (b.1 < a.2)

/-- Checks of an XPS at issue (08, R225, R226). -/
def State.xpsCheck (s : State) (c off : Nat) : Option State :=
  let raw := s.slabBytes c off 64
  let x := xpsDesc (plain raw)
  let bad := s.issueFault c 6
  let z := x.rows = 0 || x.cols = 0
  firstFault [
    (off % 64 != 0, bad),
    (decide (slabSize < off + 64), s.slabFault c off 64),
    (anyPoison raw, s.poisonHalt c (slabAddr c off) 0xA),
    (!z && (decide (1048576 < x.rows) || decide (1048576 < x.cols)), bad),
    (!z && !(x.cd == c || neighbours c x.cd), bad),
    (!z && (x.src % x.size != 0 || x.dst % x.size != 0 || x.srcRow % x.size != 0 || x.srcElem % x.size != 0 || x.dstRow % x.size != 0), bad),
    (!z && offSlab (xpsSrc x), s.slabFault c x.src 0),
    (!z && offSlab (xpsDst x), s.slabFault c x.dst 0),
    (!z && x.cd == c && meets (xpsSrc x) (xpsDst x), bad)]

/-- XPS (08, R225). -/
def execXps (i : Issue) (desc : Nat) (s : State) : Res :=
  .next (
    let c := i.cd.val
    s.issueOp i 6 [] [] .xps (.xps i desc) (fun s => s.xpsCheck c desc)
      (fun s => let x := xpsDesc (plain (s.slabBytes c desc 64)); x.rows = 0 || x.cols = 0) id
      (fun s => plain (s.slabBytes c desc 64)))

/-- Source offset of an element of an XPS (08, R225). -/
def XpsDesc.srcAt (x : XpsDesc) (r k : Nat) : Nat := (x.src + r * x.srcRow + k * x.srcElem).toNat
/-- Destination offset of an element. -/
def XpsDesc.dstAt (x : XpsDesc) (r k : Nat) : Nat :=
  if x.transpose then (x.dst + k * x.dstRow + (r * x.size : Nat)).toNat else (x.dst + r * x.dstRow + (k * x.size : Nat)).toNat
/-- Its elements in the order of the destination's rows. -/
def XpsDesc.cells (x : XpsDesc) : List (Nat × Nat) :=
  if x.transpose then (List.range x.cols).flatMap fun k => (List.range x.rows).map fun r => (r, k)
  else (List.range x.rows).flatMap fun r => (List.range x.cols).map fun k => (r, k)

/-- The transpose-and-stride unit owns slots on the slab ports of both sides and, for a neighbour's slab, on the WDL edge (08, R227). -/
def State.xpsOpen (s : State) (c : Nat) (x : XpsDesc) : Bool :=
  s.routeOpen .xps false c x.cd
    && x.cells.all fun e => s.memOpen .xps (slabAddr c (x.srcAt e.1 e.2)) x.size && s.memOpen .xps (slabAddr x.cd (x.dstAt e.1 e.2)) x.size

/-- An XPS runs to its end and its @done signals act (08, R227): each run of the destination is one write, and poison marks move with their
bytes (08, R225, R241). -/
def State.endXps (s : State) (o : Op) : State :=
  let x := xpsDesc o.data
  if o.fin then s.retire o
  else (s.putRuns (x.cells.map fun e => (x.cd, x.dstAt e.1 e.2, s.slabBytes o.cd (x.srcAt e.1 e.2) x.size))).retire o

/-! ## DMA (08, Table 8-9a) -/

def dmaDesc (d : List Byte) : DmaDesc :=
  let f := field d 0x1C 4
  { src := field d 0 8, dst := field d 8 8, len := field d 0x10 4, count1 := field d 0x14 4, count2 := field d 0x18 4
    op := f % 4, poisonHalt := bit f 2, srcStride1 := signed 64 (field d 0x20 8), dstStride1 := signed 64 (field d 0x28 8)
    srcStride2 := signed 64 (field d 0x30 8), dstStride2 := signed 64 (field d 0x38 8) }

def DmaDesc.zero (d : DmaDesc) : Bool := d.len == 0 || d.count1 == 0 || d.count2 == 0
def DmaDesc.srcExt (d : DmaDesc) : Int × Int := extent d.src d.count1 d.srcStride1 d.count2 d.srcStride2 d.len
def DmaDesc.dstExt (d : DmaDesc) : Int × Int := extent d.dst d.count1 d.dstStride1 d.count2 d.dstStride2 d.len

/-- The device address of an extent's first byte, and its window's k bit, or none for a window fault (08, R247). -/
def transExt (e : Entry) (x : Int × Int) (k : Acc) : Option (Nat × Bool) :=
  if x.1 < 0 then none else translate e x.1.toNat (x.2 - x.1).toNat k

/-- A window fault over an extent. -/
def State.extFault (s : State) (c : Nat) (x : Int × Int) : State :=
  s.windowFault c (unsigned 64 x.1) (unsigned 64 (x.2 - x.1)) (windowOf (unsigned 64 x.1))

/-- Checks of a DMA at issue (08, R246 to R248). -/
def State.dmaCheck (s : State) (c eng off : Nat) : Option State :=
  let raw := s.slabBytes c off 64
  let d := dmaDesc (plain raw)
  let e := s.playEntry
  let bad := s.issueFault c 6
  let ts := if d.op = 1 then none else transExt e d.srcExt .r
  let td := transExt e d.dstExt .w
  let z := d.zero
  let copy := d.op == 0
  let far := fun (t : Option (Nat × Bool)) (p : Nat → Bool) => t.any fun x => p x.1
  firstFault [
    (off % 64 != 0, bad),
    (decide (slabSize < off + 64), s.slabFault c off 64),
    (anyPoison raw, s.poisonHalt c (slabAddr c off) (5 + eng)),
    (!z && decide (1 < d.op), bad),
    (!z && copy && ts.isNone, s.extFault c d.srcExt),
    (!z && td.isNone, s.extFault c d.dstExt),
    (!z && copy && (match ts, td with
      | some a, some b => decide (a.1 < b.1 + (d.dstExt.2 - d.dstExt.1).toNat) && decide (b.1 < a.1 + (d.srcExt.2 - d.srcExt.1).toNat)
      | _, _ => false), bad),
    (!z && copy && ((far ts isRemote && (far td isRemote || far td isHost)) || (far ts isHost && far td isRemote)), bad)]

/-- What the engine keeps of the checked descriptor: the device addresses of src and dst, their key slots, and how far it has
come: plane, run and offset of the next piece. -/
def State.dmaVals (s : State) (c off : Nat) : List Nat :=
  let d := dmaDesc (plain (s.slabBytes c off 64))
  let e := s.playEntry
  let at' := fun (base : Nat) (x : Int × Int) (k : Acc) =>
    match transExt e x k with
    | some (dev, w) => (((dev : Int) + (base - x.1)).toNat, slotOf e w)
    | none => (0, 0)
  let a := at' d.src d.srcExt .r
  let b := at' d.dst d.dstExt .w
  [a.1, b.1, a.2, b.2, 0, 0, 0]

/-- DMA (08, R246). -/
def execDma (i : Issue) (engine : Fin 4) (desc : Nat) (s : State) : Res :=
  .next (
    let c := i.cd.val
    s.issueOp i 6 [] [] (.dma engine.val) (.dma i engine desc) (fun s => s.dmaCheck c engine.val desc)
      (fun s => (dmaDesc (plain (s.slabBytes c desc 64))).zero) id (fun s => plain (s.slabBytes c desc 64))
      (fun s => s.dmaVals c desc))

/-! ## Bursts (08, R236, R249 to R251) -/

/-- Unit of a burst's master. -/
def State.burstUnit (s : State) (b : Burst) : Option OpUnit := (s.opById b.op).map (·.unit)

/-- A burst that waits in a lane with another leaves after it: those before it in the list came first (08, R237). -/
def State.laneFirst (s : State) (b : Burst) : Bool :=
  b.lane.isNone
    || (s.memory.bursts.find? fun x => x.stage == 1 && x.lane == b.lane && s.burstUnit x == s.burstUnit b).any (·.id == b.id)

/-- The lane at the end of a hop has room for a burst; the target's buffer at the last hop's end takes it (08, R237). -/
def State.laneRoom (s : State) (b : Burst) : Bool :=
  match b.hops with
  | h :: _ :: _ =>
    let held := (s.memory.bursts.filter fun x => x.stage == 1 && x.lane == some h && s.burstUnit x == s.burstUnit b).map (·.len)
    decide (held.foldl (· + ·) 0 + b.len ≤ 8192)
  | _ => true

/-- The burst can cross the next link of its route: it is the first of its lane, its master owns a slot on the link, and the lane at its
end has room (03, R79; 08, R237). -/
def State.linkOpen (s : State) (b : Burst) : Bool :=
  match s.burstUnit b, b.hops with
  | some u, h :: _ => s.hopOpen u h && s.laneFirst b && s.laneRoom b
  | _, _ => false

/-- The next piece of a DMA: source and destination device address and length; none when all have started (08, R249). -/
def nextPiece (d : DmaDesc) (vals : List Nat) : Option (Nat × Nat × Nat) :=
  let v := fun i => vals.getD i 0
  if d.count2 ≤ v 4 then none
  else
    let s := ((v 0 : Int) + v 4 * d.srcStride2 + v 5 * d.srcStride1 + v 6).toNat
    let t := ((v 1 : Int) + v 4 * d.dstStride2 + v 5 * d.dstStride1 + v 6).toNat
    let n := min (min (d.len - v 6) 4096) (4096 - t % 4096)
    some (s, t, if d.op = 1 then n else min n (4096 - s % 4096))

/-- The engine's place after a piece of `n` bytes. -/
def afterPiece (d : DmaDesc) (vals : List Nat) (n : Nat) : List Nat :=
  let v := fun i => vals.getD i 0
  let (i2, i1, off) :=
    if v 6 + n < d.len then (v 4, v 5, v 6 + n)
    else if v 5 + 1 < d.count1 then (v 4, v 5 + 1, 0)
    else (v 4 + 1, 0, 0)
  vals.take 4 ++ [i2, i1, off]

/-- The repeating 8-byte pattern of a fill, from the run's first byte (08, Table 8-9a). -/
def fillBytes (pattern off n : Nat) : List PByte :=
  (List.range n).map fun i => (BitVec.ofNat 8 (pattern / 256 ^ ((off + i) % 8)), false)

/-- Host bus address of a route 0x01 device address, under the owner's HIF_HOST_UPPER (02, R24). -/
def State.hostAddr (s : State) (f dev : Nat) : Nat := (s.fn f).hostUpper.toNat * 2 ^ 48 + dev % 2 ^ 48

/-- Position that a remote device address names (08, R245). -/
def positionOf (dev : Nat) : Nat := routeOf dev - 0x10

/-- A request packet of the seat `n` to a remote device address; `ext` is a WRITE's poison mask (11, Table 11-5). -/
def State.remoteReq (s : State) (n : Nat) (op : Byte) (tag : Half) (dev ext : Nat) (data : List Byte) : Packet :=
  { op := op, tag := tag, tenant := (s.seat n).entry.tenant, dstPos := positionOf dev, incarnation := (s.seat n).inc
    arg := BitVec.ofNat 64 (dev % 2 ^ 48), ext := BitVec.ofNat 64 ext, data := data }

/-- A poisoned burst under poison_halt: the seat halts before it is written, and the operation goes no further (08, Table 8-7). -/
def State.dmaPoison (s : State) (o : Op) (dev : Nat) : State :=
  let s := { s with
    ops := s.ops.filter (·.id ≠ o.id)
    memory := { s.memory with bursts := s.memory.bursts.filter (·.op ≠ o.id) } }
  s.poisonHalt o.cd dev (ownerOf o.unit)

/-- DMA_BURST_START: the engine starts its next burst in a DMA-queue slot that it owns, once it owns slots where a local source lies (08, R250;
03, R79). Data from a local source is
read here; host and remote sources are asked for it. -/
def execDmaBurstStart (cd : Cd) (engine : Fin 4) (s : State) : Res :=
  .next (
    let c := cd.val
    match s.headOp c (.dma engine.val) with
    | none => s
    | some o =>
      let d := dmaDesc o.data
      if o.fin || !s.ownsQueue c o.unit then s
      else match nextPiece d o.vals with
        | none => s
        | some (a, b, n) =>
          if d.op ≠ 1 && routeOf a == 0 && !s.memOpen o.unit a n then s else
          let id := s.nextOp
          let s := { s with nextOp := id + 1 }
          let s := s.modOp o.id fun x => { x with vals := afterPiece d o.vals n }
          let slot := o.vals.getD 2 0
          let base : Burst := { id := id, op := o.id, src := a, dst := b, len := n, srcSlot := slot, dstSlot := o.vals.getD 3 0 }
          let add := fun (s : State) (k : Burst) => { s with memory := { s.memory with bursts := s.memory.bursts ++ [k] } }
          let ends := if d.op = 1 then (c, if isRemote b then edgeOf c else dieOf s.memory.bandMode b) else endDies s.memory.bandMode a b
          let hops := hopsOf (isRemote b || (d.op ≠ 1 && isRemote a)) ends.1 ends.2
          if d.op = 1 then add s { base with data := fillBytes d.src (o.vals.getD 6 0) n, stage := if hops.isEmpty then 2 else 1, hops := hops }
          else if routeOf a = 0 then
            let bs := s.readSlot slot a n
            if d.poisonHalt && anyPoison bs then s.dmaPoison o a
            else add s { base with data := bs, stage := if hops.isEmpty then 2 else 1, hops := hops }
          else if isHost a then
            let f := (s.seat o.seat).entry.owner
            (add s { base with stage := 3, hops := hops }).emit (.hostRead f (burstTag id).toNat (s.hostAddr f a) n)
          else (add s { base with stage := 3, hops := hops }).sendPacket { s.remoteReq o.seat 0x03 (burstTag id) a 0 [] with reqLen := n } (ends.1 == 9))

def State.modBurst (s : State) (id : Nat) (f : Burst → Burst) : State :=
  { s with memory := { s.memory with bursts := s.memory.bursts.map fun b => if b.id = id then f b else b } }

/-- A burst past its next hop: in the lane at the hop's end, or at its target. -/
def Burst.crossed (b : Burst) : Burst :=
  { b with hops := b.hops.tail, stage := if b.hops.tail.isEmpty then 2 else 1, lane := if b.hops.tail.isEmpty then none else b.hops.head? }

/-- STAGING_FORWARD: a staged burst crosses the next link of its route, and enters its lane, or the target's buffer, behind those that came
before (08, R237). -/
def execStagingForward (burst : Nat) (s : State) : Res :=
  .next (match s.memory.bursts.find? (·.id == burst) with
    | none => s
    | some b =>
      if b.stage ≠ 1 || !s.linkOpen b then s
      else { s with memory := { s.memory with bursts := s.memory.bursts.filter (·.id ≠ burst) ++ [b.crossed] } })

/-- The last burst of an operation has committed: nothing is left to start or to commit (08, R250). -/
def State.settleDma (s : State) (id : Nat) : State :=
  match s.opById id with
  | none => s
  | some o =>
    if (nextPiece (dmaDesc o.data) o.vals).isNone && !s.memory.bursts.any (·.op == id) then s.modOp id fun x => { x with fin := true } else s

def State.dropBurst (s : State) (id : Nat) : State :=
  { s with memory := { s.memory with bursts := s.memory.bursts.filter (·.id ≠ id) } }

/-- An earlier burst of the same operation has not committed (08, R252). -/
def State.burstBehind (s : State) (b : Burst) : Bool := s.memory.bursts.any fun x => x.op == b.op && decide (x.id < b.id)

/-- A DMA's burst commits at its target: memory is written, a host write leaves the port, a remote write waits for its WRITE_ACK (08, R250,
R251). -/
def State.commitDma (s : State) (o : Op) (b : Burst) : State :=
  if routeOf b.dst = 0 then ((s.writeSlot b.dstSlot b.dst b.data).dropBurst b.id).settleDma b.op
  else if isHost b.dst then
    let f := (s.seat o.seat).entry.owner
    ((s.emit (.hostWrite f (s.hostAddr f b.dst) (plain b.data) (anyPoison b.data))).dropBurst b.id).settleDma b.op
  else (s.modBurst b.id fun b => { b with stage := 3 }).sendPacket
    (s.remoteReq o.seat 0x01 (burstTag b.id) b.dst (poisonMask b.data) (plain b.data))
    (if isRemote b.src || (dmaDesc o.data).op == 1 then eastOf o.cd else (endDies s.memory.bandMode b.src b.dst).2 == 9)

/-- Data that returns from the host or from a remote package enters its burst (08, R250, R252): a burst that a reset has
discarded is gone, and its data is discarded on arrival. -/
def State.burstData (s : State) (tag : Half) (bs : List PByte) : State :=
  match s.memory.bursts.find? fun b => burstTag b.id == tag && b.stage == 3 && b.data.isEmpty with
  | none => s
  | some b =>
    match s.opById b.op with
    | none => s
    | some o =>
      let bs := (bs ++ List.replicate b.len (0, true)).take b.len
      if (dmaDesc o.data).poisonHalt && anyPoison bs then s.dmaPoison o b.src
      else s.modBurst b.id fun x => { x with data := bs, stage := if x.hops.isEmpty then 2 else 1 }

end Sys2Proof.Machine
end

