-- ==== Sys2Proof/Machine/Ports.lean ====
section
/-! DEFINITION. Fabric ports: states, bring-up, keys, and the flit link layer of a table port (11, sections 11.2 to 11.6; 12,
sections 12.1 and 12.9; 19, section 19.5). -/

namespace Sys2Proof.Machine

/-! ## Failing, closing and entering HELLO (11, R330 to R332) -/

/-- Packets with bytes in flits not yet acknowledged or still to come, each once, in the order of first sending. -/
def unsentPackets (p : Port) : List Packet :=
  (p.held.flatMap (·.pkts) ++ (p.restT.map (·.1)).toList ++ (p.restB.map (·.1)).toList).eraseDups

/-- A WRITE whose WRITE_ACK has arrived: no burst and no epoch waits for it any more; it is never sent again (11, R327). -/
def State.writeDone (s : State) (p : Packet) : Bool :=
  let k := p.tag.toNat
  p.op == 1 && !(if 0x4000 ≤ k && k < 0x5000 then s.rel.epochs.any fun x => x.seat == k - 0x4000 && x.waiting.isSome
    else s.memory.bursts.any fun b => burstTag b.id == p.tag && b.stage == 3)

/-- The port's packets return to the front of the waiting packets, in their order (11, R327, R328). -/
def State.handBack (s : State) (n : Nat) : State :=
  let ps := ((unsentPackets (s.port n)).filter fun k => !s.writeDone k).map fun k => ({ pkt := k, east := decide (17 ≤ n) } : OutPkt)
  { s with fab := { s.fab with out := ps ++ s.fab.out } }

/-- A port as its link layer stands at the start of a state (11, R331): only what outlives a bring-up is kept. -/
def freshPort (p : Port) (st : PortState) : Port :=
  { state := st, helloCount := p.helloCount, failTimes := p.failTimes, authTimes := p.authTimes, peer := p.peer, medium := p.medium }

/-- A port enters TRAINING: the medium that its object names takes effect (11, Table 11-1, Table 11-11). -/
def State.enterTraining (s : State) (n : Nat) : State :=
  s.modPort n fun p => { freshPort p .training with medium := s.obj (portObj n (if n < 34 then 0x81 else 0x83)) 0 }

/-- Times of cause-3 failures of a port within the last 3,600 s. -/
def recentFails (s : State) (p : Port) : List Nat := p.failTimes.filter fun t => s.ns < t + 3600000000000

/-- A cause-3 failure: the third within 3,600 s disables the port, and eight ports fold the package (19, R559). -/
def State.authFailed (s : State) (n : Nat) : State :=
  let s := s.modPort n fun p => { p with failTimes := recentFails s p ++ [s.ns] }
  let s := if 3 ≤ (recentFails s (s.port n)).length then
      ((s.setObj (portObj n 0x80) 0).modPort n fun p => freshPort p .off).report 2 0x0303 1 none [n, 3]
    else s
  if 8 ≤ (tablePorts.filter fun q => !(recentFails s (s.port q)).isEmpty).length then s.foldPackage 7 else s

/-- A RETRAIN of the port ends (18, Table 18-15). -/
def State.endRetrain (s : State) (n : Nat) : State := { s with maint := { s.maint with works := s.maint.works.filter (· ≠ (1, n)) } }

/-- PORT_ENTER_FAILED: packets go back to their senders; port_failures; report 0x0303 with its cause (11, R321, R328, R330). A port that is
CLOSING goes to OFF instead (Table 11-7). -/
def State.failPort (s : State) (n cause : Nat) : State :=
  let s := (s.handBack n).endRetrain n
  if (s.port n).state = .closing then s.modPort n fun p => freshPort p .off
  else
  let s := (s.modPort n fun p => freshPort p .failed).bump (portObj n 0x0A) 32
  let s := s.report 2 0x0303 1 none [n, cause]
  if cause = 3 then s.authFailed n else s

/-- The port is enabled (tp_enable, sp_enable). -/
def State.portEnabled (s : State) (n : Nat) : Bool := s.obj (portObj n 0x80) 1 ≠ 0

/-- A port enters HELLO: sequences, replay buffers and credits are reset; it takes the fabric secret in effect, and reads under the bring-up set of
the peer that R342 names (11, R331; 19, R555, R556). -/
def State.enterHello (s : State) (n : Nat) : State :=
  s.modPort n fun p => match s.sec.fs with
    | none => freshPort p .hello
    | some fs => { freshPort p .hello with
        fs := s.sec.fsGen, secret := fs, txSet := bringSet fs s.table.id s.table.position n
        rxSet := bringSet fs s.table.id (peerOf s.table.position n) (farPort n) }

/-- The address that keeps a spine port in HELLO is all zeros (11, Table 11-11). -/
def State.hasAddress (s : State) (n : Nat) : Bool := (Tbl.get [] s.kdp.octets (portObj n 0x81)).any (· ≠ 0)

/-- A spine port passes HELLO once its address is set (11, R330, Table 11-11). -/
def State.spineHello (s : State) (n : Nat) : State :=
  let s := s.modPort n fun p => freshPort p .hello
  if s.hasAddress n then s.modPort n fun p => { p with state := .active } else s

/-! ## Choosing a port (12, R344, R345) -/

/-- A trump flit of the port is unacknowledged, or a trump packet is sent in part. -/
def holdsTrump (p : Port) : Bool := p.held.any (fun f => f.kind == 1 || f.kind == 2) || p.restT.isSome

/-- The primary port towards a position is chosen again (12, R344). -/
def State.pickPrimary (s : State) (peer : Nat) : State :=
  let w := s.port (portTo s.table.position peer false)
  let e := s.port (portTo s.table.position peer true)
  let on := s.fab.east.contains peer
  let up := usable w
  if on && up && !holdsTrump e then { s with fab := { s.fab with east := s.fab.east.filter (· ≠ peer) } }
  else if !on && !up then { s with fab := { s.fab with east := s.fab.east ++ [peer] } }
  else s

/-- A port in its present state takes a packet: ACTIVE past bring-up keys, only ROSTERs when miscabled, only responses while
CLOSING (11, R332; 12, R343; 19, R557). -/
def groupPasses (p : Port) (k : Packet) : Bool :=
  (p.state == .active && !p.peerClosing && decide (1 ≤ p.txGen) && (!p.miscabled || k.op == 0xC))
    || (p.state == .closing && decide (1 ≤ p.txGen) && isResponse k.op)

/-- Trump packets that wait and may leave through port `n` (12, R344). -/
def State.trumpFor (s : State) (n : Nat) : List OutPkt :=
  let peer := peerOf s.table.position n
  s.fab.out.filter fun o => isTrump o.pkt.op && o.pkt.dstPos == peer && s.primaryPort peer == n && groupPasses (s.port n) o.pkt
/-- Bulk packets that wait and may leave through port `n`: those that prefer its die, or whose own die's port is not usable (12,
R345). -/
def State.bulkFor (s : State) (n : Nat) : List OutPkt :=
  let peer := peerOf s.table.position n
  let east := decide (17 ≤ n)
  let other := s.port (portTo s.table.position peer (!east))
  s.fab.out.filter fun o =>
    !isTrump o.pkt.op && o.pkt.dstPos == peer && groupPasses (s.port n) o.pkt && (o.east == east || !usable other)

def State.dropOut (s : State) (o : OutPkt) : State := { s with fab := { s.fab with out := s.fab.out.erase o } }

/-! ## TIME packets (13, R398, R399) -/

/-- A TIME packet's payload (13, Table 13-2). -/
def timeBytes (kind : Nat) (m : TimeMsg) : List Byte :=
  [BitVec.ofNat 8 kind, BitVec.ofNat 8 m.state] ++ leBytes 2 m.exchange.toNat ++ leBytes 4 m.epoch.toNat ++ leBytes 8 m.stamp.toNat
    ++ leBytes 4 (b2n m.valid) ++ zeros 4 ++ leBytes 8 m.grandmaster.toNat

/-- The dealer's PTP grandmaster, as the dealer or as the package has learnt it; 0 where there is none (13, Tables 13-2 and 13-4). -/
def State.grandmaster (s : State) : Word :=
  if s.deals then (match s.time.master with | some m => m.1 | none => 0) else s.time.grandmaster

/-- A TIME packet to a position. -/
def State.sendTime (s : State) (pos kind : Nat) (x : Half) (stamp : Word) (valid : Bool := true) : State :=
  s.sendPacket { op := 0x0D, dstPos := pos, incarnation := s.fw.pkgInc
                 data := timeBytes kind { state := s.time.state, exchange := x, epoch := s.time.epoch, stamp := stamp, valid := valid
                                          grandmaster := s.grandmaster } }

/-- Kind and exchange number of a TIME packet; kind 0 of any other. -/
def timeKind (p : Packet) : Nat := if p.op = 0x0D then field p.data 0 1 else 0
def timeExchange (p : Packet) : Nat := field p.data 2 2

/-- The flit in which a TIME packet starts is sent for the first time: the stamp is t1 of a SYNC, which FOLLOW_UP carries, or t3 of a DELAY_REQ (13,
R398, R399). -/
def State.stampEgress (s : State) (p : Packet) : State :=
  if timeKind p = 1 then s.sendTime p.dstPos 2 (BitVec.ofNat 16 (timeExchange p)) s.now
  else if timeKind p = 3 then
    { s with time := { s.time with exchs := s.time.exchs.map fun x => if x.num = timeExchange p && x.t3.isNone then { x with t3 := some s.now } else x } }
  else s

/-- A flit is sent again: the FOLLOW_UP of a SYNC in it that still waits says valid 0 (13, Table 13-2, R399). -/
def State.resentTimes (s : State) (ps : List Packet) : State :=
  let hit := fun (o : OutPkt) => timeKind o.pkt == 2
    && ps.any fun p => timeKind p == 1 && p.dstPos == o.pkt.dstPos && timeExchange p == timeExchange o.pkt
  { s with fab := { s.fab with out := s.fab.out.map fun o => if hit o then { o with pkt := { o.pkt with data := o.pkt.data.set 16 0 } } else o } }

/-! ## Filling a flit (11, R325) -/

/-- Fill the rest of a data flit's payload: bytes of the packet in progress, then further packets of the class, each taken from
the waiting packets. Answers the payload, the packets with bytes in it, and the rest of the last one. -/
def State.fillFlit (s : State) (n : Nat) (bulk : Bool) (rest : Option (Packet × List Byte)) (acc : List Byte)
    (ps : List Packet) : Nat → State × List Byte × List Packet × Option (Packet × List Byte)
  | 0 => (s, padTo 240 acc, ps, rest)
  | k + 1 =>
    let room := 240 - acc.length
    if room = 0 then (s, acc, ps, rest)
    else match rest with
      | some (q, bs) =>
        let r := bs.drop room
        s.fillFlit n bulk (if r.isEmpty then none else some (q, r)) (acc ++ bs.take room) (ps ++ [q]) k
      | none =>
        if bulk then
          match s.drrPick (s.bulkFor n) (s.port n) (2 * (s.bulkFor n).length + 3) with
          | none => (s, padTo 240 acc, ps, none)
          | some (o, p) => ((s.dropOut o).modPort n fun _ => p).fillFlit n bulk (some (o.pkt, packetBytes o.pkt)) acc ps k
        else
          match s.trumpFor n with
          | [] => (s, padTo 240 acc, ps, none)
          | o :: _ => ((s.dropOut o).stampEgress o.pkt).fillFlit n bulk (some (o.pkt, packetBytes o.pkt)) acc ps k

/-! ## Sending (11, R310 to R315, R317, R318, R323, R324) -/

/-- Flits of a class in the replay buffer; control counts as trump (11, R315). -/
def heldOf (p : Port) (bulk : Bool) : Nat := (p.held.filter fun f => (f.kind == 3) == bulk).length
/-- A new sequenced flit of a class may start (11, R315). -/
def portRoom (p : Port) (bulk : Bool) : Bool := decide (p.held.length < 2047) && decide (heldOf p bulk < 1024)

/-- The reverse-direction fields of a flit's header: acknowledgement or nak, credits (11, Table 11-3, R317, R318, R323). -/
def headerOf (p : Port) (fl : Flit) : Flit × Port :=
  let fl := if p.nakDue then { fl with nak := true, ack := p.expect } else { fl with nak := false, ack := (p.expect + 4095) % 4096 }
  let p := { p with nakDue := false }
  match p.part with
  | some true => ({ fl with crBulk := true, crUnits := 1 }, { p with part := none, owedB := p.owedB - 16 })
  | some false => ({ fl with crBulk := false, crUnits := 1 }, { p with part := none, owedT := p.owedT - 16 })
  | none =>
    if 16 ≤ p.owedT then
      let u := min 7 (p.owedT.toNat / 16)
      ({ fl with crBulk := false, crUnits := u }, { p with owedT := p.owedT - 16 * u })
    else if 16 ≤ p.owedB then
      let u := min 7 (p.owedB.toNat / 16)
      ({ fl with crBulk := true, crUnits := u }, { p with owedB := p.owedB - 16 * u })
    else (fl, p)

/-- Send a flit whose own fields are fixed, with the 63-bit counter of its kind: the reverse-direction fields are current, and the tag is
computed afresh (11, R309, R311). -/
def State.putFlit (s : State) (n ctr : Nat) (fl : Flit) : State :=
  let (fl, p) := headerOf (s.port n) fl
  (s.modPort n fun _ => p).emit (.flit n { fl with blocks := flitBlocks (flitBytes p.txSet ctr fl) })

/-- A new sequenced flit: it takes the next sequence, one credit of its class, and a place in the replay buffer (11, R314, R315,
R323). -/
def State.sendNew (s : State) (n : Nat) (kind : Fin 4) (payload : List Byte) (pkts : List Packet) : State :=
  let p := s.port n
  let ph := p.txGen % 2 == 1
  let f : TxFlit := { seq := p.nextSeq, kind := kind, phase := ph, payload := payload, pkts := pkts, ctr := p.txCtr }
  let s := s.modPort n fun p =>
    { p with
      nextSeq := (p.nextSeq + 1) % 4096, txCtr := p.txCtr + 1, held := p.held ++ [f]
      credT := if kind = 3 then p.credT else p.credT - 1, credB := if kind = 3 then p.credB - 1 else p.credB }
  s.putFlit n f.ctr { seq := f.seq, kind := kind, keyPhase := ph, payload := payload }

/-- A data flit of a class leaves. -/
def State.sendData (s : State) (n : Nat) (bulk : Bool) : State :=
  let p := s.port n
  let (s, pay, ps, rest) := s.fillFlit n bulk (if bulk then p.restB else p.restT) [] [] 64
  let s := s.modPort n fun p => if bulk then { p with restB := rest } else { p with restT := rest }
  s.sendNew n (if bulk then 3 else 2) pay ps

/-- A null flit (11, R311, R314): its counter rises by 1 and stands in clear in the payload. -/
def State.sendNull (s : State) (n : Nat) : State :=
  let p := s.port n
  (s.modPort n fun p => { p with nullCtr := p.nullCtr + 1 }).putFlit n p.nullCtr
    { seq := p.nullCtr % 4096, kind := 0, keyPhase := p.txGen % 2 == 1, nullCtr := p.nullCtr, payload := leBytes 8 p.nullCtr ++ zeros 232 }

/-- The sending direction moves to the next generation once its flits are acknowledged and its control flits have left (19, R557
step 4). -/
def State.finishSwitch (s : State) (n : Nat) : State :=
  let p := s.port n
  if p.switching && p.held.isEmpty && p.ctl.isEmpty then
    s.modPort n fun p => { p with switching := false, txGen := p.gen, txSet := p.nextSet, txCtr := 0, nullCtr := 0 }
  else s

/-- A CLOSING table port with nothing left to acknowledge or answer goes to OFF (11, R332). -/
def State.finishClose (s : State) (n : Nat) : State :=
  let p := s.port n
  if p.state = .closing && p.held.isEmpty && p.ctl.isEmpty && p.restT.isNone && p.restB.isNone
      && (s.trumpFor n).isEmpty && (s.bulkFor n).isEmpty && (s.acceptedOf fun x => x.1 % 65536 == n).isEmpty then
    s.modPort n fun p => freshPort p .off
  else s

/-- A response waits or is unacknowledged on some spine connection. -/
def State.spineOwes (s : State) : Bool :=
  s.fab.conns.any fun e => e.2.any fun c => [c.trump, c.bulk].any fun st =>
    st.queue.any (fun x => isResponse x.2.op) || st.held.any fun x => x.packets.any fun p => isResponse p.op

/-- The CLOSING spine ports go to OFF once every request that came by their edge die is answered and every response is acknowledged (11,
R332). -/
def State.finishSpine (s : State) : State :=
  (spinePorts.filter fun q => (s.port q).state == .closing).foldl (fun s q =>
    if s.spineOwes || !(s.acceptedOf fun x => !fromTable x.1 && portDomain (originPort x.1) == portDomain q).isEmpty then s
    else s.modPort q fun p => freshPort p .off) s

/-- Bulk data waits with room and a credit; trump data likewise (11, R324). -/
def State.bulkReady (s : State) (n : Nat) : Bool :=
  let p := s.port n
  !p.switching && (p.restB.isSome || !(s.bulkFor n).isEmpty) && portRoom p true && decide (0 < p.credB)
def State.trumpReady (s : State) (n : Nat) : Bool :=
  let p := s.port n
  !p.switching && (p.restT.isSome || !(s.trumpFor n).isEmpty) && portRoom p false && decide (0 < p.credT)
/-- Consecutive flit times that went to trump data while bulk was ready. -/
def State.setStarve (s : State) (n k : Nat) : State := s.modPort n fun p => { p with starve := k }

/-- FLIT_SEND: the first of resend, control, trump, bulk, null that can be sent; after seven flit times in a row that went to trump data while bulk
was ready, the eighth goes to bulk (11, R324). A port in HELLO without a fabric secret sends nothing (19, R555). -/
def State.flitSend (s : State) (n : Nat) : State :=
  let s := (s.pickPrimary (peerOf s.table.position n)).finishSwitch n
  let p := s.port n
  match p.resend with
  | some i =>
    match p.held[i]? with
    | none => (s.modPort n fun p => { p with resend := none, starve := 0 }).sendNull n
    | some f =>
      if 16 ≤ f.sends then s.failPort n 1
      else
        let s := s.modPort n fun p => { p with
          starve := 0, held := p.held.set i { f with sends := f.sends + 1 }
          resend := if i + 1 < p.held.length then some (i + 1) else none }
        (s.resentTimes f.pkts).putFlit n f.ctr { seq := f.seq, kind := f.kind, keyPhase := f.phase, payload := f.payload }
  | none =>
    if s.bulkReady n && 7 ≤ p.starve then (s.setStarve n 0).sendData n true
    else match p.ctl.head?.filter fun _ => portRoom p false with
      | some c => ((s.setStarve n 0).modPort n fun p => { p with ctl := p.ctl.tail }).sendNew n 1 c []
      | none =>
        if s.trumpReady n then (s.setStarve n (if s.bulkReady n then p.starve + 1 else 0)).sendData n false
        else if s.bulkReady n then (s.setStarve n 0).sendData n true
        else (s.setStarve n 0).sendNull n

/-- A table port's link layer runs: it sends and takes flits (11, R331, R332; 19, R555). -/
def portRuns (p : Port) : Bool :=
  decide (p.fs ≠ 0) && (p.state == .hello || p.state == .active || p.state == .closing)

def execFlitSend (tp : Nat) (s : State) : Res :=
  .next (if tp < 34 && s.hasTable && portRuns (s.port tp) then s.flitSend tp else s)

/-! ## Receiving (11, R312, R313, R316 to R319, R328) -/

/-- Packets that lie whole at the head of a class's byte stream; an op byte 0 makes the rest padding (11, R325). -/
def takePackets (bs : List Byte) (acc : List Packet) : Nat → List Packet × List Byte
  | 0 => (acc, bs)
  | n + 1 =>
    match bs with
    | [] => (acc, [])
    | b :: _ =>
      if b = 0 then (acc, [])
      else match parsePacket bs with
        | none => (acc, bs)
        | some (p, t) => takePackets t (acc ++ [p]) n

/-- What the receiver does with a trump packet's pair_seq (11, R328): apply, duplicate or gap. -/
inductive PairVerdict where
  | apply | duplicate | gap
deriving DecidableEq, Repr

def State.judgePair (s : State) (table : Half) (p : Packet) : PairVerdict :=
  let e := (Tbl.get 0 s.fab.pairRx (pairKey table p.srcPos) + 1) % 2 ^ 32
  let q := p.ext.toNat % 2 ^ 32
  if q = e then .apply else if q < e then .duplicate else .gap

/-- The receiver's expected value rises by 1. -/
def State.takePair (s : State) (table : Half) (p : Packet) : State :=
  let k := pairKey table p.srcPos
  { s with fab := { s.fab with pairRx := Tbl.set 0 s.fab.pairRx k (p.ext.toNat % 2 ^ 32) } }

/-- A trump packet discarded as a duplicate is counted: at its table port, or with those of the spine (11, R328, Table 11-11; log 35). -/
def State.countDup (s : State) (o : Nat) : State :=
  if fromTable o then s.bump (portObj (originPort o) 9) 64 else { s with fab := { s.fab with dups := s.fab.dups + 1 } }

/-- A packet that the link layer has put together: trump packets pass the pair_seq check; what passes waits for its unit. -/
def State.deliver (s : State) (port : Nat) (table : Half) (p : Packet) : State :=
  let put := fun (s : State) => { s with fab := { s.fab with rx := s.fab.rx ++ [(port, p)] } }
  if !isTrump p.op then put s
  else match s.judgePair table p with
    | .apply => put (s.takePair table p)
    | .duplicate => s.countDup port
    | .gap => { s with fab := { s.fab with gaps := s.fab.gaps + 1 } }

/-- An acknowledgement frees the named flit and every earlier one; a resend goes on with the flits still outstanding (11, R315, R319). -/
def State.ackFlits (s : State) (n seq : Nat) : State :=
  let p := s.port n
  match p.held.findIdx? (·.seq == seq) with
  | none => s
  | some i => s.modPort n fun p =>
      { p with held := p.held.drop (i + 1)
               resend := p.resend.bind fun r => if i + 1 < p.held.length then some (r - (i + 1)) else none }

/-- A nak starts a resend from the named flit, unless one from there started less than 2 µs before (11, R319). -/
def State.nakFlits (s : State) (n seq : Nat) : State :=
  let p := s.port n
  match p.held.findIdx? (·.seq == seq) with
  | none => s
  | some i =>
    if p.lastResend.any fun r => r.1 == seq && decide (s.ns < r.2 + 2000) then s
    else (s.modPort n fun p => { p with resend := some i, lastResend := some (seq, s.ns) }).bump (portObj n 6) 64

/-- The reverse-direction fields of a flit that has passed (11, section 11.2.1). -/
def State.takeHeader (s : State) (n : Nat) (fl : Flit) : State :=
  let s := s.modPort n fun p =>
    if fl.crBulk then { p with credB := p.credB + 16 * fl.crUnits } else { p with credT := p.credT + 16 * fl.crUnits }
  let s := if fl.nak then s.nakFlits n fl.ack else s.ackFlits n fl.ack
  (s.finishSwitch n).finishClose n

/-- An accepted data flit: its payload joins its class's stream, and whole packets are delivered (11, R316, R325). -/
def State.acceptFlit (s : State) (n : Nat) (fl : Flit) : State :=
  let s := s.modPort n fun p => { p with expect := (p.expect + 1) % 4096, rxCtr := p.rxCtr + 1, gap := false }
  if fl.kind = 1 then s.modPort n fun p => { p with owedT := p.owedT + 1 }
  else
    let bulk := fl.kind == 3
    let p := s.port n
    let (ps, rest) := takePackets ((if bulk then p.inB else p.inT) ++ fl.payload) [] 16
    let s := s.modPort n fun p =>
      if bulk then { p with inB := rest, owedB := p.owedB + 1 } else { p with inT := rest, owedT := p.owedT + 1 }
    ps.foldl (fun s k => s.deliver n s.table.id k) s

/-- The counter of a sequenced flit: E extended, and the flit's place ahead of it or behind it (11, R312, R316). -/
def Port.flitCtr (p : Port) (base seq : Nat) : Nat :=
  let ahead := (seq + 4096 - p.expect) % 4096
  if ahead < 2048 then base + ahead else (base + 2 ^ 63 + ahead - 4096) % 2 ^ 63

/-- A flit read under a set whose counter stands at `base` for E. -/
def Port.tryFlit (p : Port) (set : List Byte) (base : Nat) (bs : List Byte) : Option (List Byte) :=
  let f := readFlit bs
  openFlit set (if f.kind = 0 then f.nullCtr else p.flitCtr base f.seq) bs

/-- The sets that the receiver holds for a flit's phase, with their generation and the counter of E: the present set, or the next from its delivery
on; under each the counters start at 0 (11, R313; 19, R557). -/
def Port.setFor (p : Port) (ph : Bool) : Option (Nat × List Byte × Nat) :=
  if ph = (p.rxGen % 2 == 1) then some (p.rxGen, p.rxSet, p.rxCtr) else p.rxNext.map fun x => (p.rxGen + 1, x, 0)

/-- The bring-up sets of every other position and port of the table (19, R556). -/
def State.bringSets (s : State) (n : Nat) : List (List Byte) :=
  (((List.range 18).filter fun q => q ≠ s.table.position).flatMap fun q => tablePorts.map fun k => (q, k)).map
    fun x => bringSet (s.port n).secret s.table.id x.1 x.2

/-- What the tag check finds of a flit: the generation, the set and the payload under it; none where no set that the receiver holds opens it. A
HELLO that fails under the set of the peer of R342 is tried under those of the others (11, R312; 19, R556). -/
def State.unseal (s : State) (n : Nat) (bs : List Byte) : Option (Nat × List Byte × List Byte) :=
  let p := s.port n
  match p.setFor (readFlit bs).keyPhase with
  | none => none
  | some (g, set, base) =>
    match p.tryFlit set base bs with
    | some x => some (g, set, x)
    | none =>
      if p.state = .hello && (readFlit bs).kind = 1 then
        (s.bringSets n).findSome? fun k => (p.tryFlit k base bs).map fun x => (g, k, x)
      else none

/-- The first flit of a new generation makes its set the receiver's only one, its counters at 0; a bring-up set that has passed is kept (11, R313;
19, R556, R557). -/
def Port.reads (p : Port) (g : Nat) (set : List Byte) : Port :=
  if g = p.rxGen then { p with rxSet := set } else { p with rxGen := g, rxSet := set, rxNext := none, rxCtr := 0, lastNull := none }

/-- A flit whose tag fails: counted; sixteen within one second fail the port (11, R312). -/
def State.badTag (s : State) (n : Nat) : State :=
  let s := (s.bump (portObj n 8) 32).modPort n fun p =>
    { p with authTimes := (p.authTimes.filter fun t => s.ns < t + 1000000000) ++ [s.ns] }
  if 16 ≤ (s.port n).authTimes.length then (s.modPort n fun p => { p with authTimes := [] }).failPort n 3 else s

/-- FLIT_RECEIVE (11, R312, R316 to R319). The content of a control flit acts in its own command. -/
def State.flitReceive (s : State) (n : Nat) (got : FlitGot) (bs : List Byte) : State :=
  let s := if got.fecFixed = 0 then s else s.bump (portObj n 4) 64 got.fecFixed
  if !got.fecOk then s.bump (portObj n 5) 64
  else match s.unseal n bs with
    | none => s.badTag n
    | some (g, set, payload) =>
      let fl := { readFlit bs with payload := payload }
      let s := s.modPort n fun p => p.reads g set
      let p := s.port n
      if fl.kind = 0 then
        let base := match p.lastNull with | some l => l + 1 | none => 0
        if base ≤ fl.nullCtr && fl.nullCtr ≤ base + 4095 then
          (s.modPort n fun p => { p with lastNull := some fl.nullCtr }).takeHeader n fl
        else s
      else
        let s := s.takeHeader n fl
        let ahead := (fl.seq + 4096 - p.expect) % 4096
        if ahead = 0 then s.acceptFlit n fl
        else if ahead < 2048 then s.modPort n fun p => if p.gap then p else { p with gap := true, nakDue := true }
        else s.bump (portObj n 9) 64

/-- FLIT_RECEIVE: the flit at the head of the blocks that arrive (11, R309). Blocks without a whole flit are no flit. -/
def execFlitReceive (tp : Nat) (got : FlitGot) (s : State) : Res :=
  .next (if tp < 34 && s.hasTable && portRuns (s.port tp) then
      match flitAt got.blocks with
      | some bs => s.flitReceive tp got bs
      | none => s
    else s)

/-- NAK_REPEAT_TIMER: 2 µs have passed without the expected flit (11, R318). -/
def execNakRepeatTimer (tp : Nat) (s : State) : Res :=
  .next (if tp < 34 && portRuns (s.port tp) && (s.port tp).gap then s.modPort tp fun p => { p with nakDue := true } else s)

/-- ACK_TIMEOUT: the oldest flit has gone 2 µs without an acknowledgement (11, R320, R321). -/
def execAckTimeout (tp : Nat) (s : State) : Res :=
  .next (
    let p := s.port tp
    if !(tp < 34 && portRuns p) then s
    else match p.held with
      | [] => s
      | f :: _ =>
        if 16 ≤ f.sends then s.failPort tp 1
        else ((s.modPort tp fun p => { p with resend := some 0, lastResend := some (f.seq, s.ns) }).bump (portObj tp 6) 64).bump
          (portObj tp 7) 32)

/-- CREDIT_PARTIAL_RETURN: fewer than 16 flits have waited for 1 µs (11, R323). -/
def execCreditPartialReturn (tp : Nat) (bulk : Bool) (s : State) : Res :=
  .next (
    let p := s.port tp
    let owed := if bulk then p.owedB else p.owedT
    if tp < 34 && portRuns p && decide (0 < owed) && decide (owed < 16) then s.modPort tp fun p => { p with part := some bulk } else s)

/-! ## Port states (11, R330) -/

def isPort (n : Nat) : Bool := n < 34 || (64 ≤ n && n < 72)

/-- The power of a port's group and of its edge die is on (14, R415). -/
def State.portPowered (s : State) (n : Nat) : Bool :=
  s.domain (portDomain n) == 0 && (decide (portDomain n = 9) || decide (portDomain n = 11) || s.domain 8 == 0)

/-- PORT_TRAINING: an enabled port whose domain is open leaves OFF (11, R330); its clock domain is ungated (14, R412). -/
def execPortTraining (port : Nat) (s : State) : Res :=
  .next (
    if isPort port && (s.port port).state = .off && s.portEnabled port && s.portPowered port && s.dev = .live then
      let s := s.enterTraining port
      { s with clk := { s.clk with ungating := s.clk.ungating ||| (s.clk.gated &&& (1 <<< portClock port)) } }
    else s)

/-- TRAINING_TIMEOUT: HELLO has not been reached within 500 ms (11, R330). -/
def execTrainingTimeout (port : Nat) (s : State) : Res :=
  .next (if isPort port && (s.port port).state = .training then s.failPort port 2 else s)

/-- FAILED_RETRY: 1 s after its failure an enabled port trains again (11, R330). -/
def execFailedRetry (port : Nat) (s : State) : Res :=
  .next (if isPort port && (s.port port).state = .failed && s.portEnabled port && s.portPowered port then s.enterTraining port else s)

/-- PORT_TRAINING_COMPLETE: lock is reached, and the port enters HELLO (11, R330, R331). The table ports of a package without a
place at a table stay there (15, R448). -/
def execPortTrainingComplete (port : Nat) (s : State) : Res :=
  .next (if isPort port && (s.port port).state = .training then
      (if port < 34 then s.enterHello port else s.spineHello port).endRetrain port else s)

/-- FEC_ALIGNMENT_LOSS: lock or FEC alignment is lost: FAILED, or OFF for a port that is CLOSING (11, R330, Table 11-7). -/
def execFecAlignmentLoss (port : Nat) (s : State) : Res :=
  .next (
    let st := (s.port port).state
    if isPort port && (st = .hello || st = .active || st = .closing) then s.failPort port 2 else s)

/-- A port is disabled or its domain closes: an ACTIVE port is CLOSING while it drains, and a table port says so to its peer; what it has accepted
stays accepted. Any other port goes to OFF (11, R332, Table 11-11). -/
def State.closePort (s : State) (n : Nat) : State :=
  let p := s.port n
  if p.state = .off || p.state = .closing then s
  else if p.state ≠ .active then s.modPort n fun p => freshPort p .off
  else if n < 34 then
    (s.admitRx fun x => x.1 % 65536 == n).modPort n fun p => { p with state := .closing, ctl := p.ctl ++ [padTo 240 [2]] }
  else
    ((s.admitRx fun x => !fromTable x.1 && portDomain (originPort x.1) == portDomain n).modPort n fun p => { p with state := .closing }).finishSpine

/-- tp_enable and sp_enable (11, Table 11-11): 0 takes the port to OFF through CLOSING. -/
def State.writePortEnable (s : State) (n v : Nat) : State :=
  let s := s.setObj (portObj n 0x80) v
  if v = 0 then s.closePort n else s

/-! ## HELLO (11, R331; 12, R343) -/

/-- The payload of a HELLO control flit (11, Table 11-8). -/
def helloBytes (m : HelloMsg) : List Byte :=
  padTo 240 ([1, 0] ++ leBytes 2 m.revision ++ leBytes 2 m.tableId.toNat ++ [BitVec.ofNat 8 m.position, BitVec.ofNat 8 m.port]
    ++ leBytes 8 m.serial.toNat ++ leBytes 2 m.trumpCredits ++ leBytes 2 m.bulkCredits ++ leBytes 4 m.count.toNat
    ++ leBytes 4 m.echo.toNat)

/-- Queue one HELLO: hello_count rises by 1, and echo returns the peer's last count. -/
def State.queueHello (s : State) (n : Nat) : State :=
  let p := s.port n
  let m : HelloMsg :=
    { revision := s.fw.wire, tableId := s.table.id, position := s.table.position, port := n, serial := s.serial
      trumpCredits := 256, bulkCredits := 1024, count := p.helloCount + 1, echo := (p.peer.map (·.count)).getD 0 }
  s.modPort n fun p => { p with helloCount := p.helloCount + 1, ctl := p.ctl ++ [helloBytes m] }

/-- HELLO_SEND: every 10 µs in HELLO (11, R331). -/
def execHelloSend (tp : Nat) (s : State) : Res :=
  .next (if tp < 34 && s.hasTable && (s.port tp).state = .hello && (s.port tp).fs ≠ 0 then s.queueHello tp else s)

/-- KEY_READY (19, Table 19-7): generation, confirm, and the 32-byte nonce that free value `nonce` and the next three spell
(log 3). -/
def keyBytes (gen : Nat) (confirm : Bool) (nonce : Nat) : List Byte :=
  padTo 240 ([3, BitVec.ofNat 8 (b2n confirm), 0, 0] ++ leBytes 4 gen
    ++ (List.range 4).flatMap fun i => leBytes 8 (Config.freeValue (nonce + i)).toNat)

/-- The sets of this end's sending and receiving directions for generation `g`, from its own nonce and the peer's: the low end is the package of the
lower serial (19, Table 19-6). -/
def State.ownSets (s : State) (n g nonce peerNonce : Nat) : List Byte × List Byte :=
  let p := s.port n
  let me : Nat × Nat × List Byte := (s.serial.toNat, n, (List.range 4).flatMap fun i => leBytes 8 (Config.freeValue (nonce + i)).toNat)
  let it : Nat × Nat × List Byte := ((p.peer.map (·.serial.toNat)).getD 0, (p.peer.map (·.port)).getD (farPort n), leBytes 32 peerNonce)
  if me.1 < it.1 then ((linkSets p.secret g me it).take 36, (linkSets p.secret g me it).drop 36)
  else ((linkSets p.secret g it me).drop 36, (linkSets p.secret g it me).take 36)

/-- An end starts a generation: a fresh nonce, KEY_READY with confirm 0 (19, R557 step 1). -/
def State.startKey (s : State) (n gen : Nat) : State :=
  let k : KeyGen := { gen := gen, nonce := s.freeCtr, asked := true }
  ({ s with freeCtr := s.freeCtr + 4 }).modPort n fun p => { p with key := some k, ctl := p.ctl ++ [keyBytes gen false k.nonce] }

/-- NOTICE RESTART to a position, when the first port towards it becomes ACTIVE (16, R474). -/
def State.noticePeer (s : State) (pos : Nat) : State :=
  let body := [1, 0, 0, 0] ++ leBytes 4 (s.fw.pkgInc - 1).toNat ++ leBytes 4 s.fw.pkgInc.toNat ++ [0, 0, BitVec.ofNat 8 s.boot.told, 0]
  let m := msgBytes 0x0080 s.mgmt.notices .receiverReset 2 s.fw.pkgInc (BitVec.ofNat 32 (Tbl.get 0 s.mgmt.peers pos)) 0xFFFF 0 s.now body
  { s with mgmt := { s.mgmt with notices := s.mgmt.notices + 1 } }.sendPacket
    { op := 0x0B, dstPos := pos, incarnation := s.fw.pkgInc, data := m }

/-- A port enters ACTIVE and starts generation 1; a peer that R342 does not name makes it miscabled (12, R343; 19, R557). The
HELLO that follows lets the peer see its own count echoed (log 39). -/
def State.enterActive (s : State) (n : Nat) (m : HelloMsg) : State :=
  let wrong := m.tableId ≠ s.table.id || m.position ≠ peerOf s.table.position n || m.port ≠ farPort n
  let s := s.queueHello n
  let s := s.modPort n fun p =>
    { p with state := .active, miscabled := wrong, revision := min s.fw.wire m.revision, genBegan := s.now }
  let s := if wrong then s.bump 0x410008 32 else s
  let peer := peerOf s.table.position n
  let other := (s.port (portTo s.table.position peer (n < 17))).state
  let s := if wrong || other = .active then s else s.noticePeer peer
  s.startKey n 1

/-- Two wire revisions differ by 2 or more (11, R331). -/
def farApart (a b : Nat) : Bool := decide (a + 2 ≤ b) || decide (b + 2 ≤ a)

/-- HELLO: a HELLO control flit's content (11, R330, R331). -/
def execHello (tp : Nat) (m : HelloMsg) (s : State) : Res :=
  .next (
    let p := s.port tp
    if !(tp < 34 && s.hasTable && p.fs ≠ 0) then s
    else if p.state = .refused then
      (if p.peer.any (·.revision ≠ m.revision) then (s.enterHello tp).modPort tp fun p => { p with peer := some m } else s)
    else if p.state ≠ .hello then s
    else
      let s := s.modPort tp fun p =>
        { p with
          peer := some m, credKnown := true
          credT := if p.credKnown then p.credT else p.credT + m.trumpCredits
          credB := if p.credKnown then p.credB else p.credB + m.bulkCredits }
      if farApart s.fw.wire m.revision then
        s.modPort tp fun p => { freshPort p .refused with status := .version, fs := p.fs, secret := p.secret, txSet := p.txSet }
      else if p.helloCount ≠ 0 && m.echo = p.helloCount then s.enterActive tp m
      else s)

/-- CLOSING_FLIT: the peer's port is closing; no new packet goes to it (11, R332). -/
def execClosingFlit (tp : Nat) (s : State) : Res :=
  .next (if tp < 34 && (s.port tp).state = .active then
      (s.modPort tp fun p => { p with peerClosing := true }).pickPrimary (peerOf s.table.position tp)
    else s)

/-! ## KEY_READY (19, R557) -/

/-- The generation is complete at this end: the sending direction waits to switch (19, R557 step 4). -/
def State.completeKey (s : State) (n : Nat) : State :=
  match (s.port n).key with
  | none => s
  | some k =>
    if k.derived && k.confirmed then
      let s := s.modPort n fun p => { p with gen := k.gen, key := none, switching := true, nextSet := k.set, genBegan := s.now }
      let s := if 2 ≤ k.gen then s.bump 0x700004 32 else s
      let s := { s with maint := { s.maint with works := s.maint.works.filter (· ≠ (3, n)) } }
      s.finishSwitch n
    else s

/-- KEY_READY: derive, answer with confirm 1, and switch (19, R557). -/
def execKeyReady (tp generation : Nat) (confirm : Bool) (nonce : Nat) (s : State) : Res :=
  .next (
    let p := s.port tp
    if !(tp < 34 && (p.state = .active || p.state = .closing)) then s
    else match p.key with
      | none =>
        if generation = p.gen then s
        else if generation = p.gen + 1 then
          let x := s.ownSets tp generation s.freeCtr nonce
          let k : KeyGen := { gen := generation, nonce := s.freeCtr, peerNonce := some nonce, derived := true, confirmed := confirm, set := x.1 }
          let s := { s with freeCtr := s.freeCtr + 4 }
          (s.modPort tp fun p => { p with
            key := some k, rxNext := some x.2, ctl := p.ctl ++ [keyBytes generation true k.nonce] }).completeKey tp
        else s.failPort tp 3
      | some k =>
        if generation = p.gen then s
        else if generation ≠ k.gen then s.failPort tp 3
        else
          let x := s.ownSets tp generation k.nonce nonce
          let s := s.modPort tp fun p => { p with
            key := some { k with
              peerNonce := some nonce, derived := true, confirmed := k.confirmed || confirm, set := if k.derived then k.set else x.1 }
            rxNext := if k.derived then p.rxNext else some x.2
            ctl := if k.derived then p.ctl else p.ctl ++ [keyBytes generation true k.nonce] }
          s.completeKey tp)

end Sys2Proof.Machine
end

