-- ==== Sys2Proof/Machine/Packets.lean ====
section
/-! DEFINITION. Packets of memory, tallies and messages between packages: WRITE, READ_REQ, TADD and MBX at their target, their
answers at the requester, NOTICE, and TADD.R (11, section 11.5; 12, section 12.5; 08, R245, R250; 09, section 9.6; 16, R474). -/

namespace Sys2Proof.Machine

/-! ## A packet reaches its unit -/

/-- Take a packet: one that the link layer has delivered leaves the waiting packets; one that comes by itself comes over the primary
port of its position, and a trump packet then passes the pair_seq check here (11, R328). -/
def State.takePacket (s : State) (p : Packet) : Option (Nat × State) :=
  if !s.takesPackets then none
  else match s.fab.rx.find? fun x => x.2 == p with
    | some x => some (x.1, { s with fab := { s.fab with rx := s.fab.rx.erase x } })
    | none =>
      let o := s.primaryPort p.srcPos
      if !isTrump p.op then some (o, s)
      else match s.judgePair s.table.id p with
        | .apply => some (o, s.takePair s.table.id p)
        | _ => none

/-- What a packet that goes no further leaves behind: a duplicate or a gap is counted (11, R328). -/
def State.dropPacket (s : State) (p : Packet) : State :=
  if !s.takesPackets || !isTrump p.op then s
  else match s.judgePair s.table.id p with
    | .duplicate => s.countDup (s.primaryPort p.srcPos)
    | .gap => { s with fab := { s.fab with gaps := s.fab.gaps + 1 } }
    | .apply => s

/-- A packet's meaning at its unit. -/
def State.onPacket (s : State) (p : Packet) (op : Byte) (act : State → Nat → State) : State :=
  if p.op ≠ op then s
  else match s.takePacket p with
    | none => s.dropPacket p
    | some (o, s) => act s o

/-! ## Remote memory access (12, R356, R357; 08, R245) -/

/-- The range of a request: at most 4,096 bytes, in one 4,096-byte page, arg[63:48] 0 (11, section 11.5). -/
def rangeOk (a len : Nat) : Bool :=
  decide (a < 2 ^ 48) && decide (len ≤ 4096) && (len == 0 || a / 4096 == (a + len - 1) / 4096)

/-- Far or near tier (08, R245). -/
def remoteRange (a len : Nat) : Bool :=
  inOneMem a len && (match target a with | .far _ | .near _ => true | _ => false)

/-- The window of the lowest seat that is not FREE and grants peers the whole range (12, R356). -/
def State.peerWindow (s : State) (a len : Nat) : Option (Nat × Window) :=
  let fits := fun (w : Window) => w.c && w.size ≠ 0 && routeOf w.base == 0 && decide (w.base ≤ a) && decide (a + len ≤ w.base + w.size)
  s.liveSeats.findSome? fun x => (x.2.entry.windows.find? fits).map fun w => (x.1, w)

/-- The sender of a firmware request has the range open (12, R357; 18, R530). -/
def State.hostedFor (s : State) (pos a len : Nat) : Bool :=
  s.maint.hosted.any fun h => h.scrub.isNone && h.serial == (s.table.roster.entries.getD pos {}).serial
    && decide (h.base ≤ a) && decide (a + len ≤ h.base + h.length)

/-- The checks on a WRITE or READ_REQ, in order: a status with its retry-after, or the key slot of the access (11, R329; 08, R245;
12, R356, R357; 18, R526). -/
def State.judgeRemote (s : State) (o : Nat) (p : Packet) (wr : Bool) (len : Nat) : (Status × Nat) ⊕ Nat :=
  let a := p.arg.toNat
  let st := (s.table.roster.entries.getD p.srcPos {}).state
  match s.domainCheck o (s.memReach p) with
  | some e => .inl e
  | none =>
    if !rangeOk a len then .inl (.badArg, 0)
    else if !remoteRange a len || !fromTable o then .inl (.noAccess, 0)
    else if p.tenant = 0 then
      if !s.hostedFor p.srcPos a len then .inl (.noAccess, 0)
      else if wr && s.dev = .folded then .inl (.folded, 0)
      else .inr 0
    else if st ≠ 2 && st ≠ 3 then .inl (.noAccess, 0)
    else match s.peerWindow a len with
      | none => .inl (.noAccess, 0)
      | some (n, w) =>
        if (s.seat n).entry.tenant ≠ p.tenant then .inl (.tenantBlocked, 0)
        else if !(if wr then w.w else w.r) then .inl (.noAccess, 0)
        else .inr (slotOf (s.seat n).entry w.k)

/-- The data of a packet with the poison marks that its mask gives (11, Table 11-5). -/
def packetData (p : Packet) : List PByte :=
  p.data.zipIdx.map fun (b, i) => (b, p.ext.toNat.testBit (i / 64))

/-- The edge die by which a packet of an origin came. -/
def originDie (o : Nat) : Nat := if portDomain (originPort o) % 2 = 1 then 8 else 9

/-- A WRITE or READ_REQ waits while a link on its way to the memory, or for a read on the way back, has failed or asks for frames again (10, R297,
R299). -/
def State.requestWaits (s : State) (p : Packet) : Bool :=
  match s.takePacket p with
  | none => false
  | some (o, _) =>
    let d := memCd s.memory.bandMode (p.arg.toNat % 2 ^ 48)
    !s.messageClear (originDie o) d || (p.op == 3 && !s.messageClear d (originDie o))

/-- WRITE (11, R329; 12, R356, R357; 08, R241). -/
def execWrite (p : Packet) (s : State) : Res :=
  .next (if s.requestWaits p then s else s.onPacket p 1 fun s o =>
    match s.judgeRemote o p true p.data.length with
    | .inl (st, retry) => (s.noteGated o (s.memReach p) st).answerVia o p st retry
    | .inr slot => (s.writeSlot slot p.arg.toNat (packetData p)).answerVia o p .ok)

/-- READ_REQ (11, R329; 12, R356, R357; 08, R241). -/
def execReadReq (p : Packet) (s : State) : Res :=
  .next (if s.requestWaits p then s else s.onPacket p 3 fun s o =>
    match s.judgeRemote o p false p.reqLen with
    | .inl (st, retry) => (s.noteGated o (s.memReach p) st).answerVia o p st retry
    | .inr slot =>
      let bs := s.readSlot slot p.arg.toNat p.reqLen
      s.answerVia o p .ok 0 (plain bs) (poisonMask bs))

/-! ## Answers at the requester (08, R250 to R252; 09, R270 to R272) -/

/-- A status that the requester of a burst answers by sending the request again (00, R7). -/
def resends (st : Status) : Bool := retryable st

/-- TADD.Rs whose earlier remote writes have committed leave (09, R270). -/
def State.sendAdds (s : State) : State :=
  s.sync.remotes.foldl (fun s r =>
    let held := r.sent || r.after.any fun id => (s.opById id).any fun o => !o.fin
    if held then s
    else
      let mark := fun (q : RemoteAdd) => if q.tag = r.tag then { q with sent := true } else q
      let s := { s with sync := { s.sync with remotes := s.sync.remotes.map mark } }
      if r.table = s.table.id && r.slot = s.ownSlot then
        s.queueAdd 8 { tally := r.pkt.arg.toNat % 2 ^ 14, amount := r.pkt.arg.toNat / 2 ^ 32
                       src := .remote s.table.position r.inc, seat := none, reply := some (selfPort, r.pkt) }
      else s.sendTo r.table r.slot r.pkt r.cd) s

/-- WRITE_ACK: a remote burst has committed; a retryable refusal sends it again; any other ends it (08, R250, R251; 18, R534, R535;
the last is a design choice). -/
def execWriteAck (p : Packet) (s : State) : Res :=
  .next (s.onPacket p 2 fun s _ =>
    let st := statusOf p.status
    let n := p.tag.toNat - 0x4000
    if 0x4000 ≤ p.tag.toNat && p.tag.toNat < 0x5000 then
      if s.rel.epochs.any fun x => x.seat == n && x.waiting.isSome && x.buddy == p.srcPos then s.epochAck n st else s
    else match s.memory.bursts.find? fun b => burstTag b.id == p.tag && b.stage == 3 && !b.data.isEmpty with
      | none => s
      | some b =>
        if positionOf b.dst ≠ p.srcPos then s
        else if resends st then s.modBurst b.id fun b => { b with stage := 2 }
        else ((s.dropBurst b.id).settleDma b.op).sendAdds)

/-- READ_DATA: the data of a burst, of a deck, of a commit record or of a restore (08, R250, R252; 02, R45; 18, R534, R537). A refused
read of a burst is sent again when the status is retryable; otherwise its bytes are poisoned zeros (a design choice). -/
def execReadData (p : Packet) (s : State) : Res :=
  .next (s.onPacket p 4 fun s _ =>
    let st := statusOf p.status
    let k := p.tag.toNat
    let bs := packetData p
    if k = 0x2000 then s.deckData (if st = .ok then bs else List.replicate 4096 (0, true))
    else if 0x5000 ≤ k && k < 0x6000 then
      let n := k - 0x5000
      if s.rel.epochs.any fun x => x.seat == n && x.waiting.isSome && x.buddy == p.srcPos then
        if st = .ok then s.epochRecord n bs else s.abandonEpoch n st
      else s
    else if 0x6000 ≤ k && k < 0x8000 then
      if st = .ok then s.restoreData (k - 0x6000) bs else s.endRestore (k - 0x6000) st
    else match s.memory.bursts.find? fun b => burstTag b.id == p.tag && b.stage == 3 && b.data.isEmpty with
      | none => s
      | some b =>
        if positionOf b.src ≠ p.srcPos then s
        else if st = .ok then s.burstData p.tag bs
        else if resends st then
          match s.opById b.op with
          | none => s
          | some o => s.sendPacket { s.remoteReq o.seat 0x03 p.tag b.src 0 [] with reqLen := b.len } (eastOf o.cd)
        else s.burstData p.tag (List.replicate b.len (0, true)))

/-! ## Remote adds (09, section 9.6.1) -/

/-- The member seat that a group named on this package, and the incarnation recorded for it; a group of the id under another tenant
stands in when the packet's tenant has none (09, R271). -/
def State.memberSeat (s : State) (tenant id : Half) : Option (Nat × Option Quad) :=
  let own := fun (g : Group) => (g.seat, g.members[g.rank]?.bind (·.inc))
  match s.group tenant id with
  | some g => some (own g)
  | none =>
    match s.sync.gone.find? fun x => x.1 == tenant && x.2.1 == id with
    | some x => some (x.2.2.1, some x.2.2.2)
    | none => (s.groups.find? (·.id == id)).map own

/-- The checks on a remote add up to the sum itself, in order: a status, or the absolute tally (09, Table 9-3). -/
def State.judgeAdd (s : State) (p : Packet) : Status ⊕ Nat :=
  match s.memberSeat p.tenant p.group with
  | none => .inl .notFound
  | some (n, inc) =>
    let i := s.seat n
    let t := p.arg.toNat % 2 ^ 14
    if i.state = .free then .inl .notFound
    else if inc.any (· ≠ i.inc) then .inl .receiverReset
    else if i.entry.tenant ≠ p.tenant then .inl .tenantBlocked
    else if i.entry.pkgCount ≤ t then .inl .noAccess
    else .inr (i.entry.pkgBase + t)

/-- Refusals that Table 9-8 counts (09, R271). -/
def State.countRefused (s : State) (st : Status) : State :=
  match st with
  | .tenantBlocked => s.bump 0x610002 32
  | .receiverReset => s.bump 0x610003 32
  | _ => s

/-- TADD_PACKET (09, R271; R259, third source). -/
def execTaddPacket (p : Packet) (s : State) : Res :=
  .next (s.onPacket p 5 fun s o =>
    match s.refused o p {} with
    | some s => s
    | none =>
      match s.judgeAdd p with
      | .inl st => (s.countRefused st).answerVia o p st
      | .inr t => s.queueAdd 8 { tally := t, amount := p.arg.toNat / 2 ^ 32, src := .remote p.srcPos p.incarnation, seat := none
                                 reply := some (o, p) })

/-- TADD_STATUS: the status lands in sD; one that no TADD.R waits for is discarded and counted (09, R271, R272, R280). -/
def execTaddStatus (p : Packet) (s : State) : Res :=
  .next (s.onPacket p 6 fun s _ => s.statusBack p.tag (statusOf p.status))

/-- TADD.R (09, R270): the collective engine holds the add until the earlier remote writes of the CD's DMA engines to the member's
position have committed. A group or rank that the seat does not have gives ST_NOT_FOUND at once. An add to a member on this package
passes the checks of R271 here. -/
def execTaddR (i : Issue) (d : Dst) (group : Half) (rank : Src) (n : Nat) (amount : Src) (s : State) : Res :=
  .next (s.issue i 9 [d] (srcReg rank ++ srcReg amount) none fun s =>
    let c := i.cd.val
    let me := s.playSeat
    let r := (s.src c rank).toNat
    let a := (s.src c amount).toNat % 2 ^ 32
    let tag : Half := BitVec.ofNat 16 s.nextOp
    let wait := fun (s : State) (v : Option Status) =>
      (s.pend c { dst := d, src := .taddR, value := v.map fun x => (statusCode x).setWidth 64, done := doneOf i }).signalIssue i
    match s.groups.find? fun g => g.seat == me && g.id == group with
    | none => .run (wait s (some .notFound))
    | some g =>
      match g.members[r]? with
      | none => .run (wait s (some .notFound))
      | some m =>
        let here := m.table = s.table.id && m.slot = s.ownSlot
        let p : Packet := { op := 5, tag := tag, tenant := g.tenant, group := g.id, incarnation := (s.seat me).inc
                            arg := BitVec.ofNat 64 (a * 2 ^ 32 + n % 2 ^ 14) }
        let pos := if m.table = s.table.id then s.slotHolder m.slot else none
        let isTo := fun (o : Op) => (match o.unit with | .dma _ => true | _ => false) && o.cd == c && !o.fin
          && isRemote (o.vals.getD 1 0) && pos == some (positionOf (o.vals.getD 1 0))
        let add := fun (s : State) (p : Packet) =>
          let x : RemoteAdd := { tag := tag, seat := me, inc := (s.seat me).inc, cd := c, dst := d, after := (s.ops.filter isTo).map (·.id)
                                 table := m.table, slot := m.slot, pkt := p, since := s.now, pc := (s.seq c).ctx.pc }
          ({ s with nextOp := s.nextOp + 1, sync := { s.sync with remotes := s.sync.remotes ++ [x] } }).sendAdds
        if here then
          match s.judgeAdd p with
          | .inl st => .run (wait (s.countRefused st) (some st))
          | .inr t => .run (add (wait s none) { p with arg := BitVec.ofNat 64 (a * 2 ^ 32 + t) })
        else .run (add (wait s none) p))

/-! ## Messages, notices and unknown packets (11, R326, R329; 16, R474) -/

/-- An MBX request is complete: what waited for it goes on or ends (16, R474). -/
def State.endAsk (s : State) (pos : Nat) (q : Half) (st : Status) : State :=
  let s := { s with mgmt := { s.mgmt with asked := s.mgmt.asked.filter fun a => !(a.1 == q && a.2.1 == pos) } }
  s.dummyOpened q st

/-- MBX_PACKET (16, R474). A reply to another incarnation is dropped and counted; a request of a type that the package does not serve is
answered ST_UNSUPPORTED. -/
def execMbxPacket (m : MbxPacketMsg) (s : State) : Res :=
  .next (s.onMbx m.srcPos m.type.toNat m.sequence m.reply fun s =>
      let s := s.learnInc m.srcPos m.senderInc
      if m.notice then s
      else if m.reply then
        if m.receiverInc ≠ s.fw.pkgInc then s.bump 0x800305 64
        else if s.mgmt.asked.any fun a => a.1 == m.sequence && a.2.1 == m.srcPos then s.endAsk m.srcPos m.sequence m.status
        else s
      else if 0x0100 ≤ m.type.toNat && m.type.toNat ≤ 0x0102 then s
      else s.mbxReply m.srcPos m.type.toNat m.sequence m.senderInc
        (if m.receiverInc ≠ 0 && m.receiverInc ≠ s.fw.pkgInc then .peerReset else .unsupported))

/-- NOTICE: the operation of the group, or the MBX request, that it answers ends with its status; one that answers nothing is counted
and dropped (11, R329). A CREATE in progress sends its record again where the status is retryable (00, R7; log 84). -/
def execNotice (p : Packet) (s : State) : Res :=
  .next (s.onPacket p 0x0E fun s o =>
    let st := statusOf p.status
    let lost := fun (s : State) => { s with fab := { s.fab with unknown := s.fab.unknown + 1 } }
    if p.group = 0xFFFF then
      if s.mgmt.asked.any fun a => a.1 == p.tag && a.2.1 == p.srcPos then s.endAsk p.srcPos p.tag st else lost s
    else match s.group p.tenant p.group with
      | none => lost s
      | some g =>
        match g.colls with
        | c :: _ => s.failColl g c st
        | [] =>
          if g.creating.isSome then
            match (s.rankOf g o p).filter fun _ => resends st with
            | some r => s.sendRec g r recCreate { s.ownRec g 0 with hash := g.hash }
            | none => s.endCreate g st
          else s.failDeals g st)

/-- PACKET_UNKNOWN_OP: discarded whole and counted; a NOTICE with ST_UNSUPPORTED goes back (11, R326). -/
def execPacketUnknownOp (p : Packet) (s : State) : Res :=
  .next (
    if p.op = 0 || knownOp p.op then s
    else match s.takePacket p with
      | none => s
      | some (o, s) => ({ s with fab := { s.fab with unknown := s.fab.unknown + 1 } }).answerVia o p .unsupported)

end Sys2Proof.Machine
end

