-- ==== Sys2Proof/Machine/Deal.lean ====
section
/-! DEFINITION. The deal: descriptor, plan, the five phases, and the packets that carry counts and rows (06, sections 6.4 and
6.5). -/

namespace Sys2Proof.Machine

/-! ## The descriptor (06, Table 6-5) -/

structure DealDesc where
  group    : Nat
  members  : Nat
  rank     : Nat
  experts  : Nat
  local'   : Nat
  choices  : Nat
  tokens   : Nat
  capacity : Nat
  slack    : Nat
  fail     : Bool
  balance  : Bool
  twice    : Bool
  zmap     : Bool
  resultFormat : Byte
  tokenFormat  : Byte
  tokenBytes   : Nat
  resultBytes  : Nat
  rowsMax  : Nat
  routing  : Nat
  tokensBuf : Nat
  gathered : Nat
  results  : Nat
  staging  : Nat
  output   : Nat
  counts   : Nat
  block    : Nat
  zmapBase : Nat
deriving DecidableEq, Repr

def dealDesc (b : List Byte) : DealDesc :=
  let w := fun o => field b o 4
  let flags := field b 0x14 1
  { group := field b 0 2, members := field b 2 1, rank := field b 3 1, experts := field b 4 2, local' := field b 6 1
    choices := field b 7 1, tokens := w 8, capacity := w 0xC, slack := w 0x10, fail := bit flags 0, balance := bit flags 1
    twice := bit flags 2, zmap := bit flags 3, resultFormat := b.getD 0x15 0, tokenFormat := b.getD 0x16 0
    tokenBytes := w 0x18, resultBytes := w 0x1C, rowsMax := w 0x20, routing := w 0x24, tokensBuf := w 0x28
    gathered := w 0x2C, results := w 0x30, staging := w 0x34, output := w 0x38, counts := w 0x3C, block := w 0x40, zmapBase := w 0x44 }

/-- The hash of R173: 64 bits of the SHA-384 of the fields that must be equal, in their places; rank, tokens and reserved bits are 0. -/
def dealHash (b : List Byte) : Nat :=
  sha384 (b.take 3 ++ [0] ++ (b.drop 4).take 4 ++ zeros 4 ++ (b.drop 0xC).take 8 ++ [b.getD 0x14 0 &&& 0x0F] ++ (b.drop 0x15).take 2
    ++ [0] ++ (b.drop 0x18).take 0xC) % 2 ^ 64

/-- Bytes per element of a token row's format, its elements per row, and its blocks of 32 (06, R182). -/
def DealDesc.tokenBlocks (d : DealDesc) : Nat := (d.tokenBytes * 8 / max 1 (elemBits d.tokenFormat) + 31) / 32

/-- The ranges of Table 6-5, and R170 (06, R178). -/
def DealDesc.fieldsOk (d : DealDesc) : Bool :=
  decide (1 ≤ d.members && d.members ≤ 16 && d.rank < d.members && 1 ≤ d.experts && d.experts ≤ 1024 && 1 ≤ d.local' && d.local' ≤ 64)
    && decide (1 ≤ d.choices && d.choices ≤ 8 && d.tokens ≤ 65536)
    && (if d.twice then d.members % 2 == 0 && 2 * d.experts == d.members * d.local' else d.experts == d.members * d.local')
    && (d.resultFormat == 1 || d.resultFormat == 2) && (fmtOf d.tokenFormat).isSome && !isScaled d.tokenFormat
    && d.tokenBytes % 512 == 0 && decide (512 ≤ d.tokenBytes && d.tokenBytes ≤ 32768)
    && d.resultBytes % 512 == 0 && decide (512 ≤ d.resultBytes && d.resultBytes ≤ 65536) && d.block % 512 == 0

/-- The rules of a balanced deal (06, R186). -/
def DealDesc.balanceOk (d : DealDesc) (seatBit : Bool) : Bool :=
  !d.balance || (seatBit && d.twice && !d.zmap && d.slack == 0 && decide (d.local' * roundUp (2 * d.capacity) 32 ≤ d.rowsMax))

/-- The buffers of CD `c` with their lengths (06, R159, R164, R172). -/
def DealDesc.buffers (d : DealDesc) (c : Nat) : List (Nat × Nat) :=
  let n := dealLocal d.rowsMax c
  [(d.routing, d.tokens * d.choices * 8), (d.tokensBuf, d.tokens * d.tokenBytes), (d.gathered, n * d.tokenBytes),
   (d.results, n * d.resultBytes), (d.staging, d.tokens * d.choices * d.resultBytes),
   (d.output, d.tokens * d.resultBytes), (d.counts, 32 * d.members * d.experts), (d.block, 4096)]
    ++ (if d.zmap then [(d.zmapBase, (n + 31) / 32 * ((d.tokenBlocks + 63) / 64) * 8)] else [])

/-- Checks of a DEAL instruction at issue: its descriptor lies in the slab and carries no poison, its format codes are in Table 4-1 (04, R92),
and its buffers lie in the slab (06, R172; 08, Table 8-7). -/
def State.dealCheck (s : State) (c off : Nat) : Option State :=
  if slabSize < off + 128 then some (s.windowFault c off 128 0x105)
  else
    let raw := s.slabBytes c off 128
    if anyPoison raw then some (s.poisonHalt c (slabAddr c off) 9)
    else
      let d := dealDesc (plain raw)
      if (fmtOf d.tokenFormat).isNone || (fmtOf d.resultFormat).isNone then some (s.issueFault c 7)
      else ((d.buffers c).find? fun x => slabSize < x.1 + x.2).map fun x => s.windowFault c x.1 x.2 0x105

/-! ## The plan: what DEAL.CAP computes (06, R171, R180, R181, R187, R188) -/

/-- Shares of `limit` rows among sources with the given counts: floors, and one more for the largest remainders, ties to the lower
index (06, R180). -/
def shares (limit n : Nat) (counts : List Nat) : List Nat :=
  if n ≤ limit then counts
  else
    let fl := counts.map fun x => limit * x / n
    let left := limit - fl.foldl (· + ·) 0
    let rem := counts.map fun x => limit * x % n
    fl.zipIdx.map fun (f, i) =>
      let r := rem.getD i 0
      let before := (rem.zipIdx.filter fun (q, j) => r < q || (q == r && j < i)).length
      if before < left then f + 1 else f

/-- Capacity of one holder's local experts in ascending order: shares by expert, and whether one went beyond its limit (06, R180). -/
def capRows (capacity slack : Nat) (rows : List (List Nat)) : List (List Nat) × Bool :=
  let tot := fun (l : List Nat) => l.foldl (· + ·) 0
  let budget := rows.length * capacity - tot (rows.map fun l => min (tot l) capacity)
  let r := rows.foldl (fun (st : List (List Nat) × Nat × Bool) l =>
    let n := tot l
    let extra := min (min (n - capacity) slack) st.2.1
    (st.1 ++ [shares (capacity + extra) n l], st.2.1 - extra, st.2.2 || decide (capacity + extra < n))) ([], budget, false)
  (r.1, r.2.2)

/-- The first `x` of a list of shares, source by source, and the rest (06, R188). -/
def takeFirst (x : Nat) (l : List Nat) : List Nat × List Nat :=
  let a := (l.foldl (fun (st : List Nat × Nat) v => (st.1 ++ [min v st.2], st.2 - v)) ([], x)).1
  (a, (l.zip a).map fun (v, k) => v - k)

/-- First rows of one holder's copies: segments start on row groups (06, R180). -/
def placeRows (l : List (List Nat)) : List (List Nat × Nat) × Nat :=
  l.foldl (fun (st : List (List Nat × Nat) × Nat) a =>
    (st.1 ++ [(a, st.2)], st.2 + roundUp (a.foldl (· + ·) 0) 32)) ([], 0)

/-- `cnt s g` is the count matrix, `speed h` the speed figure of holder h. -/
def planOf (d : DealDesc) (cnt : Nat → Nat → Nat) (speed : Nat → Nat) : Plan :=
  let p := d.members
  let half := p / 2
  let col := fun (keep : Nat → Bool) (g : Nat) => (List.range (8 * p)).map fun s => if keep s then cnt s g else 0
  let locals := List.range d.local'
  let first := fun (s : Nat) => decide (s / 8 < half)
  let raw : List (List (List Nat)) × Bool :=
    if !d.twice then
      let r := (List.range p).map fun h => capRows d.capacity d.slack (locals.map fun e => col (fun _ => true) (h * d.local' + e))
      (r.map (·.1), r.any (·.2))
    else if !d.balance then
      let r := (List.range p).map fun h => capRows d.capacity d.slack
        (locals.map fun e => col (fun s => first s == decide (h < half)) (h % half * d.local' + e))
      (r.map (·.1), r.any (·.2))
    else
      let r := (List.range half).map fun h => capRows (2 * d.capacity) 0 (locals.map fun e => col (fun _ => true) (h * d.local' + e))
      let split : List (List (List Nat × List Nat)) := r.zipIdx.map fun ((x : List (List Nat) × Bool), h) => x.1.map fun (a : List Nat) =>
        let n := a.foldl (· + ·) 0
        let s1 := speed h
        let s2 := speed (h + half)
        if s1 = 0 || s2 = 0 then (a.zipIdx.map (fun (v, s) => if first s then v else 0), a.zipIdx.map (fun (v, s) => if first s then 0 else v))
        else takeFirst (n * s1 / (s1 + s2)) a
      (split.map (fun l => l.map (·.1)) ++ split.map (fun l => l.map (·.2)), r.any (·.2))
  let placed := raw.1.map placeRows
  { copies := placed.zipIdx.flatMap fun (x, h) => x.1.zipIdx.map fun (y, e) => { holder := h, expert := e, acc := y.1, first := y.2 }
    rows := placed.map (·.2)
    excess := (raw.2 && d.fail) || placed.any fun x => decide (d.rowsMax < x.2) }

/-- Expert of the layer that a copy holds. -/
def DealDesc.expertOf (d : DealDesc) (k : Copy) : Nat := (if d.twice then k.holder % (d.members / 2) else k.holder) * d.local' + k.expert

/-- One assignment: token, choice slot, expert, gate. -/
structure Assign where
  token  : Nat
  choice : Nat
  expert : Nat
  gate   : Quad
deriving DecidableEq, Repr

/-- The assignments of a CD's routing list, in order of token and choice, with the empty slots left out (06, R174). -/
def State.assigns (s : State) (c : Nat) (d : DealDesc) : List Assign :=
  (List.range (d.tokens * d.choices)).filterMap fun i =>
    let a := d.routing + 8 * i
    let e := s.slabField c a 2
    if e = 0xFFFF then none
    else some { token := i / d.choices, choice := i % d.choices, expert := e, gate := BitVec.ofNat 32 (s.slabField c (a + 4) 4) }

/-- `a` is kept before `b`: greater gate under totalOrder, then lower token, then lower choice (06, R181). -/
def Assign.before (a b : Assign) : Bool :=
  let x := ofF32 a.gate
  let y := ofF32 b.gate
  y.totalLt x || (!x.totalLt y && (a.token < b.token || (a.token == b.token && a.choice < b.choice)))

/-- Where source `src`'s kept assignments go: assignment, holder and gathered row (06, R181, R182, R188). -/
def placements (d : DealDesc) (pl : Plan) (src : Nat) (l : List Assign) : List (Assign × Nat × Nat) :=
  let mine := fun (e : Nat) => pl.copies.filter fun k => d.expertOf k == e
  let kept := l.filter fun a =>
    let quota := (mine a.expert).foldl (fun n k => n + k.acc.getD src 0) 0
    decide ((l.filter fun b => b.expert == a.expert && b.before a).length < quota)
  kept.filterMap fun a =>
    let i := (kept.filter fun b => b.expert == a.expert
      && (b.token < a.token || (b.token == a.token && b.choice < a.choice))).length
    ((mine a.expert).foldl (fun (st : Nat × Option (Assign × Nat × Nat)) k =>
      match st.2 with
      | some _ => st
      | none =>
        let n := k.acc.getD src 0
        if st.1 < n then (st.1, some (a, k.holder, k.first + ((k.acc.take src).foldl (· + ·) 0) + st.1)) else (st.1 - n, none))
      (i, none)).2

/-! ## Deals in progress -/

/-- The group and the deal of an operation: the seat's group that its descriptor names, and the deal that this CD is in. -/
def State.dealOf (s : State) (o : Op) : Option (Group × Option Deal) :=
  (s.groups.find? fun g => g.seat == o.seat && g.id == BitVec.ofNat 16 (field o.data 0 2) && g.tenant == (s.seat o.seat).entry.tenant
      && g.creating.isNone).map fun g =>
    (g, g.deals.find? fun d => d.ord == Tbl.get 0 g.counted o.cd)

/-- The group can carry deals: up to 16 members, all at this table (06, R170). -/
def State.dealGroup (s : State) (g : Group) : Bool :=
  decide (g.members.length ≤ 16) && g.members.all fun m => m.table == s.table.id

def Deal.src (d : Deal) (i : Nat) : Option DealSrc := Tbl.get none d.srcs i

/-- The plan that DEAL.CAP computes on a CD, from its count matrix and the speed figures of the exchange (06, R180, R188). -/
def State.capPlan (s : State) (d : Deal) (c : Nat) : Plan :=
  let k := dealDesc (d.cd c).desc
  planOf k (fun i e => s.slabField c (k.counts + 4 * (k.experts * i + e)) 4) (fun h => ((d.src (8 * h)).map (·.speed)).getD 0)

/-- The plan that a CD's DEAL.CAP has left. -/
def Deal.planOn (d : Deal) (c : Nat) : Plan := (d.cd c).plan.getD { copies := [], rows := [], excess := false }

/-- Where this CD's assignments go (06, R181, R182). The routing list is read again each time (DEDUCED, log 100). -/
def State.myPlaces (s : State) (g : Group) (d : Deal) (c : Nat) : List (Assign × Nat × Nat) :=
  let desc := dealDesc (d.cd c).desc
  placements desc (d.planOn c) (8 * g.rank + c) (s.assigns c desc)

/-- Offsets at which the 4 KiB pieces of a row of `n` bytes begin. -/
def pieces (n : Nat) : List Nat := (List.range ((n + 4095) / 4096)).map (· * 4096)

/-- Where row `r` of a deal-layout buffer lies: CD and slab offset (06, R164). -/
def dealAt (base rowBytes r : Nat) : Nat × Nat := (r / 32 % 8, base + (32 * (r / 256) + r % 32) * rowBytes)

/-! ## The exchange (06, R179) -/

/-- Sources of a group's deal. -/
def allSources (g : Group) : List Nat := List.range (8 * g.members.length)

/-- The group's seat plays: its deal units and collective engines have the slots of its phases. -/
def State.groupPlays (s : State) (g : Group) : Bool := s.play.any (·.seat == g.seat)

/-- DEAL.XCH on CD `c` writes the rows that have arrived to their places in its count matrix, each once, in the deal unit's slots (06, R179,
R184); after a failed phase of its own it writes none (R177). -/
def State.putRows (s : State) (tenant id : Half) (ord c : Nat) : State :=
  match (s.group tenant id).bind fun g => (g.deals.find? (·.ord == ord)).map fun d => (g, d) with
  | none => s
  | some (g, d) =>
    let k := dealDesc (d.cd c).desc
    let bad := (d.cd c).status != .ok
    if !(d.cd c).exch || !s.groupPlays g || !(bad || s.memOpen .deal (slabAddr c k.counts) (32 * k.members * k.experts)) then s
    else (allSources g).foldl (fun s i =>
      match d.src i with
      | some r =>
        if Tbl.get false (d.cd c).rowsIn i then s
        else (if bad then s else s.putSlab c (k.counts + 4 * k.experts * i) (good ((r.counts.take k.experts).flatMap (leBytes 4)))).modDeal g ord fun d =>
          d.modCd c fun x => { x with rowsIn := Tbl.set false x.rowsIn i true }
      | none => s) s

/-- Rows that have arrived go to every CD of the member that waits for them. -/
def State.putAllRows (s : State) (g : Group) (ord : Nat) : State := cds.foldl (fun s c => s.putRows g.tenant g.id ord c) s

/-- This CD's row enters the exchange: it is recorded here and sent to every other member. The tag names the CD and the low bits of the
sequence; arg carries the hash, ext[63:32] the speed figure. -/
def State.sendRow (s : State) (g : Group) (d : Deal) (c : Nat) (q : Quad) (r : DealSrc) : State :=
  let s := s.modDeal g d.ord fun d => { d with srcs := Tbl.set none d.srcs (8 * g.rank + c) (some r) }
  (List.range g.members.length).foldl (fun s i =>
    match g.members[i]? with
    | none => s
    | some m =>
      if i = g.rank then s
      else s.sendTo m.table m.slot
        { op := 9, status := statusCode r.status, tag := BitVec.ofNat 16 (q.toNat % 8192 * 8 + c), tenant := g.tenant, group := g.id
          incarnation := (s.seat g.seat).inc, arg := BitVec.ofNat 64 r.hash, ext := BitVec.ofNat 64 (r.speed * 2 ^ 32)
          data := r.counts.flatMap (leBytes 4) } c) s

/-- Records that were held for the sequence that a deal takes: a READY of another hash is a mismatch, which comes first, and an ABORT ends it (12,
R368, R371, R373). -/
def State.dealHeld (s : State) (g : Group) (d : Deal) (q : Quad) (hash : Nat) : State :=
  let aborts := g.aborts.filter fun r => r.sequence == q.toNat
  let early := g.early.filter fun r => r.sequence == q.toNat
  let s := s.modGroup g.tenant g.id fun g => { g with
    aborts := g.aborts.filter fun r => r.sequence ≠ q.toNat, early := g.early.filter fun r => r.sequence ≠ q.toNat }
  match heldEnd aborts early hash with
  | some r => if r.own then s.mismatchDeal g { d with seq := some q } r.rank else s.abortDeal g { d with seq := some q } r.status r.rank
  | none => s

/-- The deal takes the group's next sequence when its first DEAL.XCH begins (12, R367); rows and records that came early join it. -/
def State.openExchange (s : State) (g : Group) (d : Deal) (hash : Nat) : State × Quad :=
  match d.seq with
  | some q => (s, q)
  | none =>
    let q := g.seq + 1
    let s := s.modGroup g.tenant g.id fun g =>
      let mine : List (Nat × Nat × DealSrc) := g.rows.filter fun x => x.1 == q.toNat % 8192
      ({ g with seq := q, rows := g.rows.filter fun x => x.1 ≠ q.toNat % 8192 }).modDeal d.ord fun d =>
        { d with seq := some q, srcs := mine.foldl (fun (t : Tbl (Option DealSrc)) (x : Nat × Nat × DealSrc) => Tbl.set none t x.2.1 (some x.2.2)) d.srcs }
    (s.dealHeld g d q (hash % 2 ^ 32), q)

/-- DEAL.XCH begins on a CD (06, R179, R187). -/
def State.beginXch (s : State) (g : Group) (d : Deal) (c : Nat) : State :=
  let desc := (d.cd c).desc
  let k := dealDesc desc
  let (s, q) := s.openExchange g d (dealHash desc)
  let sp := Tbl.get (0, 0) g.speeds 0
  let speed := if k.balance && sp.2 ≠ 0 then min (1000 * sp.1 / sp.2) (maxOf 32) else 0
  let row := (List.range k.experts).map fun e => s.slabField c (k.counts + 4 * (k.experts * (8 * g.rank + c) + e)) 4
  let st := (d.cd c).status
  let s := if st = .ok then s.putSlab c (k.block + 0x10) (good (leBytes 8 q.toNat ++ leBytes 4 speed)) else s
  let s := s.sendRow g d c q { counts := if st = .ok then row else [], status := st, hash := dealHash desc, speed := speed }
  (s.modDeal g d.ord fun d => d.modCd c fun x => { x with exch := true }).putRows g.tenant g.id d.ord c

/-! ## Row packets (06, R182, R183; 12, R374) -/

/-- A piece of a row goes to a member: arg holds the low 16 bits of the sequence, the combine bit, and the offset of the piece in the
holder's gathered or results buffer; ext carries poison marks. -/
def State.sendPiece (s : State) (g : Group) (q : Quad) (c to' : Nat) (combine : Bool) (off : Nat) (bs : List PByte) : State :=
  match g.members[to']? with
  | none => s
  | some m => s.sendTo m.table m.slot
      { op := 0xA, tag := BitVec.ofNat 16 c, tenant := g.tenant, group := g.id, incarnation := (s.seat g.seat).inc
        arg := BitVec.ofNat 64 (q.toNat % 65536 * 2 ^ 48 + b2n combine * 2 ^ 47 + off % 2 ^ 47)
        ext := BitVec.ofNat 64 (poisonMask bs), data := plain bs } c

/-- Where the piece of a gathered row at `off` = row × token_bytes + offset in the row lands on the holder: CD and slab offset (06, R164,
R182). -/
def DealDesc.gatherAt (k : DealDesc) (off len : Nat) : Option (Nat × Nat) :=
  let r := off / k.tokenBytes
  if k.rowsMax ≤ r || k.tokenBytes < off % k.tokenBytes + len then none
  else
    let (c, a) := dealAt k.gathered k.tokenBytes r
    some (c, a + off % k.tokenBytes)

/-- Where the piece of a result row of `holder` lands at its source: CD and place in the staging buffer (06, R183). -/
def State.resultAt (s : State) (g : Group) (d : Deal) (k : DealDesc) (holder off len : Nat) : Option (Nat × Nat) :=
  let r := off / k.resultBytes
  let o := off % k.resultBytes
  if k.resultBytes < o + len then none
  else cds.findSome? fun c =>
    ((s.myPlaces g d c).find? fun x => x.2.1 == holder && x.2.2 == r).map fun x => (c, (x.1.token * k.choices + x.1.choice) * k.resultBytes + o)

/-- CD and slab offset of a piece that lands on this member. -/
def State.rowAt (s : State) (g : Group) (d : Deal) (k : DealDesc) (holder : Nat) (combine : Bool) (off len : Nat) : Option (Nat × Nat) :=
  if combine then (s.resultAt g d k holder off len).map fun x => (x.1, k.staging + x.2) else k.gatherAt off len

/-- A piece has been written: the deal knows it by its place (06, R182, R183). -/
def State.noteRow (s : State) (g : Group) (d : Deal) (k : DealDesc) (c : Nat) (combine : Bool) (at' off : Nat) : State :=
  s.modDeal g d.ord fun d =>
    if combine then { d with gotC := Tbl.set false d.gotC (c * 2 ^ 40 + (at' - k.staging)) true } else { d with gotG := Tbl.set false d.gotG off true }

/-- A piece of a row lands at its fixed place (06, R182, R183). -/
def State.landRow (s : State) (g : Group) (d : Deal) (k : DealDesc) (holder : Nat) (combine : Bool) (off : Nat) (bs : List PByte) : State :=
  match s.rowAt g d k holder combine off bs.length with
  | none => s
  | some (c, a) => (s.putSlab c a bs).noteRow g d k c combine a off

/-- A piece from another member can land: the deal unit of its CD owns slots on the IPS link and on the slab port (06, R184). -/
def State.rowLands (s : State) (g : Group) (d : Deal) (k : DealDesc) (holder : Nat) (combine : Bool) (off len : Nat) : Bool :=
  match s.rowAt g d k holder combine off len with
  | none => true
  | some (c, a) => s.groupPlays g && s.memOpen .deal (slabAddr c a) len && s.routeOpen .deal true (edgeOf c) c

/-- A row that leaves a CD: destination rank, slab offset, gathered row. -/
abbrev RowOut := Nat × Nat × Nat

/-- Send every piece of a row: to another member in a packet, inside the package as a burst (06, R182 to R184; 08, R237, R251). -/
def State.rowOut (s : State) (g : Group) (d : Deal) (op : Nat) (k : DealDesc) (c : Nat) (combine : Bool) (x : RowOut) : State :=
  let n := if combine then k.resultBytes else k.tokenBytes
  (pieces n).foldl (fun s o =>
    let len := min 4096 (n - o)
    let bs := s.slabBytes c (x.2.1 + o) len
    let off := x.2.2 * n + o
    if x.1 ≠ g.rank then s.sendPiece g (d.seq.getD 0) c x.1 combine off bs
    else match s.rowAt g d k g.rank combine off len with
      | none => s
      | some (e, a) =>
        let hops := hopsOf false c e
        let b : Burst :=
          { id := s.nextOp, op := op, src := slabAddr c (x.2.1 + o), dst := slabAddr e a, len := len, data := bs
            stage := if hops.isEmpty then 2 else 1, hops := hops
            row := some { tenant := g.tenant, group := g.id, deal := d.ord, combine := combine, off := off } }
        { s with nextOp := s.nextOp + 1, memory := { s.memory with bursts := s.memory.bursts ++ [b] } }) s

/-- A CD's deal unit owns slots where the rows that it sends lie and, for another member's, on its IPS link (06, R184). -/
def State.rowsOpen (s : State) (g : Group) (c len : Nat) (l : List RowOut) : Bool :=
  l.all fun x => s.memOpen .deal (slabAddr c x.2.1) len && (x.1 == g.rank || s.routeOpen .deal true c (edgeOf c))

/-- The token rows that DEAL.GTH sends from a CD (06, R182). -/
def State.gthRows (s : State) (g : Group) (d : Deal) (c : Nat) : List RowOut :=
  let k := dealDesc (d.cd c).desc
  (s.myPlaces g d c).map fun x => (x.2.1, k.tokensBuf + x.1.token * k.tokenBytes, x.2.2)

/-- The source rank of a holder's gathered row; none for a pad row. -/
def Plan.sourceOf (pl : Plan) (holder row : Nat) : Option Nat :=
  pl.copies.findSome? fun k =>
    if k.holder ≠ holder || row < k.first then none
    else
      let i := row - k.first
      ((List.range k.acc.length).find? fun s => i < ((k.acc.take (s + 1)).foldl (· + ·) 0)).map (· / 8)

/-- The result rows of a CD that DEAL.CMB returns to their sources (06, R183). -/
def State.cmbRows (g : Group) (d : Deal) (c : Nat) : List RowOut :=
  let k := dealDesc (d.cd c).desc
  let pl := d.planOn c
  ((List.range (pl.rows.getD g.rank 0)).filter fun r => r / 32 % 8 == c).filterMap fun r =>
    (pl.sourceOf g.rank r).map fun to' => (to', (dealAt k.results k.resultBytes r).2, r)

/-- What a phase sends from a CD, with the bytes of a row. -/
def State.phaseRows (s : State) (g : Group) (d : Deal) (c phase : Nat) : Nat × List RowOut :=
  let k := dealDesc (d.cd c).desc
  if phase = 4 then (k.tokenBytes, s.gthRows g d c) else if phase = 5 then (k.resultBytes, State.cmbRows g d c) else (0, [])

/-- The deal unit owns the slots that the phase needs to begin: for the exchange those of its row and matrix, then those of the rows that it
sends (06, R184). -/
def State.phaseOpen (s : State) (g : Group) (d : Deal) (c phase : Nat) : Bool :=
  let k := dealDesc (d.cd c).desc
  if phase = 2 then (d.cd c).status != .ok || s.partsOpen .deal c [(k.counts, 32 * k.members * k.experts), (k.block, 32)]
  else let r := s.phaseRows g d c phase; s.rowsOpen g c r.1 r.2

/-- The phase at the head of a CD's deal unit begins, once it owns the slots that it needs: what it sends leaves (06, R179, R182 to R184).
`vals` of the operation are the value of cyc at issue and, once begun, 1. -/
def State.dealBegin (s : State) (c : Nat) : State :=
  match s.headOp c .deal with
  | none => s
  | some o =>
    if 2 ≤ o.vals.length then s
    else match s.dealOf o with
      | some (g, some d) =>
        let k := d.cd c
        let ph := dealPhase o.instr
        if k.phase + 1 ≠ ph || k.closed || k.fail.isSome || g.broken || g.spent || !s.dealGroup g || (ph ≠ 2 && k.status ≠ .ok) then s
        else if ph = 3 || !s.phaseOpen g d c ph then s
        else
          let s := s.modOp o.id fun o => { o with vals := o.vals ++ [1] }
          if ph = 2 then s.beginXch g d c
          else (s.phaseRows g d c ph).2.foldl (fun s x => s.rowOut g d o.id (dealDesc k.desc) c (ph == 5) x) s
      | _ => s

/-! ## Phases end (06, R177 to R183) -/

/-- What DEAL.CNT's check of its descriptor gives: the status that the deal already has here, else that of Table 6-5, R170, R186 and R479. -/
def State.cntCheck (s : State) (g : Group) (o : Op) : Status :=
  let k := dealDesc o.data
  let old := ((g.deals.find? fun d => d.ord == Tbl.get 0 g.counted o.cd + 1).map fun d => (d.cd o.cd).status).getD .ok
  if old ≠ .ok then old
  else if !k.fieldsOk || !k.balanceOk (s.seat o.seat).entry.balance || !s.dealGroup g || k.members ≠ g.members.length || k.rank ≠ g.rank then
    .badArg
  else if k.balance && g.revision < 6 then .unsupported
  else .ok

/-- DEAL.CNT (06, R178; 16, R479): the deal block is zeroed, the descriptor checked, and the assignments counted. -/
def State.endCnt (s : State) (g : Group) (o : Op) : State :=
  let c := o.cd
  let n := Tbl.get 0 g.counted c + 1
  let k := dealDesc o.data
  let fresh : Deal := { ord := n }
  let st := s.cntCheck g o
  let s := s.modGroup g.tenant g.id fun g =>
    ({ g with
      counted := Tbl.set 0 g.counted c n
      deals := if g.deals.any (·.ord == n) then g.deals else g.deals ++ [fresh] }).modDeal n fun d =>
        d.modCd c fun x => { x with desc := o.data }
  match (s.group g.tenant g.id).bind fun g => (g.deals.find? fun d => d.ord == n).map fun d => (g, d) with
  | none => s
  | some (g, d) =>
    let s := s.putSlab c k.block (good (zeros 4096))
    let as := s.assigns c k
    if st ≠ .ok then s.endPhase g d c 1 o.id st
    else if anyPoison (s.slabBytes c k.routing (8 * k.tokens * k.choices)) then (s.dropOps [o.id]).poisonHalt c (slabAddr c k.routing) 9
    else if as.any fun a => k.experts ≤ a.expert then s.endPhase g d c 1 o.id .badArg
    else
      let row := (List.range k.experts).flatMap fun e => leBytes 4 (as.filter fun a => a.expert == e).length
      let s := s.putSlab c (k.counts + 4 * k.experts * (8 * g.rank + c)) (good row)
      (s.putSlab c (k.block + 4) (good (leBytes 4 k.tokens))).endPhase g d c 1 o.id .ok

/-- The lowest rank whose row has another hash. -/
def Deal.lowestBad (d : Deal) (g : Group) (own : Nat) : Nat :=
  lowest (((allSources g).filter fun i => (d.src i).any (·.hash ≠ own)).map (· / 8))

/-- The end of DEAL.XCH, when every row is present (06, R173, R177, R179): the failing source with the lowest index gives the status, then a
difference of hashes. -/
def State.endXch (s : State) (g : Group) (d : Deal) (c op : Nat) : State :=
  let rows := (allSources g).map d.src
  let own := dealHash (d.cd c).desc
  let bad := rows.findSome? fun r => r.bind fun x => if x.status = .ok then none else some x.status
  let differs := rows.any fun r => r.any fun x => x.hash ≠ own
  match bad with
  | some st => s.endPhase g d c 2 op st
  | none =>
    if differs then (s.spendGroup g (d.seq.getD 0) (d.lowestBad g own)).endPhase g d c 2 op .mismatch
    else s.endPhase g d c 2 op .ok

/-- DEAL.CAP (06, R180, R185): the plan is computed from the CD's count matrix, and kept. -/
def State.endCap (s : State) (g : Group) (d : Deal) (c op : Nat) : State :=
  let k := dealDesc (d.cd c).desc
  if anyPoison (s.slabBytes c k.counts (32 * k.members * k.experts)) then (s.dropOps [op]).poisonHalt c (slabAddr c k.counts) 9
  else
    let pl := s.capPlan d c
    let keep := fun (d : Deal) => d.modCd c fun x => { x with plan := some pl }
    let s := s.modDeal g d.ord keep
    let mine := pl.copies.filter fun x => x.holder == g.rank
    let s := s.putSlab c (k.block + 0x80) (good (mine.flatMap fun x => leBytes 8 (x.acc.foldl (· + ·) 0)))
    let s := s.putSlab c (k.block + 0x280) (good (mine.flatMap fun x => leBytes 8 x.first))
    let dropped := (s.assigns c k).length - (s.myPlaces g (keep d) c).length
    let s := s.putSlab c (k.block + 8) (good (leBytes 4 dropped ++ leBytes 4 (pl.rows.getD g.rank 0)))
    s.endPhase g d c 3 op (if pl.excess then .overflow else .ok)

/-- A DEAL_ROW packet of a group and CD has not yet been acknowledged: it waits, or lies in a replay buffer. -/
def State.rowsOut (s : State) (g : Group) (c : Nat) : Bool :=
  let mine := fun (p : Packet) => p.op == 0xA && p.tenant == g.tenant && p.group == g.id && p.tag == BitVec.ofNat 16 c
  s.fab.out.any (fun o => mine o.pkt) || s.fab.ports.any fun e => (unsentPackets e.2).any mine

/-- The gathered row groups of a CD with their zero map: bit j is 1 when every element of block j in every row of the group is a zero (06,
R159, R182). -/
def State.writeZmap (s : State) (pl : Plan) (desc : DealDesc) (rank c : Nat) : State :=
  let n := pl.rows.getD rank 0
  let words := (desc.tokenBlocks + 63) / 64
  let b := elemBits desc.tokenFormat
  let count := desc.tokenBytes * 8 / b
  let zero := fun (r j : Nat) =>
    (pl.sourceOf rank r).isNone || (List.range (min 32 (count - 32 * j))).all fun i =>
      let a := (dealAt desc.gathered desc.tokenBytes r).2
      (decodeElem desc.tokenFormat (bitField (fun x => (s.slabByte c x).1) (a * 8 + (32 * j + i) * b) b)).isZero
  ((List.range (n / 32)).filter fun q => q % 8 == c).foldl (fun s q =>
    (List.range words).foldl (fun s w =>
      let v := ((List.range (min 64 (desc.tokenBlocks - 64 * w))).filter fun i =>
        (List.range 32).all fun r => zero (32 * q + r) (64 * w + i)).foldl (fun m i => m + 2 ^ i) 0
      s.putSlab c (desc.zmapBase + (q / 8 * words + w) * 8) (good (leBytes 8 v))) s) s

/-- DEAL.GTH can end: every row for this CD has arrived and every row from it is acknowledged or committed (06, R182). -/
def State.gthDone (s : State) (g : Group) (d : Deal) (c op : Nat) : Bool :=
  let k := dealDesc (d.cd c).desc
  let pl := d.planOn c
  let mine := (List.range (pl.rows.getD g.rank 0)).filter fun r => r / 32 % 8 == c && (pl.sourceOf g.rank r).isSome
  !(mine.any (fun r => (pieces k.tokenBytes).any fun o => !Tbl.get false d.gotG (r * k.tokenBytes + o)) || s.rowsOut g c
      || s.memory.bursts.any (·.op == op))

/-- The end of DEAL.GTH (06, R182). -/
def State.endGth (s : State) (g : Group) (d : Deal) (c op : Nat) : State :=
  let k := dealDesc (d.cd c).desc
  let s := if k.zmap then s.writeZmap (d.planOn c) k g.rank c else s
  (s.modDeal g d.ord fun d => d.modCd c fun x => { x with gthEnd := (s.seq c).ctx.cyc }).endPhase g d c 4 op .ok

/-- One output row of DEAL.CMB: terms by ascending expert, then choice slot (06, R183). -/
def State.combineRow (s : State) (c : Nat) (k : DealDesc) (token : Nat) (kept : List Assign) : List (Conved × Bool) :=
  let size := if k.resultFormat = 1 then 4 else 2
  let order := (List.range k.experts).flatMap fun e => kept.filter fun a => a.expert == e
  (List.range (k.resultBytes / size)).map fun i =>
    let r := order.foldl (fun (st : Option Num × Bool) a =>
      let off := k.staging + (token * k.choices + a.choice) * k.resultBytes + i * size
      let bs := s.slabBytes c off size
      let term := rne32 ((ofF32 a.gate).mul (decodeElem k.resultFormat (leNat (plain bs))))
      (some (match st.1 with | none => term | some v => faddRne v term), st.2 || anyPoison bs)) (none, false)
    (convert k.resultFormat {} 0 (r.1.getD (.fin false 0 1)), r.2)

/-- DEAL.CMB can end: every expected row has arrived, and every row from it has left (06, R183). -/
def State.cmbDone (s : State) (g : Group) (d : Deal) (c op : Nat) : Bool :=
  let k := dealDesc (d.cd c).desc
  let kept := (s.myPlaces g d c).map (·.1)
  let got := fun (a : Assign) (p : Nat) => Tbl.get false d.gotC (c * 2 ^ 40 + (a.token * k.choices + a.choice) * k.resultBytes + p)
  !((kept.any fun a => (pieces k.resultBytes).any fun p => !got a p) || s.memory.bursts.any (·.op == op))

/-- The end of DEAL.CMB: the output rows are formed and written, and the figures of a balanced deal are kept (06, R183, R187). -/
def State.endCmb (s : State) (g : Group) (d : Deal) (c : Nat) (o : Op) : State :=
  let k := dealDesc (d.cd c).desc
  let kept := (s.myPlaces g d c).map (·.1)
  let size := if k.resultFormat = 1 then 4 else 2
  let s := (List.range k.tokens).foldl (fun s t =>
    let row := s.combineRow c k t (kept.filter fun a => a.token == t)
    let s := s.putSlab c (k.output + t * k.resultBytes) (row.flatMap fun x => (leBytes size x.1.code).map fun b => (b, x.2))
    row.foldl (fun s x => s.countConv c 0 x.1.under x.1.sat x.1.nan) s) s
  let cycles := (BitVec.ofNat 64 (o.vals.headD 0) - (d.cd c).gthEnd).toNat
  let s := if k.balance then s.modGroup g.tenant g.id fun g =>
      { g with speeds := Tbl.set (0, 0) g.speeds c ((d.planOn c).rows.getD g.rank 0, cycles) } else s
  let s := s.endPhase g d c 5 o.id .ok
  match s.group g.tenant g.id with
  | some g => s.dropDeals g
  | none => s

/-- A phase that no deal backs: DEAL.CNT zeroes the deal block, status and phase are written, and the operation ends with ST_BAD_ARG (06,
R175, R176, R178). -/
def State.strayPhase (s : State) (o : Op) : State :=
  let s := if dealPhase o.instr = 1 then s.putSlab o.cd (blockOff o.data) (good (zeros 4096)) else s
  (s.putSlab o.cd (blockOff o.data) (good [statusCode .badArg, BitVec.ofNat 8 (dealPhase o.instr)])).finOp o.id

/-- How the phase at the head of a deal unit ends. -/
inductive DealEnd where
  /-- no deal backs it: none has begun on the CD, or the last one is complete (06, R176) -/
  | stray
  /-- a DEAL.CNT that begins a deal -/
  | count (g : Group)
  /-- it ends with a status and no other effect (06, R176, R177) -/
  | fail (g : Group) (d : Deal) (st : Status)
  /-- all that it waits for is there -/
  | finish (g : Group) (d : Deal)
  /-- not yet -/
  | wait

/-- How the phase of an operation ends, slots apart (06, R176 to R183): one out of order ends with ST_BAD_ARG, which the deal keeps. -/
def State.dealEnd (s : State) (o : Op) : DealEnd :=
  let ph := dealPhase o.instr
  match s.dealOf o with
  | none => .stray
  | some (g, none) => if ph = 1 then .count g else .stray
  | some (g, some d) =>
    let k := d.cd o.cd
    if k.closed then (if ph = 1 then .count g else .stray)
    else if k.phase + 1 ≠ ph then .fail g d (if k.status = .ok then .badArg else k.status)
    else match k.fail with
      | some st => .fail g d st
      | none =>
        if g.broken then .fail g d (if k.status = .ok then .peerReset else k.status)
        else if k.status ≠ .ok && (ph ≠ 2 || !s.dealGroup g) then .fail g d k.status
        else if g.spent then .fail g d .mismatch
        else if ph ≠ 3 && o.vals.length < 2 then .wait
        else
          let done := if ph = 2 then (allSources g).all fun i => Tbl.get false k.rowsIn i
            else if ph = 3 then true else if ph = 4 then s.gthDone g d o.cd o.id else s.cmbDone g d o.cd o.id
          if done then .finish g d else .wait

/-- Slab bytes that the end of a phase reads and writes (06, R184, Table 6-8). -/
def State.endParts (s : State) (o : Op) : DealEnd → List (Nat × Nat)
  | .wait => []
  | .stray => if dealPhase o.instr = 1 then [(blockOff o.data, 4096)] else [blockFields o.data]
  | .fail _ d _ => [blockFields (d.cd o.cd).desc]
  | .count g =>
    let k := dealDesc o.data
    (k.block, 4096) :: (if s.cntCheck g o = .ok then
      [(k.routing, 8 * k.tokens * k.choices), (k.counts + 4 * k.experts * (8 * g.rank + o.cd), 4 * k.experts)] else [])
  | .finish g d =>
    let k := dealDesc (d.cd o.cd).desc
    let n := dealLocal ((d.planOn o.cd).rows.getD g.rank 0) o.cd
    match dealPhase o.instr with
    | 3 => [(k.counts, 32 * k.members * k.experts), (k.block, 0x480)]
    | 4 => (k.block, 2) :: (if k.zmap then
        [(k.gathered, n * k.tokenBytes), (k.zmapBase, (n + 31) / 32 * ((k.tokenBlocks + 63) / 64) * 8)] else [])
    | 5 => [(k.block, 2), (k.staging, k.tokens * k.choices * k.resultBytes), (k.output, k.tokens * k.resultBytes)]
    | _ => [(k.block, 2)]

/-- The phase at the head of a CD's deal unit ends, if what it waits for is there and the unit owns the slots (06, R176 to R184). -/
def State.dealTry (s : State) (c : Nat) : State :=
  let s := s.dealBegin c
  let s := match s.headOp c .deal with
    | some o => match s.dealOf o with
      | some (g, some d) => s.putRows g.tenant g.id d.ord c
      | _ => s
    | none => s
  match s.headOp c .deal with
  | none => s
  | some o =>
    let e := s.dealEnd o
    let ph := dealPhase o.instr
    if o.fin || !s.partsOpen .deal c (s.endParts o e) then s
    else match e with
      | .wait => s
      | .stray => s.strayPhase o
      | .count g => s.endCnt g o
      | .fail g d st => s.endPhase g d c ph o.id st
      | .finish g d =>
        if ph = 2 then s.endXch g d c o.id else if ph = 3 then s.endCap g d c o.id
        else if ph = 4 then s.endGth g d c o.id else s.endCmb g d c o

/-- A deal unit waits for slots: its phase has not begun, or cannot end, for want of them, or a row of it inside the package cannot go on (03,
R79; 06, R184). -/
def State.dealStuck (s : State) (c : Nat) (o : Op) : Bool :=
  !s.partsOpen .deal c (s.endParts o (s.dealEnd o))
    || (match s.dealEnd o, s.dealOf o with
      | .wait, some (g, some d) =>
        let late := dealPhase o.instr = 2 && (allSources g).any fun i => (d.src i).isSome && !Tbl.get false (d.cd c).rowsIn i
        (o.vals.length < 2 || late) && !s.phaseOpen g d c (dealPhase o.instr)
      | _, _ => false)
    || s.memory.bursts.any fun b => b.op == o.id && ((b.stage == 1 && !s.linkOpen b) || (b.stage == 2 && !s.memOpen .deal b.dst b.len))

/-! ## Rows of the table -/

/-- Issue of a DEAL instruction (06, R172, R176). -/
def State.dealIssue (s : State) (i : Issue) (ins : Instr) (desc : Nat) : State :=
  let c := i.cd.val
  s.issueOp i 7 [] [] .deal ins (fun s => s.dealCheck c desc) (fun _ => false) (fun s => s.dealBegin c)
    (fun s => plain (s.slabBytes c desc 128)) (fun s => [(s.seq c).ctx.cyc.toNat])

def execDealCnt (i : Issue) (desc : Nat) (s : State) : Res := .next (s.dealIssue i (.dealCnt i desc) desc)
def execDealXch (i : Issue) (desc : Nat) (s : State) : Res := .next (s.dealIssue i (.dealXch i desc) desc)
def execDealCap (i : Issue) (desc : Nat) (s : State) : Res := .next (s.dealIssue i (.dealCap i desc) desc)
def execDealGth (i : Issue) (desc : Nat) (s : State) : Res := .next (s.dealIssue i (.dealGth i desc) desc)
def execDealCmb (i : Issue) (desc : Nat) (s : State) : Res := .next (s.dealIssue i (.dealCmb i desc) desc)

/-- The member's seat has the incarnation that CREATE recorded; another one breaks the group (12, R365). -/
def State.sameMember (s : State) (g : Group) (r : Nat) (inc : Quad) : Option State :=
  match g.members[r]?.bind (·.inc) with
  | some k => if k = inc then none else some (s.breakGroup g)
  | none => none

/-- DEAL_COUNT: a source's row joins the exchange of its sequence, or waits for it; the sequence of a collective of this member with another
hash is a mismatch (06, R179; 12, R368, R370, R371). -/
def execDealCount (p : Packet) (s : State) : Res :=
  .next (s.onPacket p 9 fun s o =>
    match s.refused o p dealReach with
    | some s => s
    | none =>
    match s.group p.tenant p.group with
    | none => s.answerVia o p .notFound
    | some g =>
      match s.rankOf g o p with
      | none => s.answerVia o p .notFound
      | some r =>
        match s.sameMember g r p.incarnation with
        | some s => s
        | none =>
          let q := p.tag.toNat / 8
          let src := 8 * r + p.tag.toNat % 8
          let row : DealSrc := { counts := (List.range (p.data.length / 4)).map fun i => field p.data (4 * i) 4
                                 status := statusOf p.status, hash := p.arg.toNat, speed := p.ext.toNat / 2 ^ 32 }
          match g.deals.find? fun d => d.seq.any fun x => x.toNat % 8192 == q with
          | some d => (s.modDeal g d.ord fun d => { d with srcs := Tbl.set none d.srcs src (some row) }).putAllRows g d.ord
          | none =>
          match g.colls.find? fun k => k.seq.toNat % 8192 == q with
          | some k => if row.hash % 2 ^ 32 = k.hash then s else s.failColl g k .mismatch r
          | none =>
            let ahead := (q + 8192 - g.seq.toNat % 8192) % 8192
            if ahead = 0 || 4096 ≤ ahead then s
            else s.modGroup g.tenant g.id fun g => { g with rows := g.rows ++ [(q, src, row)] })

/-- The row that a DEAL_ROW packet carries has no slot to land in yet: the packet waits (03, R79; 06, R184). -/
def State.rowWaits (s : State) (p : Packet) : Bool :=
  let v := p.arg.toNat
  match s.takePacket p, s.group p.tenant p.group with
  | some (o, _), some g =>
    (s.rankOf g o p).any fun r => (g.deals.find? fun d => d.seq.any fun x => x.toNat % 65536 == v / 2 ^ 48).any fun d =>
      (d.cds.find? fun e => !e.2.desc.isEmpty).any fun e => !s.rowLands g d (dealDesc e.2.desc) r (bit v 47) (v % 2 ^ 47) p.data.length
  | _, _ => false

/-- DEAL_ROW: a piece of a gathered or combined row lands at its fixed place; one of another sequence is discarded (06, R182,
R183). -/
def execDealRow (p : Packet) (s : State) : Res :=
  .next (if s.rowWaits p then s else s.onPacket p 0xA fun s o =>
    match s.refused o p dealReach with
    | some s => s
    | none =>
    match s.group p.tenant p.group with
    | none => s.answerVia o p .notFound
    | some g =>
      match s.rankOf g o p with
      | none => s.answerVia o p .notFound
      | some r =>
        match s.sameMember g r p.incarnation with
        | some s => s
        | none =>
          let v := p.arg.toNat
          match g.deals.find? fun d => d.seq.any fun x => x.toNat % 65536 == v / 2 ^ 48 with
          | none => s
          | some d =>
            match d.cds.find? fun e => !e.2.desc.isEmpty with
            | none => s
            | some e =>
              let desc := dealDesc e.2.desc
              s.landRow g d desc r (bit v 47) (v % 2 ^ 47) (packetData p))

end Sys2Proof.Machine
end

