-- ==== Sys2Proof/Machine/Spine.lean ====
section
/-! DEFINITION. The spine transport and its connections (11, section 11.7; 12, section 12.6; 19, R558). -/

namespace Sys2Proof.Machine

/-- `a` lies at or behind `b` in 32-bit serial order. -/
def serialLe (a b : Nat) : Bool := decide ((b + 2 ^ 32 - a) % 2 ^ 32 < 2 ^ 31)

def isSpine (n : Nat) : Bool := 64 ≤ n && n < 72

/-- A frame is discarded and counted (11, R334, R336, Table 11-11). -/
def State.discardFrame (s : State) (port : Nat) : State := s.bump (portObj port 7) 64

def State.modConn (s : State) (id : Nat) (f : Conn → Conn) : State :=
  match s.conn id with
  | none => s
  | some c => s.setConn id (some (f c))

/-! ## Keys (19, R558) -/

/-- The generation under which a frame is read, and its sets: the present one, or the next, whose set is derived in advance. -/
def Conn.readGen (c : Conn) (ph : Bool) : Nat := if ph = (c.rxGen % 2 == 1) then c.rxGen else c.rxGen + 1
def Conn.readSets (c : Conn) (ph : Bool) : List Byte := if ph = (c.rxGen % 2 == 1) then c.rxSets else nextSets c.rxSets (c.rxGen + 1)
/-- A frame of a phase has passed its tag: an older set is discarded. -/
def Conn.reads (c : Conn) (ph : Bool) : Conn := { c with rxGen := c.readGen ph, rxSets := c.readSets ph }

/-- The value nearest `e` whose low 32 bits are `p` (11, R335). -/
def nearest (e p : Nat) : Nat :=
  let d := (p + 2 ^ 32 - e % 2 ^ 32) % 2 ^ 32
  if d < 2 ^ 31 || e + d < 2 ^ 32 then e + d else e + d - 2 ^ 32
/-- The extended psn of a received frame: nearest the next to deliver, or the one after the last ACK accepted (11, R335). -/
def SpineStream.extend (st : SpineStream) (ack : Bool) (psn : Nat) : Nat :=
  nearest (if ack then (match st.lastAck with | some l => l + 1 | none => 0) else 2 ^ 32 * st.expHigh + st.expect) psn
/-- The tag of a received frame is right under the set of the peer's sending direction (11, R335). -/
def Conn.tagGood (c : Conn) (fr : SpineFrame) (ack : Bool) : Bool :=
  let sets := c.readSets fr.keyPhase
  let ctr := (c.stream fr.bulk).extend ack fr.psn
  (frameSeal (if c.opener then sets.drop 36 else sets.take 36) fr ack ctr).drop (fr.packets.flatMap packetBytes).length == fr.tag

/-- The sending direction moves to the next generation once neither stream has a DATA frame unacknowledged. -/
def State.finishRekey (s : State) (id : Nat) : State :=
  match s.conn id with
  | none => s
  | some c =>
    if c.switching && c.trump.held.isEmpty && c.bulk.held.isEmpty then
      let s := (s.setConn id (some { c with gen := c.gen + 1, sets := nextSets c.sets (c.gen + 1), carried := 0, switching := false, genBegan := s.now })).bump 0x700004 32
      { s with maint := { s.maint with works := s.maint.works.filter (· ≠ (3, 128 + id)) } }
    else s

/-! ## Acknowledgements (11, R338 to R340) -/

/-- An ACK whose cum_ack is `cum` covers a frame: at or behind cum_ack, or among the 32 that sack shows (11, Table 11-10). -/
def covers (cum psn : Nat) : Bool := serialLe psn cum || decide ((psn + 2 ^ 32 - (cum + 2) % 2 ^ 32) % 2 ^ 32 < 32)

/-- Send an ACK for a stream: it sets ecn_echo when a frame that it covers for the first time arrived marked CE (11, R338, Table 11-10). -/
def State.sendAck (s : State) (id : Nat) (bulk : Bool) : State :=
  match s.conn id, (s.conn id).bind fun c => s.spineOut (c.turn 8) with
  | some c, some q =>
    let st := c.stream bulk
    let cum := (st.expect + 2 ^ 32 - 1) % 2 ^ 32
    let sack := (List.range 32).foldl (fun m i =>
      if st.window.any (fun w => w.1 == (cum + 2 + i) % 2 ^ 32) then m + 2 ^ i else m) 0
    let s := s.setConn id (some ({ c with carried := c.carried + 1 }.modStream bulk fun st =>
      { st with
        unacked := 0, uncovered := st.uncovered.filter fun x => !covers cum x.1
        ackPsn := (st.ackPsn + 1) % 2 ^ 32, ackHigh := st.ackHigh + (st.ackPsn + 1) / 2 ^ 32 }))
    let fr : SpineFrame := { conn := c.peerId, bulk := bulk, keyPhase := c.gen % 2 == 1, psn := st.ackPsn, cumAck := cum
                             sack := BitVec.ofNat 32 sack, ecnEcho := st.uncovered.any fun x => covers cum x.1 && x.2 }
    (s.bump (portObj q 3) 64).emit (.spine q { fr with bytes := s.spineBytes q id c fr true (2 ^ 32 * st.ackHigh + st.ackPsn) })
  | _, _ => s

/-- Resend one DATA frame with its own psn (11, R339). -/
def State.resendData (s : State) (id : Nat) (bulk : Bool) (psn : Nat) : State :=
  match s.conn id with
  | none => s
  | some c =>
    match (c.stream bulk).held.find? (·.psn == psn) with
    | none => s
    | some x => match s.spineOut (c.turn x.cd) with
      | some q => (s.bump (portObj q 5) 64).emitData id bulk x
      | none => s

/-! ## Receiving DATA (11, R334 to R336, R338) -/

/-- Frames of the reorder window that follow `e` without a gap: the psn after them, and their packets, each with the edge die that its frame came
by. -/
def inOrder (w : List (Nat × List Packet × Bool)) (e : Nat) : Nat → Nat × List (Bool × Packet)
  | 0 => (e, [])
  | n + 1 =>
    match w.find? (·.1 == e) with
    | none => (e, [])
    | some x => let r := inOrder w ((e + 1) % 2 ^ 32) n; (r.1, x.2.1.map (fun p => (x.2.2, p)) ++ r.2)

/-- A spine port takes frames: ACTIVE, or CLOSING, in which it still completes what it has accepted (11, R330, R332). -/
def State.spineTakes (s : State) (port : Nat) : Bool :=
  isSpine port && ((s.port port).state == .active || (s.port port).state == .closing)

/-- The checks of R334 on a received frame. -/
def State.frameOk (s : State) (port : Nat) (fr : SpineFrame) : Bool :=
  !fr.other && !fr.extension && fr.sumsOk && fr.dst == leNat (s.ownAddr port).reverse && fr.dstPort == s.obj 0x408080 7612

/-- Bytes of an edge die's reorder memory in use (11, R336). -/
def State.reorderUsed (s : State) (east : Bool) : Nat :=
  (s.fab.conns.map fun e => match e.2 with
    | none => 0
    | some c => ((c.trump.window ++ c.bulk.window).filter (·.2.2 == east)).map (fun w => (w.2.1.map (packetBytes · |>.length)).sum) |>.sum).sum

/-- The edge die's 16 MiB of reorder memory have room for a frame that arrived on a port (11, R336). -/
def State.reorderRoom (s : State) (port : Nat) (fr : SpineFrame) : Bool :=
  decide (s.reorderUsed (68 ≤ port) + (fr.packets.map (packetBytes · |>.length)).sum ≤ 0x1000000)

/-- The next frame in order: delivered with those of the window that follow it; an ACK after every 8th (11, R336, R338). -/
def State.frameNext (s : State) (port id : Nat) (c : Conn) (fr : SpineFrame) : State :=
  let st := c.stream fr.bulk
  let (e, more) := inOrder st.window ((st.expect + 1) % 2 ^ 32) 64
  let s := s.modConn id fun c => c.modStream fr.bulk fun st =>
    { st with
      expect := e, expHigh := st.expHigh + (if e < st.expect then 1 else 0), window := st.window.filter fun w => !serialLe (w.1 + 1) e
      unacked := st.unacked + 1, uncovered := st.uncovered ++ [(fr.psn, fr.ce)] }
  let s := (fr.packets.map (fun p => (decide (68 ≤ port), p)) ++ more).foldl (fun s x => s.deliver (spineOrigin id x.1) c.table x.2) s
  if 8 ≤ st.unacked + 1 then s.sendAck id fr.bulk else s

/-- A frame ahead of a gap is held in the reorder window, and acknowledged at once (11, R336, R338). -/
def State.frameHold (s : State) (port id : Nat) (fr : SpineFrame) : State :=
  (s.modConn id fun c => c.modStream fr.bulk fun st =>
    { st with
      window := st.window ++ [(fr.psn, fr.packets, decide (68 ≤ port))]
      unacked := st.unacked + 1, uncovered := st.uncovered ++ [(fr.psn, fr.ce)] }).sendAck id fr.bulk

/-- A DATA frame of an open connection: delivered in psn order, held, or discarded; a duplicate is discarded and acknowledged again, as it comes out
of order (11, R336, R338). -/
def State.spineData (s : State) (port id : Nat) (c : Conn) (fr : SpineFrame) : State :=
  let st := c.stream fr.bulk
  let ahead := (fr.psn + 2 ^ 32 - st.expect) % 2 ^ 32
  let s := s.modConn id fun c => c.reads fr.keyPhase
  let s := if fr.ce then s.bump (portObj port 6) 64 else s
  if ahead = 0 then (s.bump (portObj port 4) 64).frameNext port id c fr
  else if 2 ^ 31 ≤ ahead || st.window.any (·.1 == fr.psn) then (s.discardFrame port).sendAck id fr.bulk
  else if ahead < spineWindow fr.bulk && s.reorderRoom port fr then (s.bump (portObj port 4) 64).frameHold port id fr
  else s.discardFrame port

/-- A frame of a connection that is open, passes R334 and its tag; any other is discarded and counted (11, R334 to R336). -/
def State.onFrame (s : State) (port : Nat) (fr : SpineFrame) (ack : Bool) (f : State → Conn → State) : State :=
  if !isSpine port then s
  else if !s.spineTakes port || !s.frameOk port fr then s.discardFrame port
  else match s.conn fr.conn with
    | none => s.discardFrame port
    | some c => if c.phase = 1 && c.tagGood fr ack then f s c else s.discardFrame port

/-- SPINE_DATA_FRAME (11, R334 to R336). -/
def execSpineDataFrame (port : Nat) (fr : SpineFrame) (s : State) : Res :=
  .next (s.onFrame port fr false fun s c => (s.spineData port fr.conn c fr).finishSpine)

/-! ## Receiving ACKs (11, R335, R339, R340) -/

/-- A held frame that the ACK shows missing while three later frames have been received (11, R339). -/
def missing (fr : SpineFrame) (held : List SpineTx) (x : SpineTx) : Bool :=
  let got := fun (p : Nat) =>
    let i := (p + 2 ^ 32 - (fr.cumAck + 2) % 2 ^ 32) % 2 ^ 32
    i < 32 && fr.sack.getLsbD i
  !got x.psn && !x.fast && decide (3 ≤ (held.filter fun y => got y.psn && serialLe x.psn y.psn).length)

/-- The window after an ACK (11, R340). -/
def cwndAfter (st : SpineStream) (bulk ecn advances : Bool) (now : Nat) : SpineStream :=
  if ecn then
    if st.halved.all fun t => t + 16000 ≤ now then { st with cwnd := max 4 (st.cwnd / 2), halved := some now } else st
  else if advances then { st with cwnd := min (spineWindow bulk) (st.cwnd + 1) }
  else st

/-- An ACK of an open connection: accepted when its psn exceeds that of the last (11, R335); a refused one changes nothing. -/
def State.spineAck (s : State) (port id : Nat) (c : Conn) (fr : SpineFrame) : State :=
  let st := c.stream fr.bulk
  let n := st.extend true fr.psn
  if st.lastAck.any fun l => n ≤ l then s
  else
    let s := s.bump (portObj port 4) 64
    let adv := match st.cumAck with | none => fr.cumAck ≠ 2 ^ 32 - 1 | some o => fr.cumAck ≠ o && serialLe o fr.cumAck
    let held := st.held.filter fun x => !serialLe x.psn fr.cumAck
    let lost := (held.filter (missing fr held)).map (·.psn)
    let st' := cwndAfter { st with
      lastAck := some n, cumAck := if adv then some fr.cumAck else st.cumAck
      held := held.map fun x => if lost.contains x.psn then { x with fast := true } else x } fr.bulk fr.ecnEcho adv s.ns
    let s := s.setConn id (some ((c.modStream fr.bulk fun _ => st').reads fr.keyPhase))
    (((lost.foldl (fun s p => s.resendData id fr.bulk p) s).finishRekey id).pumpConn id).closeReleased id

/-- SPINE_ACK_FRAME (11, R335, R339, R340). -/
def execSpineAckFrame (port : Nat) (fr : SpineFrame) (s : State) : Res :=
  .next (s.onFrame port fr true fun s c => (s.spineAck port fr.conn c fr).finishSpine)

/-- SPINE_ACK_TIMER: 2 µs after the oldest DATA frame that no ACK covers (11, R338). -/
def execSpineAckTimer (conn : Nat) (bulk : Bool) (s : State) : Res :=
  .next (match s.conn conn with
    | none => s
    | some c => if c.phase = 1 && !(c.stream bulk).uncovered.isEmpty then s.sendAck conn bulk else s)

/-! ## Opening and closing (12, R359, R360) -/

/-- A connection closes: the requests outstanding on it, which only its opener sends, complete with ST_TIMEOUT, and CLOSE goes to the peer (11,
R339; 12, R360). -/
def State.closeConn (s : State) (id : Nat) (st : Status := .timeout) : State :=
  match s.conn id with
  | none => s
  | some c =>
    if c.phase = 2 then s
    else
      let s := s.setConn id (some { c with phase := 2, sends := 1, trump := {}, bulk := {} })
      (if c.opener then s.failPeer c.table c.slot st else s).sendCtrl id 4 (s.ownCtrl c.slot id)

/-- An open fails with a status: its connection is gone, and what waited for it completes with that status. -/
def State.failOpen (s : State) (id : Nat) (st : Status) : State :=
  match s.conn id with
  | none => s
  | some c => (s.setConn id none).failPeer c.table c.slot st

/-- RETRANSMIT_TIMEOUT: a DATA frame's timer expires; the seventh expiry closes the connection (11, R339). -/
def execRetransmitTimeout (conn : Nat) (bulk : Bool) (psn : Nat) (s : State) : Res :=
  .next (match s.conn conn with
    | none => s
    | some c =>
      match (c.stream bulk).held.find? (·.psn == psn) with
      | none => s
      | some x =>
        if 6 ≤ x.expiries then s.closeConn conn
        else
          let s := s.setConn conn (some (c.modStream bulk fun st =>
            { st with held := st.held.map fun y => if y.psn = psn then { y with expiries := y.expiries + 1, fast := false } else y }))
          s.resendData conn bulk psn)

/-- A CTRL frame whose IV counter repeats one of the last 1,024 of its source is discarded and counted (19, R558); none then. -/
def State.takeCtrl (s : State) (m : CtrlMsg) : State × Bool :=
  let mine := s.fab.ctrSeen.filter (·.1 == m.srcAddr)
  if mine.any (·.2 == m.ctr) then (s.discardFrame m.port, false)
  else
    let keep := (m.srcAddr, m.ctr) :: mine.take 1023
    ({ s with fab := { s.fab with ctrSeen := keep ++ s.fab.ctrSeen.filter (·.1 ≠ m.srcAddr) } }, true)

/-- A CTRL frame is taken on a spine port that takes frames, once it passes R334 and its tag under the CTRL set of the fabric secret installed
(11, R334, R335; 19, R555, R558). -/
def State.ctrlOk (s : State) (kind : Nat) (m : CtrlMsg) : Bool :=
  s.spineTakes m.port && !m.extension && m.sumsOk && m.dst == leNat (s.ownAddr m.port).reverse && m.dstPort == s.obj 0x408080 7612
    && s.sec.fs.any fun fs => (ctrlSeal fs kind m).drop 64 == m.tag

/-- A CTRL row: the checks of the frame, the replay check, then `f`. -/
def State.onCtrl (s : State) (kind : Nat) (m : CtrlMsg) (f : State → State) : State :=
  if !isSpine m.port then s
  else if !s.ctrlOk kind m then s.discardFrame m.port
  else
    let (s, fresh) := s.takeCtrl m
    if fresh then f s else s

/-- The first connection that satisfies `f`. -/
def State.findConn (s : State) (f : Conn → Bool) : Option Nat := (s.fab.conns.find? fun e => e.2.any f).map (·.1)

/-- CTRL_OPEN: answered OPEN_ACK, REDIRECT or CLOSE (12, R359). -/
def execCtrlOpen (m : CtrlMsg) (s : State) : Res :=
  .next (s.onCtrl 1 m fun s =>
    let answer := fun (s : State) (kind id : Nat) (r : CtrlMsg) => s.sendCtrl id kind { r with srcAddr := m.srcAddr }
    if farApart s.fw.wire m.revision then answer s 4 2048 (s.ownCtrl m.slot m.connection .version)
    else if s.ownSlot ≠ m.slot then
      match s.slotHolder m.slot with
      | some p => answer s 3 2048 { s.ownCtrl m.slot m.connection with redirect := p }
      | none => answer s 4 2048 (s.ownCtrl m.slot m.connection .notFound)
    else
      let same := s.findConn fun c => !c.opener && c.table == m.tableId && c.position == m.position && c.peerId == m.connection && c.phase == 1
      match same.or ((List.range 2048).find? fun i => (s.conn i).isNone) with
      | none => answer s 4 2048 (s.ownCtrl m.slot m.connection .overflow)
      | some id =>
        let c : Conn := { phase := 1, opener := false, table := m.tableId, slot := 0xFF, position := m.position, peerId := m.connection
                          serial := m.serial, revision := min s.fw.wire m.revision, ctr := s.freeCtr, fs := s.sec.fsGen, genBegan := s.now
                          sets := connSets (s.sec.fs.getD 0) (m.ctr, m.serial, m.connection) (Config.freeValue s.freeCtr, s.serial, id) }
        let c := { c with rxSets := c.sets }
        let s := if same.isSome then s else s.setConn id (some c)
        answer s 2 id (s.ownCtrl s.ownSlot id))

/-- OPEN_ACK: the opening completes, and waiting packets leave (12, R359). -/
def execOpenAck (m : CtrlMsg) (s : State) : Res :=
  .next (s.onCtrl 2 m fun s =>
    match s.findConn fun c => c.phase == 0 && c.table == m.tableId && c.position == m.position && c.slot == m.slot with
    | none => s
    | some id =>
      let s := s.modConn id fun c =>
        let sets := connSets (leNat c.sets) (Config.freeValue c.ctr, s.serial, id) (m.ctr, m.serial, m.connection)
        { c with
          phase := 1, peerId := m.connection, serial := m.serial, revision := min s.fw.wire m.revision, sends := 0, genBegan := s.now
          sets := sets, rxSets := sets }
      (s.pumpConn id).closeReleased id)

/-- REDIRECT: the opener follows at most two, and keeps the place that it learns (12, R359). -/
def execRedirect (m : CtrlMsg) (s : State) : Res :=
  .next (s.onCtrl 3 m fun s =>
    match s.findConn fun c => c.phase == 0 && c.table == m.tableId && c.position == m.position with
    | none => s
    | some id =>
      match s.conn id with
      | none => s
      | some c =>
        if 2 ≤ c.redirects || !s.inDirectory c.table m.redirect then s.failOpen id .notFound
        else
          let s := { s with fab := { s.fab with placed := Tbl.set none s.fab.placed (pairKey c.table c.slot) (some m.redirect) } }
          let s := s.setConn id (some { c with position := m.redirect, redirects := c.redirects + 1, sends := 1, ctr := s.freeCtr })
          s.sendCtrl id 1 (s.ownCtrl c.slot id))

/-- CLOSE: an open is refused with its status, or an open connection closes and is acknowledged (12, R359, R360). -/
def execClose (m : CtrlMsg) (s : State) : Res :=
  .next (s.onCtrl 4 m fun s =>
    match s.findConn fun c => c.table == m.tableId && c.position == m.position && (c.phase == 0 || c.peerId == m.connection) with
    | none => s
    | some id =>
      match s.conn id with
      | none => s
      | some c =>
        if c.phase = 0 then s.failOpen id m.status
        else
          let s := if c.phase = 1 && c.opener then (s.setConn id none).failPeer c.table c.slot .timeout else s.setConn id none
          s.sendCtrl id 5 (s.ownCtrl c.slot id))

/-- CLOSE_ACK: the closed connection is gone (12, R359). -/
def execCloseAck (m : CtrlMsg) (s : State) : Res :=
  .next (s.onCtrl 5 m fun s =>
    match s.findConn fun c => c.phase == 2 && c.table == m.tableId && c.position == m.position with
    | none => s
    | some id => s.setConn id none)

/-- CTRL_RESEND_TIMER: every 100 µs; after 8 sendings the open fails with ST_TIMEOUT (12, R359). -/
def execCtrlResendTimer (conn : Nat) (s : State) : Res :=
  .next (match s.conn conn with
    | none => s
    | some c =>
      if c.phase = 1 then s
      else if 8 ≤ c.sends then (if c.phase = 0 then s.failOpen conn .timeout else s.setConn conn none)
      else
        (s.setConn conn (some { c with sends := c.sends + 1, ctr := s.freeCtr })).sendCtrl conn (if c.phase = 0 then 1 else 4)
          (s.ownCtrl c.slot conn))

/-- Every connection that some change touches closes (12, R360). -/
def State.closeConns (s : State) (f : Conn → Bool) : State :=
  (s.fab.conns.filter fun e => e.2.any f).foldl (fun s e => s.closeConn e.1) s

/-- NEIGHBOR_DISCOVERY: OHM-FAB answers for the port's own address (11, R334). -/
def execNeighborDiscovery (port dstAddr : Nat) (echo : Bool) (s : State) : Res :=
  .next (
    let st := (s.port port).state
    if !(isSpine port && (st == .active || st == .hello)) then s
    else if s.hasAddress port && leNat ((Tbl.get [] s.kdp.octets (portObj port 0x81)).reverse) == dstAddr then s.emit (.icmp port dstAddr echo)
    else s.discardFrame port)

/-! ## Addresses (11, Table 11-11) -/

/-- A write to sp_address or sp_gateway takes the spine port back through HELLO; connections close only when no other spine port
is ACTIVE (11, section 11.8). -/
def State.writeSpine (s : State) (q : Nat) (gateway : Bool) (data : List Byte) : State :=
  let n := 64 + q
  let s := { s with kdp := { s.kdp with octets := Tbl.set [] s.kdp.octets (portObj n (if gateway then 0x82 else 0x81)) data } }
  let st := (s.port n).state
  if st = .hello || st = .active then
    let s := if (spinePorts.filter (· ≠ n)).any fun k => (s.port k).state == .active then s
      else if st = .active then s.closeConns fun c => decide (c.phase < 2) else s
    s.spineHello n
  else s

end Sys2Proof.Machine
end

