-- ==== Sys2Proof/Machine/Time.lean ====
section
/-! DEFINITION. The timebase and its sources: offsets, slews and steps, table time and PTP (13). -/

namespace Sys2Proof.Machine

/-! ## Dealer and live positions (12, R346, R349) -/

/-- Roster state of a position (12, Table 12-1). -/
def State.posState (s : State) (p : Nat) : Nat := (s.table.roster.entries.getD p {}).state
/-- JOINING, WORKING or KITTY. -/
def liveCode (st : Nat) : Bool := 1 ≤ st && st ≤ 3
/-- The positions that the dealer sends ROSTER to: live ones, and any that it reaches. -/
def State.sendPositions (s : State) : List Nat :=
  (List.range 18).filter fun p => p ≠ s.table.position && (liveCode (s.posState p) || s.reaches p)
/-- The live positions, which the dealer sends SYNC to (13, R398). -/
def State.livePositions (s : State) : List Nat := (List.range 18).filter fun p => p ≠ s.table.position && liveCode (s.posState p)

/-! ## Offsets (13, section 13.3) -/

/-- A frequency correction within ±200 ppm, in parts per 10⁹. The spec does not say how the package finds it: the free value is cut
to that range (log 3). -/
def freqOf (v : Word) : Int := (v.toNat % 400001 : Nat) - 200000

/-- TIME_STEP: a step is counted, and takes effect at the next TCLK edge (13, R389, R394, R396). -/
def State.stepTime (s : State) (off : Int) (epoch : Quad) : State :=
  let s := s.bump 0x480009 32
  { s with time := { s.time with stepDue := some (off, epoch), state := 1 } }

/-- A valid offset above +1 ms without leave to step back: refused, reported once (13, R395). -/
def State.refuseStep (s : State) (off : Int) : State :=
  let first := s.time.state ≠ 3
  let s := { s with time := { s.time with state := 3, slew := 0, remaining := 0 } }
  if first then (s.bump 0x48000A 32).report 0 0x0503 1 none [unsigned 64 off] else s

/-- A valid offset from a source, 1 the dealer or 2 PTP; `follow` is the dealer's TIME_EPOCH when it is above the package's own (13,
R393 to R397). -/
def State.applyOffset (s : State) (off : Int) (source : Nat) (gm : Word) (follow : Option Quad := none) : State :=
  let (v, s) := s.free
  let held := off > 1000000 && follow.isNone && s.obj 0x480080 0 = 0
  let s := { s with time := { s.time with
    offset := off, source := source, grandmaster := gm, freq := if held then s.time.freq else freqOf v } }
  let s := if off > 1000000 then s.setObj 0x480080 0 else s
  match follow with
  | some e => s.stepTime off e
  | none =>
    if -1000000 ≤ off && off ≤ 1000000 then
      { s with time := { s.time with
          remaining := 1000 * off, slew := if off = 0 then 0 else if off < 0 then 500 else -500, state := 1 } }
    else if off < 0 then s.stepTime off (if s.time.state = 0 then s.time.epoch else s.time.epoch + 1)
    else if held then s.refuseStep off
    else s.stepTime off (s.time.epoch + 1)

/-- The source is lost (13, R402). -/
def State.holdover (s : State) : State :=
  if s.time.state = 1 then { s with time := { s.time with state := 2, slew := 0, remaining := 0 } } else s

/-- Samples that are discarded are counted (13, R392, R399). -/
def State.badSamples (s : State) (n : Nat) : State := if n = 0 then s else s.bump 0x48000B 64 n
/-- The exchanges that `f` picks are discarded and counted (13, R399). -/
def State.dropExchanges (s : State) (f : Exch → Bool) : State :=
  { s.badSamples (s.time.exchs.filter f).length with time := { s.time with exchs := s.time.exchs.filter fun x => !f x } }
/-- An exchange by its number. -/
def State.exchange (s : State) (num : Half) : Option Exch := s.time.exchs.find? (·.num == num.toNat)
def State.setExchange (s : State) (x : Exch) : State :=
  { s with time := { s.time with exchs := s.time.exchs.map fun y => if y.num = x.num then x else y } }
/-- An exchange has gone 1 ms without completing (13, R399). -/
def State.exchangeLate (s : State) (x : Exch) : Bool :=
  decide (x.began.toNat / 2 ^ 60 ≠ s.now.toNat / 2 ^ 60) || decide (x.began.toNat % 2 ^ 60 + 1000000 < s.now.toNat % 2 ^ 60)
/-- An exchange begins; one of the same number that is still open never completes (13, R398, R399). -/
def State.beginExchange (s : State) (x : Exch) : State :=
  let s := s.dropExchanges fun y => y.num == x.num || s.exchangeLate y
  { s with time := { s.time with exchs := s.time.exchs ++ [x] } }
/-- An exchange ends: its offset is applied when it is valid, and otherwise it is counted (13, R399). -/
def State.endExchange (s : State) (num : Nat) (off : Option Int) (source : Nat) (gm : Word) (follow : Option Quad := none) : State :=
  match off.filter fun _ => s.time.stepDue.isNone with
  | none => s.dropExchanges (·.num == num)
  | some off => ({ s with time := { s.time with exchs := s.time.exchs.filter (·.num ≠ num) } }).applyOffset off source gm follow

/-- SLEW_END: the remaining correction has been removed, and s returns to 0 (13, R393). -/
def execSlewEnd (s : State) : Res :=
  .next (if s.time.remaining = 0 then { s with time := { s.time with slew := 0 } } else s)

/-- HOLDOVER_ENTRY (13, R402). -/
def execHoldoverEntry (s : State) : Res := .next s.holdover

/-- EXCHANGE_TIMEOUT: the oldest exchange has not completed within 1 ms (13, R399). -/
def execExchangeTimeout (s : State) : Res :=
  .next (match s.time.exchs with
    | [] => s
    | x :: _ => s.dropExchanges (·.num == x.num))

/-! ## Table time (13, section 13.4) -/

/-- A TIME packet's meaning: it leaves the packets that wait, unless its port's domain is closing (11, R329). -/
def State.onTime (s : State) (kind : Nat) (m : TimeMsg) (f : State → State) : State :=
  let hit := fun (x : Nat × Packet) => timeKind x.2 == kind && x.2.srcPos == m.srcPos && timeExchange x.2 == m.exchange.toNat
  match s.takeOpen hit { op := 0x0D, srcPos := m.srcPos } with
  | (s, none) => s
  | (s, some _) => f s

/-- SYNC_INTERVAL_TIMER: SYNC to every live position (13, R398). -/
def execSyncIntervalTimer (s : State) : Res :=
  .next (
    if !s.deals then s
    else
      let n := s.time.exchNum + 1
      let s := { s with time := { s.time with exchNum := n } }
      s.livePositions.foldl (fun s p => s.sendTime p 1 n 0) s)

/-- This package follows its dealer's time: the packet comes from the dealer. -/
def State.follows (s : State) (pos : Nat) : Bool :=
  s.takesPackets && s.table.roster.dealer == pos && pos ≠ s.table.position

/-- SYNC (13, R397 to R399). -/
def execSync (m : TimeMsg) (s : State) : Res :=
  .next (s.onTime 1 m fun s =>
    if !s.follows m.srcPos then s
    else s.beginExchange {
      num := m.exchange.toNat, t2 := some m.ingress, ok := !m.afterNak, epoch := m.epoch, began := s.now, grandmaster := m.grandmaster })

/-- FOLLOW_UP: t1 arrives, and DELAY_REQ leaves; its stamp t3 is that of its first sending (13, R398, R399). -/
def execFollowUp (m : TimeMsg) (s : State) : Res :=
  .next (s.onTime 2 m fun s =>
    match s.exchange m.exchange with
    | none => s
    | some x =>
      if !s.follows m.srcPos || x.t1.isSome then s
      else (s.setExchange { x with t1 := some m.stamp, ok := x.ok && m.valid }).sendTime m.srcPos 3 m.exchange 0)

/-- DELAY_REQ: the dealer answers with its ingress stamp t4; valid is 0 when the request's flit was resent (13, R398, Table 13-2). -/
def execDelayReq (m : TimeMsg) (s : State) : Res :=
  .next (s.onTime 3 m fun s => if s.deals then s.sendTime m.srcPos 4 m.exchange m.ingress (!m.afterNak) else s)

/-- Epoch bits of a TIME64 stamp. -/
def stampEpoch (v : Word) : Nat := v.toNat / 2 ^ 60
/-- Nanoseconds of a TIME64 stamp. -/
def stampNs (v : Word) : Int := (v.toNat % 2 ^ 60 : Nat)

/-- Half of a difference of intervals, towards minus infinity. -/
def offsetOf (t1 t2 t3 t4 : Int) : Int := ((t2 - t1) - (t4 - t3)) / 2

/-- The exchange's offset when it is valid (13, R397 to R399): the package's own stamps share one epoch, and the dealer's share one,
which is the same or a later one that the SYNC showed. -/
def State.exchangeOffset (s : State) (x : Exch) : Option (Int × Option Quad) :=
  match x.t1, x.t2, x.t3, x.t4 with
  | some t1, some t2, some t3, some t4 =>
    let own := s.time.epoch.toNat
    let theirs := x.epoch.toNat
    let sameOwn := stampEpoch t2 == own % 16 && stampEpoch t3 == own % 16
    let sameTheirs := stampEpoch t1 == theirs % 16 && stampEpoch t4 == theirs % 16
    if !x.ok || !sameOwn || !sameTheirs || theirs < own then none
    else some (offsetOf (stampNs t1) (stampNs t2) (stampNs t3) (stampNs t4), if own < theirs then some x.epoch else none)
  | _, _, _, _ => none

/-- DELAY_RESP (13, R393 to R399). -/
def execDelayResp (m : TimeMsg) (s : State) : Res :=
  .next (s.onTime 4 m fun s =>
    match s.exchange m.exchange with
    | none => s
    | some x =>
      if !s.follows m.srcPos || x.t1.isNone then s
      else
        let x := { x with t4 := some m.stamp, ok := x.ok && m.valid && !m.afterNak && !s.exchangeLate x }
        let r := s.exchangeOffset x
        s.endExchange x.num (r.map (·.1)) 1 x.grandmaster (r.bind (·.2)))

/-! ## PTP (13, R392, R401, R402) -/

/-- PTP runs: this package is the dealer, and ptp_enable is 1. -/
def State.ptpOn (s : State) : Bool := s.deals && s.obj 0x480081 1 ≠ 0

/-- PTP time as timebase nanoseconds; none outside the range of R392. -/
def ptpNs (seconds nanos : Nat) : Option Nat :=
  if seconds < 1577836800 then none
  else
    let v := (seconds - 1577836800) * 1000000000 + nanos
    if v < 2 ^ 60 then some v else none

/-- t1 is known: Delay_Req leaves over the transport chosen, and its stamp is t3; a PTP time outside the range makes the sample invalid (13, R392,
R401). -/
def State.ptpAsk (s : State) (x : Exch) (t1 : Option Nat) : State :=
  match t1 with
  | none => s.dropExchanges (·.num == x.num)
  | some t1 => (s.setExchange { x with t1 := some (BitVec.ofNat 64 t1), t3 := some s.now }).emit
      (.ptpDelayReq (BitVec.ofNat 16 x.num) (s.obj 0x480083 0 ≠ 0))

/-- PTP_SYNC: from the selected master, one-step or two-step (13, R401). -/
def execPtpSync (seq : Half) (twoStep : Bool) (seconds nanos : Nat) (ingress : Word) (s : State) : Res :=
  .next (
    if !s.ptpOn || s.time.master.isNone then s
    else
      let x : Exch := { num := seq.toNat, t2 := some ingress, epoch := s.time.epoch, began := s.now }
      let s := s.beginExchange x
      if twoStep then s else s.ptpAsk x (ptpNs seconds nanos))

/-- PTP_FOLLOW_UP (13, R401). -/
def execPtpFollowUp (seq : Half) (seconds nanos : Nat) (s : State) : Res :=
  .next (match s.exchange seq with
    | none => s
    | some x => if !s.ptpOn || x.t1.isSome then s else s.ptpAsk x (ptpNs seconds nanos))

/-- The offset of a PTP exchange: its stamps belong to one epoch, and it has completed within 1 ms (13, R396, R399, R401). -/
def State.ptpOffset (s : State) (x : Exch) (t4 : Option Nat) : Option Int :=
  match x.t1, x.t2, x.t3, t4 with
  | some t1, some t2, some t3, some t4 =>
    if !x.ok || s.exchangeLate x || x.epoch ≠ s.time.epoch || stampEpoch t2 ≠ s.time.epoch.toNat % 16 then none
    else some (offsetOf (t1.toNat : Int) (stampNs t2) (stampNs t3) t4)
  | _, _, _, _ => none

/-- PTP_DELAY_RESP: the offset ((t2 − t1) − (t4 − t3)) / 2 is applied under section 13.3 (13, R401). -/
def execPtpDelayResp (seq : Half) (seconds nanos : Nat) (s : State) : Res :=
  .next (match s.exchange seq, s.time.master with
    | some x, some (gm, _) =>
      if !s.ptpOn || x.t1.isNone then s else s.endExchange x.num (s.ptpOffset x (ptpNs seconds nanos)) 2 gm
    | _, _ => s)

/-- The dealer's PTP has no master any more: its exchanges never complete (13, R399, R402). -/
def State.ptpLost (s : State) : State :=
  if s.time.master.isNone then s
  else (({ s with time := { s.time with master := none } }).dropExchanges fun _ => true).holdover

/-- PTP_ANNOUNCE: the best master of the domain on the PTP timescale is selected; `rank` orders masters as the best master clock
algorithm does, lower first. The selected master that announces ARB is one no more (13, R401). -/
def execPtpAnnounce (grandmaster : Word) (rank : Nat) (arb : Bool) (domain : Nat) (s : State) : Res :=
  .next (
    if !s.ptpOn || domain ≠ s.obj 0x480082 0 then s
    else if arb then (if s.time.master.any (·.1 == grandmaster) then s.ptpLost else s)
    else
      let better := match s.time.master with
        | none => true
        | some (g, r) => g = grandmaster || rank < r
      if better then { s with time := { s.time with master := some (grandmaster, rank) } } else s)

/-- PTP_MASTER_LOSS (13, R402). -/
def execPtpMasterLoss (s : State) : Res := .next (if s.deals then s.ptpLost else s)

/-- ptp_enable and ptp_domain are written: with PTP off, or in another domain, the dealer has no master (13, R401, R402). -/
def State.ptpWritten (s : State) (off : Bool) : State :=
  if !s.deals then s else if off then s.ptpLost.holdover else s.ptpLost

end Sys2Proof.Machine
end

