-- ==== Sys2Proof/Machine/Table.lean ====
section
/-! DEFINITION. The table: reports, rosters, the dealer, claims and promotion, and the late list (12, sections 12.2 to 12.4 and
12.12). -/

namespace Sys2Proof.Machine

/-! ## Bytes of a ROSTER packet (12, Tables 12-2 and 12-9) -/

def entryBytes (e : RosterEntry) : List Byte :=
  [BitVec.ofNat 8 e.state, BitVec.ofNat 8 e.slot] ++ leBytes 2 e.revision ++ zeros 4 ++ leBytes 8 e.serial.toNat
def lateEntryBytes (e : LateEntry) : List Byte := leBytes 4 e.lastCount ++ leBytes 4 e.lateCount ++ leBytes 8 e.lateSum
def lateRecordBytes (r : LateRecord) : List Byte :=
  leBytes 2 r.group.toNat ++ leBytes 2 r.position ++ leBytes 4 r.lateness ++ leBytes 4 r.sequence ++ zeros 4
def rosterBytes (kind : Nat) (m : RosterMsg) : List Byte :=
  [BitVec.ofNat 8 kind, BitVec.ofNat 8 m.dealer, BitVec.ofNat 8 m.sender, BitVec.ofNat 8 m.ownState] ++ leBytes 4 m.epoch
    ++ leBytes 2 m.tableId.toNat ++ leBytes 2 m.revision ++ leBytes 4 m.reach.toNat ++ m.entries.flatMap entryBytes
    ++ m.late.flatMap lateEntryBytes ++ m.records.flatMap lateRecordBytes

/-! ## What this package says of itself -/

/-- The package takes part in table traffic: LIVE or FOLDED, with a place at a table. -/
def State.atTable (s : State) : Bool := s.hasTable && (s.dev == .live || s.dev == .folded)

/-- Its own state (12, Table 12-2). -/
def State.ownPosState (s : State) : Nat :=
  if s.dev = .folded then 5
  else
    let e := s.posState s.table.position
    if e = 2 || e = 3 then e else 1

/-- Bit p: a usable port to position p (12, Table 12-2). -/
def State.ownReach (s : State) : BitVec 18 :=
  BitVec.ofNat 18 (((List.range 18).filter fun p => p ≠ s.table.position && s.reaches p).foldl (fun m p => m + 2 ^ p) 0)

def State.rosterMsg (s : State) (epoch : Nat) (entries : List RosterEntry) : RosterMsg :=
  { dealer := s.table.roster.dealer, sender := s.table.position, ownState := s.ownPosState, epoch := epoch, tableId := s.table.id
    revision := s.fw.wire, reach := s.ownReach, entries := entries }

def State.sendRoster (s : State) (pos kind : Nat) (m : RosterMsg) : State :=
  s.sendPacket { op := 0x0C, dstPos := pos, incarnation := s.fw.pkgInc, data := rosterBytes kind m }

/-! ## What a new roster does (12, R360, R365; 18, R535) -/

/-- Working and kitty positions. -/
def seatedCode (st : Nat) : Bool := st == 2 || st == 3

def Roster.entry (r : Roster) (p : Nat) : RosterEntry := r.entries.getD p {}

/-- Positions that a new roster marks DOWN or FOLDED and that the old one did not. -/
def lostPositions (old new : Roster) : List Nat :=
  (List.range 18).filter fun p => 4 ≤ (new.entry p).state && (old.entry p).state < 4

/-- A member's position is lost: its groups break (12, R365). -/
def State.losePosition (s : State) (old : Roster) (p : Nat) : State :=
  let slot := (old.entry p).slot
  if slot = 0xFF then s else (s.groupsAt s.table.id slot).foldl (fun s g => s.breakGroup g) s

/-- Epochs and restores whose buddy is lost end with ST_PEER_RESET (18, R535). -/
def State.loseBuddies (s : State) (lost : List Nat) : State :=
  let s := (s.rel.epochs.filter fun e => lost.contains e.buddy).foldl (fun s e => s.abandonEpoch e.seat .peerReset) s
  (s.maint.restores.filter fun r => lost.contains (s.seat r.seat).entry.buddy).foldl (fun s r => s.endRestore r.key .peerReset) s

/-- A new dealer: it is counted, and the source of table time is lost until an exchange with it; the new dealer itself serves its own timebase, in FREE
or HOLDOVER (12, Table 12-11; 13, R402, R403). -/
def State.dealerChanged (s : State) (old : Nat) : State :=
  let s := if old = 0xFF then s else s.bump 0x410006 32
  let t := (({ s with time := { s.time with master := none } }).dropExchanges fun _ => true).holdover
  if t.deals && t.time.state = 3 then { t with time := { t.time with state := 2 } } else t

/-- Slots that no WORKING position holds. -/
def unplaced (es : List RosterEntry) : List Nat :=
  (List.range 16).filter fun n => !es.any fun e => e.state == 2 && e.slot == n

/-- The roster in effect changes. -/
def State.newRoster (s : State) (r : Roster) (byClaim : Bool) : State :=
  let old := s.table.roster
  let slot := s.ownSlot
  let s := { s with table := { s.table with
    roster := r, seen := true, byClaim := byClaim, base := if byClaim then s.table.base else r
    noAuto := s.table.noAuto.filter (unplaced r.entries).contains } }
  let lost := lostPositions old r
  let s := { s with table := { s.table with lostSlot := lost.foldl (fun t p =>
    if (old.entry p).slot = 0xFF then t else Tbl.set 0xFF t p (old.entry p).slot) s.table.lostSlot } }
  let s := (lost.foldl (fun s p => s.losePosition old p) s).loseBuddies lost
  let s := if s.ownSlot ≠ slot && slot ≠ 0xFF then s.closeConns fun c => decide (c.phase < 2) && !c.opener else s
  if r.dealer ≠ old.dealer then s.dealerChanged old.dealer else s

/-! ## Placing and promotion (12, R348, R353, R354) -/

/-- Slot `n` moves to the lowest-numbered KITTY position (12, R354). -/
def promote (es : List RosterEntry) (n : Nat) : List RosterEntry :=
  match es.findIdx? (·.state == 3) with
  | none => es
  | some p => es.set p { es.getD p {} with state := 2, slot := n }

/-- Every unplaced slot is promoted while a KITTY position is left. -/
def promoteAll (es : List RosterEntry) : List RosterEntry := (unplaced es).foldl promote es

/-- kitty_auto (12, R354). -/
def State.kittyAuto (s : State) : Bool := s.obj 0x410081 1 ≠ 0

/-- A position takes a state and holds no slot. -/
def vacate (es : List RosterEntry) (p st : Nat) : List RosterEntry :=
  es.set p { es.getD p {} with state := st, slot := 0xFF }

/-- The entries after a position is lost: with kitty_auto at 1 the slot that it held, and no other, moves (12, R354). -/
def State.lossEntries (s : State) (es : List RosterEntry) (p st : Nat) : List RosterEntry :=
  let slot := (es.getD p {}).slot
  if s.kittyAuto && (es.getD p {}).state = 2 then promote (vacate es p st) slot else vacate es p st

/-- Slots lost while kitty_auto is 0 move only by promote_slot (12, R354). -/
def State.noteNoAuto (s : State) (es : List RosterEntry) (p : Nat) : State :=
  if s.kittyAuto || (es.getD p {}).state ≠ 2 then s
  else { s with table := { s.table with noAuto := s.table.noAuto ++ [(es.getD p {}).slot] } }

/-- The entries when a position has been placed as KITTY: with kitty_auto at 1 a slot left unplaced for want of a KITTY position moves now, to the
lowest-numbered one that has not lost that slot itself (12, R348, R354). -/
def State.joinEntries (s : State) (es : List RosterEntry) : List RosterEntry :=
  if !s.kittyAuto then es
  else ((unplaced es).filter fun n => !s.table.noAuto.contains n).foldl (fun es n =>
    match (List.range 18).find? fun p => (es.getD p {}).state == 3 && Tbl.get 0xFF s.table.lostSlot p ≠ n with
    | some p => es.set p { es.getD p {} with state := 2, slot := n }
    | none => es) es

/-- The dealer changes entries: the epoch rises, and the change takes effect here. -/
def State.editRoster (s : State) (es : List RosterEntry) : State :=
  if es = s.table.roster.entries then s
  else s.newRoster { s.table.roster with epoch := s.table.roster.epoch + 1, entries := es } false

/-- Wire revision and serial of a position as HELLO told them; this package's own for its own position. -/
def State.learnt (s : State) (p : Nat) : Nat × Word :=
  if p = s.table.position then (s.fw.wire, s.serial)
  else match (s.port (portTo s.table.position p false)).peer.or (s.port (portTo s.table.position p true)).peer with
    | some h => (h.revision, h.serial)
    | none => (0, 0)

/-! ## Timers (12, R347, R350 to R352) -/

/-- REPORT_SEND_TIMER: a REPORT to the dealer, with up to 16 late records (12, R347, R383). -/
def execReportSendTimer (s : State) : Res :=
  .next (
    let d := s.table.roster.dealer
    if !s.atTable || s.dozes || d = s.table.position || 18 ≤ d then s
    else
      let m := { s.rosterMsg s.table.roster.epoch s.table.roster.entries with records := s.table.records.take 16 }
      ({ s with table := { s.table with records := [] } }).sendRoster d 1 m)

/-- Positions that were live in the roster that distances are counted on; at bring-up every one (12, R350, R351). -/
def Table.wasLive (t : Table) (p : Nat) : Bool := !t.seen || seatedCode (t.base.entry p).state
/-- The lost dealer: position 17 at bring-up. -/
def Table.lostDealer (t : Table) : Nat := if t.seen then t.base.dealer else 17
/-- The distance of a position from the lost dealer (12, R350). -/
def Table.distance (t : Table) (p : Nat) : Nat :=
  let off := fun (q : Nat) => (q + 17 - t.lostDealer) % 18
  ((List.range 18).filter fun q => t.wasLive q && off q ≤ off p).length

/-- The reach that a candidate needs (12, R351). -/
def State.hasMajority (s : State) : Bool :=
  let live := (List.range 18).filter s.table.wasLive
  live.length < 2 * (live.filter fun p => p == s.table.position || s.reaches p).length

/-- The entries that a first dealer gives out (12, R353). -/
def State.firstEntries (s : State) : List RosterEntry :=
  promoteAll ((List.range 18).map fun p =>
    if p = s.table.position || s.reaches p then
      let (rev, ser) := s.learnt p
      if p < 16 then { state := 2, slot := p, revision := rev, serial := ser } else { state := 3, revision := rev, serial := ser }
    else {})

/-- The roster that a CLAIM holds (12, R350). -/
def State.claimEntries (s : State) : List RosterEntry :=
  if s.table.seen then s.lossEntries s.table.base.entries s.table.base.dealer 4 else s.firstEntries

/-- CLAIM_TIMER: a candidate with the reach sends its CLAIM (12, R350, R351). -/
def execClaimTimer (s : State) : Res :=
  .next (
    if !s.hasTable || s.dev ≠ .live || s.table.roster.dealer = s.table.position || s.table.claim.isSome
        || !s.table.wasLive s.table.position || !s.hasMajority then s
    else
      let e := s.table.roster.epoch + 1
      let m := { s.rosterMsg e s.claimEntries with dealer := s.table.position }
      ({ s with table := { s.table with claim := some e } } : State).sendPositions.foldl (fun s p => s.sendRoster p 3 m)
        { s with table := { s.table with claim := some e } })

/-- A claimant whose CLAIM stands becomes the dealer (12, R352). -/
def State.winClaim (s : State) : State :=
  match s.table.claim with
  | none => s
  | some e =>
    let r : Roster := { dealer := s.table.position, epoch := e, entries := s.claimEntries }
    let s := if s.table.seen then s.noteNoAuto s.table.base.entries s.table.base.dealer else s
    ({ s with table := { s.table with claim := none, sends := 0 } }).newRoster r false

/-- Positions that the dealer reaches and that the roster calls EMPTY become JOINING (12, Table 12-1). -/
def State.noteJoining (s : State) : State :=
  s.editRoster ((List.range 18).map fun p =>
    let e := s.table.roster.entry p
    if e.state = 0 && p ≠ s.table.position && s.reaches p then { e with state := 1 } else e)

/-- ROSTER_SEND_TIMER: the dealer sends the roster to every live position; every 100th carries the late list (12, R347, R352). Late records that a new
dealer still holds join the list (R384). -/
def execRosterSendTimer (s : State) : Res :=
  .next (
    if !s.hasTable || s.dev ≠ .live then s
    else
      let s := s.winClaim
      if !s.deals then s
      else
        let s := s.noteJoining
        let n := s.table.sends + 1
        let s := { s with table := { s.table with sends := n % 100 } }
        let late := s.table.records.foldl (addLate (s.obj 0x440081 50)) s.table.late
        let s := { s with table := { s.table with late := late, records := [] } }
        let m := s.rosterMsg s.table.roster.epoch s.table.roster.entries
        let m := if n % 100 = 0 then { m with late := s.table.late } else m
        s.sendPositions.foldl (fun s p => s.sendRoster p 2 m) s)

/-! ## Packets (12, R347, R348, R352, R384) -/

/-- A ROSTER packet's meaning: it leaves the packets that wait, unless its port's domain is closing (11, R329). -/
def State.onRoster (s : State) (kind : Nat) (m : RosterMsg) (f : State → State) : State :=
  let hit := fun (x : Nat × Packet) => x.2.op == 0x0C && x.2.srcPos == m.sender && field x.2.data 0 1 == kind
    && field x.2.data 4 4 == m.epoch
  match s.takeOpen hit { op := 0x0C, srcPos := m.sender } with
  | (s, none) => s
  | (s, some _) => f s

/-- The message is for this table and from another position of it. -/
def State.fromTable (s : State) (m : RosterMsg) : Bool :=
  s.atTable && m.tableId == s.table.id && decide (m.sender < 18) && m.sender ≠ s.table.position

/-- The dealer's entries after a REPORT (12, R348): a position that was EMPTY, DOWN or FOLDED becomes JOINING, and a JOINING one is placed as KITTY by
its next REPORT (log 174). -/
def State.reportedEntries (s : State) (m : RosterMsg) : List RosterEntry :=
  let es := s.table.roster.entries
  let e := es.getD m.sender {}
  let as := fun (st : Nat) => es.set m.sender { state := st, slot := 0xFF, revision := m.revision, serial := (s.learnt m.sender).2 }
  if m.ownState = 5 then (if e.state = 5 then es else s.lossEntries es m.sender 5)
  else if seatedCode e.state then es.set m.sender { e with revision := m.revision }
  else if e.state = 1 then s.joinEntries (as 3)
  else as 1

/-- REPORT, at the dealer (12, R348, R384). -/
def execReport (m : RosterMsg) (s : State) : Res :=
  .next (s.onRoster 1 m fun s =>
    if !s.deals || !s.fromTable m then s
    else
      let late := m.records.take 16 |>.foldl (addLate (s.obj 0x440081 50)) s.table.late
      let s := { s with table := { s.table with late := late, reach := Tbl.set 0 s.table.reach m.sender m.reach.toNat } }
      let t := if m.ownState = 5 then s.noteNoAuto s.table.roster.entries m.sender else s
      t.editRoster (s.reportedEntries m))

/-- A list brought to 18 entries. -/
def eighteen {α : Type} (d : α) (l : List α) : List α := (List.range 18).map fun p => l.getD p d

/-- ROSTER (12, R347, R352, R384). -/
def execRoster (m : RosterMsg) (s : State) : Res :=
  .next (s.onRoster 2 m fun s =>
    let own := s.table.roster
    if !s.fromTable m || !(own.epoch < m.epoch || (m.epoch = own.epoch && m.sender = own.dealer)) then s
    else
      let s := { s with table := { s.table with
        claim := none, late := if m.late.isEmpty then s.table.late else eighteen {} m.late } }
      s.newRoster { dealer := m.dealer, epoch := m.epoch, entries := eighteen {} m.entries } false)

/-- The CLAIM wins over what this package has accepted or claimed (12, R352). -/
def Table.claimWins (t : Table) (m : RosterMsg) : Bool :=
  let closer := fun (p : Nat) => t.distance m.sender < t.distance p
  if t.roster.epoch < m.epoch then
    match t.claim with
    | none => true
    | some e => e < m.epoch || (e = m.epoch && closer t.position)
  else m.epoch == t.roster.epoch && t.byClaim && closer t.roster.dealer

/-- CLAIM (12, R350 to R352). -/
def execClaim (m : RosterMsg) (s : State) : Res :=
  .next (s.onRoster 3 m fun s =>
    if !s.fromTable m || !s.table.claimWins m then s
    else
      ({ s with table := { s.table with claim := none } }).newRoster
        { dealer := m.sender, epoch := m.epoch, entries := eighteen {} m.entries } true)

/-- REPORT_TIMEOUT: the dealer marks a position DOWN (12, R348, R354). -/
def execReportTimeout (pos : Nat) (s : State) : Res :=
  .next (
    if s.deals && decide (pos < 18) && pos ≠ s.table.position && liveCode (s.posState pos) then
      let es := s.table.roster.entries
      (s.noteNoAuto es pos).editRoster (s.lossEntries es pos 4)
    else s)

/-- promote_slot (0x4100.82): on the dealer, slot n moves to the lowest KITTY position; a position that held it becomes KITTY (12,
R354, Table 12-11). -/
def State.promoteSlot (n : Nat) (s : State) : State × Status × Nat :=
  if !s.deals then (s, .notFound, 0)
  else if 16 ≤ n then (s, .badArg, 0)
  else
    let es := s.table.roster.entries
    match es.findIdx? (·.state == 3) with
    | none => (s, .notFound, 0)
    | some p =>
      let held := es.map fun e => if e.state = 2 && e.slot = n then { e with state := 3, slot := 0xFF } else e
      (s.editRoster (held.set p { held.getD p {} with state := 2, slot := n }), .ok, 0)

/-- PROMOTE_SLOT (12, R354). -/
def execPromoteSlot (ch : Channel) (n : Nat) (s : State) : Res := .next (s.objAct ch 0x4100 0x82 (State.promoteSlot n))

/-- unplaced_slots (0x4100.07). -/
def State.unplacedSlots (s : State) : Nat := (unplaced s.table.roster.entries).foldl (fun m n => m + 2 ^ n) 0

end Sys2Proof.Machine
end

