-- ==== Sys2Proof/Machine/Coll.lean ====
section
/-! DEFINITION. Groups and collectives: CREATE, DESTROY, the eight collectives, and their packets and records (12, sections 12.7 to
12.11). -/

namespace Sys2Proof.Machine

/-! ## Codes of elements in memory -/

/-- Elements `first` to `first + n − 1` of `b` bits each from a device address, with a poison mark. -/
def State.readCodes (s : State) (slot dev b first n : Nat) : List Nat × Bool :=
  let lo := first * b / 8
  let bs := s.readSlot slot (dev + lo) (((first + n) * b + 7) / 8 - lo)
  let v := leNat (plain bs)
  ((List.range n).map fun i => bits v (first * b - 8 * lo + i * b) b, anyPoison bs)

/-- Codes of `b` bits packed into bytes (04, R97). -/
def packCodes (b : Nat) (l : List Nat) : List Byte :=
  leBytes ((l.length * b + 7) / 8) (l.zipIdx.foldl (fun v (x, i) => v + x % 2 ^ b * 2 ^ (i * b)) 0)

/-- The `n` codes of `b` bits that bytes hold. -/
def unpackCodes (b n : Nat) (bs : List Byte) : List Nat := let v := leNat bs; (List.range n).map fun i => bits v (i * b) b

/-- Write elements `first` on of a tensor of `total` elements: bits of a byte that hold other elements keep their value, and the unused bits
of the tensor's last byte become 0 (04, R97). -/
def State.writeCodes (s : State) (slot dev b total first : Nat) (l : List Nat) : State :=
  if l.isEmpty then s
  else
    let lo := first * b / 8
    let n := ((first + l.length) * b + 7) / 8 - lo
    let off := first * b - 8 * lo
    if b % 8 = 0 then s.writeSlot slot (dev + lo) (good (packCodes b l))
    else
      let old := s.readSlot slot (dev + lo) n
      let v := leNat (plain old)
      let high := if total ≤ first + l.length then 0 else v / 2 ^ (off + l.length * b) * 2 ^ (off + l.length * b)
      let v' := v % 2 ^ off + leNat (packCodes b l) * 2 ^ off + high
      s.writeSlot slot (dev + lo) ((leBytes n v').zipIdx.map fun (x, i) => (x, ((old[i]?).map (·.2)).getD false))

/-- Device address and length of elements `first` to `first + n − 1`. -/
def codeSpan (dev b first n : Nat) : Nat × Nat := (dev + first * b / 8, ((first + n) * b + 7) / 8 - first * b / 8)

/-! ## Reduction (12, R377, Table 12-10) -/

/-- One pass of the tree: neighbours meet, an odd last one goes on alone. -/
def joinPairs {α : Type} (op : α → α → α) : List α → List α
  | a :: b :: t => op a b :: joinPairs op t
  | l => l

/-- The fixed tree over rank index; `n` bounds the passes. -/
def treeFold {α : Type} (op : α → α → α) (d : α) : Nat → List α → α
  | 0, l => l.headD d
  | n + 1, l => if l.length ≤ 1 then l.headD d else treeFold op d n (joinPairs op l)

/-- The reduction of one element's codes, as a converted code (12, Table 12-10). -/
def reduceCodes (fmt : Byte) (operator : Nat) (codes : List Nat) : Conved :=
  let vals := codes.map (decodeElem fmt)
  let tree := fun (op : Num → Num → Num) => treeFold op (.fin false 0 1) 15 vals
  if operator = 3 then { code := treeFold (· &&& ·) 0 15 codes }
  else if operator = 4 then { code := treeFold (· ||| ·) 0 15 codes }
  else if operator = 5 then { code := treeFold (· ^^^ ·) 0 15 codes }
  else if isIntFmt fmt then
    let v := if operator = 1 then tree Num.maxNum else if operator = 2 then tree Num.minNum else tree Num.add
    convert fmt { sat := true } 0 v
  else if operator = 1 then convert fmt {} 0 (tree Num.maxNum)
  else if operator = 2 then convert fmt {} 0 (tree Num.minNum)
  else convert fmt {} 0 (tree faddRne)

/-- Formats and operators that Table 12-10 accepts together. -/
def reduceOk (fmt : Byte) (operator : Nat) : Bool :=
  if isIntFmt fmt then decide (operator ≤ 5)
  else (fmt == 1 || fmt == 2 || fmt == 3 || fmt == 4 || fmt == 5) && decide (operator ≤ 2)

/-! ## The spine format (12, R379; 04, R99, R105, R106) -/

/-- Elements in one 4 KiB chunk of a spine part; a chunk of a block-scaled format carries its own scales. -/
def spineElems (g : Byte) : Nat :=
  if g = 0x10 then 3968 else if g = 0x18 then 3840 else 32768 / max 1 (elemBits g)

/-- Cut a list into pieces of `n`; `k` bounds their number. -/
def cut {α : Type} (n : Nat) : Nat → List α → List (List α)
  | 0, _ => []
  | k + 1, l => if l.isEmpty then [] else l.take n :: cut n k (l.drop n)

/-- A part encoded in the spine format, as chunks: coarse scale, block scales, elements; and what the conversions count. -/
def encodePart (g : Byte) (vals : List Num) : List (List Byte) × Conv :=
  let n := spineElems g
  let groups := cut n (vals.length / max 1 n + 1) vals
  let coarse := match fmtOf g with | some (.kx _ en ed) => autoCoarse (maxMag vals) en ed | _ => 0
  let one := fun (l : List Num) =>
    match fmtOf g with
    | some (.mx e emax) =>
      let bl := (cut 32 124 l).map fun (x : List Num) => encodeMx e emax { sat := true } (x.map fun v => some (v, 0))
      (bl.map (fun (b : Block) => BitVec.ofNat 8 b.scale) ++ (bl.flatMap Block.elems).map (BitVec.ofNat 8),
        bl.foldl (fun (k : Conv) (b : Block) => k.plus b.under b.sat b.nan) {})
    | some (.kx e en ed) =>
      let bl := (cut 16 240 l).map fun (x : List Num) => encodeKx e en ed coarse false { sat := true } (x.map fun v => some (v, 0))
      (leBytes 4 coarse.toNat ++ bl.map (fun (b : Block) => BitVec.ofNat 8 b.scale) ++ (bl.flatMap Block.elems).map (BitVec.ofNat 8),
        bl.foldl (fun (k : Conv) (b : Block) => k.plus b.under b.sat b.nan) {})
    | _ =>
      let cs := l.map (convert g { sat := true } 0)
      (packCodes (elemBits g) (cs.map Conved.code), cs.foldl (fun (k : Conv) (c : Conved) => k.plus c.under c.sat c.nan) {})
  let out := groups.map one
  (out.map (·.1), out.foldl (fun (k : Conv) x => k.plus x.2.under x.2.sat x.2.nan) {})

/-- The `n` FP32 values that one chunk holds. -/
def decodeChunk (g : Byte) (n : Nat) (bs : List Byte) : List Num :=
  match fmtOf g with
  | some (.mx e _) =>
    let nb := (n + 31) / 32
    (List.range n).map fun i => rne32 (decodeMx e (field bs (i / 32) 1) (field bs (nb + i) 1))
  | some (.kx e _ _) =>
    let nb := (n + 15) / 16
    let c : Quad := BitVec.ofNat 32 (field bs 0 4)
    (List.range n).map fun i => rne32 (decodeKx e c (field bs (4 + i / 16) 1) none (i % 16) (field bs (4 + nb + i) 1))
  | _ => (unpackCodes (elemBits g) n bs).map fun x => if isIntFmt g then rne32 (decodeElem g x) else decodeElem g x

/-! ## Shape of a collective (12, sections 12.8 and 12.9) -/

/-- First element and number of part `i` of `n` parts of `count` elements (12, Table 12-8). -/
def partOf (count n i : Nat) : Nat × Nat := let lo := i * count / n; (lo, (i + 1) * count / n - lo)

/-- A SUM ALL_REDUCE on a hierarchical group: slots per table (12, R379). -/
def Coll.hier (c : Coll) (g : Group) : Option Nat := if c.opcode = 1 && c.operator = 0 then g.slots else none

/-- Members at the reduction level, in rank order: the slots of this table, or the whole group. -/
def Coll.level (c : Coll) (g : Group) : List Nat :=
  match c.hier g with
  | some n => (List.range n).map (· + g.rank / n * n)
  | none => List.range g.members.length
/-- Members at the spine level, by table rank. -/
def Coll.spine (c : Coll) (g : Group) : List Nat :=
  match c.hier g with
  | some n => (List.range (g.members.length / n)).map fun t => t * n + g.rank % n
  | none => []

/-- Reductions: ALL_REDUCE, REDUCE_SCATTER, REDUCE. -/
def Coll.reduces (c : Coll) : Bool := c.opcode == 1 || c.opcode == 2 || c.opcode == 5

/-- Ranks that this member exchanges data with (12, R370, R377, R379). -/
def peersOf (c : Coll) (g : Group) : List Nat :=
  let all := (List.range g.members.length).filter (· ≠ g.rank)
  if c.opcode = 4 || c.opcode = 5 then (if g.rank = c.root then all else [c.root])
  else match c.hier g with
    | some _ => all.filter fun p => (c.level g).contains p || (c.spine g).contains p
    | none => all

/-- Bits of an element, and elements in a 4 KiB chunk. -/
def Coll.bits' (c : Coll) : Nat := elemBits c.format
def Coll.perChunk (c : Coll) : Nat := 32768 / max 1 c.bits'
def Coll.chunksOf (c : Coll) (n : Nat) : Nat := (n + c.perChunk - 1) / c.perChunk

/-- The elements of src that rank `p` reduces: its shard, or everything for the root of a REDUCE (12, R377). -/
def Coll.shard (c : Coll) (g : Group) (p : Nat) : Nat × Nat :=
  if c.opcode = 5 then (if p = c.root then (0, c.count) else (0, 0))
  else match c.hier g with
    | some n => partOf c.count n (p % n)
    | none => partOf c.count g.members.length p

/-- Elements of this member's dst (12, Table 12-8). -/
def Coll.dstCount (c : Coll) (g : Group) : Nat :=
  if c.opcode = 2 then (c.shard g g.rank).2 else if c.opcode = 3 || c.opcode = 6 then g.members.length * c.count else c.count

/-- Where this member's reduced elements lie in its dst. -/
def Coll.dstFirst (c : Coll) (g : Group) : Nat := if c.opcode = 1 then (c.shard g g.rank).1 else 0

/-- The spine part of a table rank within the member's shard (12, R379). -/
def Coll.part (c : Coll) (g : Group) (t : Nat) : Nat × Nat :=
  match c.hier g with
  | some n => partOf (c.shard g g.rank).2 (g.members.length / n) t
  | none => (0, 0)
def Coll.spineFmt (c : Coll) : Byte := if c.spineFormat = 0 then c.format else c.spineFormat
def Coll.partChunks (c : Coll) (g : Group) (t : Nat) : Nat := ((c.part g t).2 + spineElems c.spineFmt - 1) / spineElems c.spineFmt
/-- Table rank of a member. -/
def Coll.tableRank (c : Coll) (g : Group) (r : Nat) : Nat := match c.hier g with | some n => r / n | none => 0

/-- What rank `from'` writes into `to'`'s dst: first element in the sender's source, first in dst, and number (12, Table 12-8). -/
def Coll.move (c : Coll) (g : Group) (from' to' : Nat) : Nat × Nat × Nat :=
  match c.opcode with
  | 1 => let (a, n) := c.shard g from'; (a, a, n)
  | 3 => (0, from' * c.count, c.count)
  | 4 => if from' = c.root then (0, 0, c.count) else (0, 0, 0)
  | 6 => (to' * c.count, from' * c.count, c.count)
  | _ => (0, 0, 0)

/-! ## Landing areas and credits (12, R364, R375) -/

/-- Index of rank `from'`'s area in the landing region of rank `to'`, and the window of chunks that it gives, with the place of its first.
A direct exchange of a hierarchical group shares a spine area among the slots of its table. -/
def landingArea (g : Group) (spine : Bool) (from' to' : Nat) : Nat × Nat :=
  let w := g.landingPer / 4096
  let idx := fun (a b : Nat) => if a < b then a else a - 1
  match g.slots with
  | none => (idx from' to' * w, w)
  | some n =>
    if from' / n = to' / n then (idx (from' % n) (to' % n) * w, w)
    else
      let base := (n - 1 + idx (from' / n) (to' / n)) * w
      if spine then (base, w) else (base + from' % n * (w / n), w / n)

/-- Offset in the landing region of chunk `k`. -/
def landingOff (g : Group) (spine : Bool) (from' to' k : Nat) : Nat :=
  let (b, w) := landingArea g spine from' to'
  4096 * (b + k % max 1 w)

/-! ## Flows: 0 and 1 land at the level and at the spine, 2 goes to dst -/

def flowKey (flow rank : Nat) : Nat := flow * 2 ^ 20 + rank
def Coll.sentTo (c : Coll) (f p : Nat) : Nat := Tbl.get 0 c.sent (flowKey f p)
def Coll.backFrom (c : Coll) (f p : Nat) : Nat := Tbl.get 0 c.back (flowKey f p)
def Coll.usedOf (c : Coll) (f p : Nat) : Nat := Tbl.get 0 c.used (flowKey f p)
def Coll.has (c : Coll) (f p k : Nat) : Bool := Tbl.get false c.got (flowKey f p * 2 ^ 32 + k)
/-- The landing flow of a peer. -/
def Coll.landFlow (c : Coll) (g : Group) (p : Nat) : Nat := if (c.level g).contains p then 0 else 1

/-- Chunks that this member has for rank `p` in a flow now. -/
def Coll.ready' (c : Coll) (g : Group) (f p : Nat) : Nat :=
  match f with
  | 0 => if c.reduces && (c.level g).contains p then c.chunksOf (c.shard g p).2 else 0
  | 1 => if (c.spine g).contains p && p ≠ g.rank then (c.parts.getD (c.tableRank g p) []).length + c.mine.length else 0
  | _ => if c.stage = 3 && (c.opcode ≠ 1 || (c.level g).contains p) then c.chunksOf (c.move g g.rank p).2.2 else 0

/-- The codes of chunk `k` of a stretch of `n` elements from `first`. -/
def State.chunkCodes (s : State) (c : Coll) (slot dev first n k : Nat) : List Nat × Bool :=
  s.readCodes slot dev c.bits' (first + k * c.perChunk) (min c.perChunk (n - k * c.perChunk))

/-! ## Slots (03, R79; 12, R375) -/

/-- The engine of CD `k` mod 8 can move some bytes: while the group's seat plays, in 0xB slots where they lie, on the route from there to the CD
for a read, and on the route from the CD for a write (08, R236); otherwise in reserved slots. -/
def State.collOpen (s : State) (g : Group) (k : Nat) (reads : List (Nat × Nat)) (writes : List (Nat × Nat) := []) : Bool :=
  let die := fun (x : Nat × Nat) => dieOf s.memory.bandMode x.1
  !s.groupPlays g
    || ((reads.all fun x => x.2 == 0 || (s.memOpen .coll x.1 x.2 && s.routeOpen .coll false (die x) (k % 8)))
      && writes.all fun x => x.2 == 0 || (s.memOpen .coll x.1 x.2 && s.routeOpen .coll false (k % 8) (die x)))

/-- And on the IPS link of that CD, for what leaves for another package. -/
def State.collOut (s : State) (g : Group) (k : Nat) : Bool := !s.groupPlays g || s.routeOpen .coll true (k % 8) (edgeOf (k % 8))

/-- Bytes that chunk `k` of a flow for rank `p` is read from. -/
def Coll.outSpan (c : Coll) (g : Group) (f p k : Nat) : List (Nat × Nat) :=
  let piece := fun (dev first n : Nat) => [codeSpan dev c.bits' (first + k * c.perChunk) (min c.perChunk (n - k * c.perChunk))]
  match f with
  | 0 => let (a, n) := c.shard g p; piece c.src a n
  | 1 => []
  | _ => let (a, _, n) := c.move g g.rank p; piece (if c.opcode = 1 then c.dst else c.src) a n

/-- One chunk of a flow for rank `p`: its bytes and poison mark. -/
def State.chunkOut (s : State) (g : Group) (c : Coll) (f p k : Nat) : List Byte × Bool :=
  match f with
  | 0 =>
    let (a, n) := c.shard g p
    let (l, bad) := s.chunkCodes c c.srcSlot c.src a n k
    (packCodes c.bits' l, bad)
  | 1 =>
    let ps := c.parts.getD (c.tableRank g p) []
    ((if k < ps.length then ps.getD k [] else c.mine.getD (k - ps.length) []), false)
  | _ =>
    let (a, _, n) := c.move g g.rank p
    let (l, bad) := if c.opcode = 1 then s.chunkCodes c c.dstSlot c.dst a n k else s.chunkCodes c c.srcSlot c.src a n k
    (packCodes c.bits' l, bad)

/-- A COLL_DATA packet (12, R374). -/
def State.sendCollChunk (s : State) (g : Group) (c : Coll) (f p k : Nat) (bs : List Byte) : State :=
  match g.members[p]? with
  | none => s
  | some m =>
    let off := if f = 2 then ((c.move g g.rank p).2.1 + k * c.perChunk) * c.bits' / 8 else landingOff g (f == 1) g.rank p k
    s.sendTo m.table m.slot
      { op := 7, tenant := g.tenant, group := g.id, incarnation := (s.seat g.seat).inc
        arg := BitVec.ofNat 64 (c.seq.toNat % 65536 * 2 ^ 48 + b2n (f == 2) * 2 ^ 47 + off), data := bs } (k % 8)

/-! ## Progress -/

/-- Group and collective as they stand now. -/
def State.collOf (s : State) (tenant id : Half) (seq : Quad) : Option (Group × Coll) :=
  (s.group tenant id).bind fun g => (g.colls.find? (·.seq == seq)).map fun c => (g, c)

/-- A poisoned chunk: DONE names it to its peer, and the collective fails (12, R372, R374). -/
def State.poisonedChunk (s : State) (g : Group) (c : Coll) (f p k : Nat) : State :=
  (s.sendRec g p recDone { s.ownRec g c.seq.toNat with status := .poison, chunk := some (f * 2 ^ 32 + k) }).failColl g c .poison g.rank

/-- Send what flow `f` to rank `p` may send: its READY is in, a credit is left for a landing chunk, and the engine owns slots (12, R370,
R375). -/
def State.sendFlow (s : State) (t id : Half) (seq : Quad) (f p : Nat) : Nat → State
  | 0 => s
  | n + 1 =>
    match s.collOf t id seq with
    | none => s
    | some (g, c) =>
      let k := c.sentTo f p
      let w := (landingArea g (f == 1) g.rank p).2
      if (Tbl.get none c.ready p).isNone || c.ready' g f p ≤ k || (f ≠ 2 && c.backFrom f p + w ≤ k)
        || !s.collOpen g k (c.outSpan g f p k) || !s.collOut g k then s
      else
        let (bs, bad) := s.chunkOut g c f p k
        if bad then s.poisonedChunk g c f p k
        else
          ((s.sendCollChunk g c f p k bs).modColl g seq fun c => { c with sent := Tbl.set 0 c.sent (flowKey f p) (k + 1) }).sendFlow t id seq f p n

/-- Send what can be sent to every peer. -/
def State.sendFlows (s : State) (g : Group) (c : Coll) : State :=
  c.peers.foldl (fun s p =>
    [0, 1, 2].foldl (fun s f =>
      match s.collOf g.tenant g.id c.seq with
      | some (h, k) => s.sendFlow g.tenant g.id c.seq f p (k.ready' h f p)
      | none => s) s) s

/-- A landing chunk of rank `p` has been consumed: its credit returns (12, R375). -/
def State.returnCredit (s : State) (g : Group) (c : Coll) (f p : Nat) : State :=
  let s := s.modColl g c.seq fun c => { c with used := Tbl.modify 0 c.used (flowKey f p) (· + 1) }
  if p = g.rank then s else s.sendRec g p recCredit { s.ownRec g c.seq.toNat with credits := 1 }

/-- Bytes of a landing chunk of rank `p`. -/
def State.landed (s : State) (g : Group) (spine : Bool) (p k n : Nat) : List PByte :=
  s.readSlot g.landSlot (g.landing + landingOff g spine p g.rank k) n

/-- The lowest rank whose landing chunk carries poison (08, R241; 12, R372, R373). -/
def State.poisonedRank (s : State) (g : Group) (spine : Bool) (ranks : List Nat) (k n : Nat) : Option Nat :=
  ranks.find? fun p => p ≠ g.rank && anyPoison (s.landed g spine p k n)

/-- Count a collective's conversions: set 0 of the issuing CD (12, R377; 04, R112). -/
def State.countColl (s : State) (g : Group) (k : Conv) : State := s.countConv g.cd 0 k.under k.sat k.nan

def countsOf (l : List Conved) : Conv := l.foldl (fun (k : Conv) c => k.plus c.under c.sat c.nan) {}

/-- The landing chunk of rank `p`. -/
def landSpan (g : Group) (spine : Bool) (p k : Nat) : Nat × Nat := (g.landing + landingOff g spine p g.rank k, 4096)

/-- The engine owns the slots that the reduction of chunk `k` of this member's shard needs: it reads src and the landing chunks, and writes dst. -/
def State.reduceOpen (s : State) (g : Group) (c : Coll) (k : Nat) : Bool :=
  let (a, n) := c.shard g g.rank
  let m := min c.perChunk (n - k * c.perChunk)
  s.collOpen g k (codeSpan c.src c.bits' (a + k * c.perChunk) m :: ((c.level g).filter (· ≠ g.rank)).map fun p => landSpan g false p k)
    (if (c.hier g).isSome then [] else [codeSpan c.dst c.bits' (c.dstFirst g + k * c.perChunk) m])

/-- Reduce the next chunk of this member's shard once every contribution is there (12, R377); answers whether one was. A poisoned contribution ends
the collective, with the lowest rank that gave one (R372, R373). Integers are summed exactly at this level; the result of a hierarchical stage is
FP32 (R377, R379). -/
def State.reduceNext (s : State) (g : Group) (c : Coll) : Option State :=
  let k := c.usedOf 0 g.rank
  let (a, n) := c.shard g g.rank
  let lv := c.level g
  if c.stage ≠ 0 || !c.reduces || c.chunksOf n ≤ k || (lv.any fun p => p ≠ g.rank && !c.has 0 p k)
      || !s.reduceOpen g c k then none
  else
    let m := min c.perChunk (n - k * c.perChunk)
    let len := (m * c.bits' + 7) / 8
    let own := s.chunkCodes c c.srcSlot c.src a n k
    match lv.find? fun p => if p = g.rank then own.2 else anyPoison (s.landed g false p k len) with
    | some p => some (s.failColl g c .poison p)
    | none =>
      let cols := lv.map fun p => if p = g.rank then own.1 else unpackCodes c.bits' m (plain (s.landed g false p k len))
      let at' := fun (i : Nat) => cols.map fun l => l.getD i 0
      let s := lv.foldl (fun s p => s.returnCredit g c 0 p) s
      if (c.hier g).isSome then
        let v := (List.range m).map fun i => (toF32 (treeFold (if isIntFmt c.format then Num.add else faddRne) (.fin false 0 1) 15
          ((at' i).map (decodeElem c.format)))).toNat
        some (s.modColl g c.seq fun c => { c with vals := c.vals ++ v })
      else
        let r := (List.range m).map fun i => reduceCodes c.format c.operator (at' i)
        some ((s.writeCodes c.dstSlot c.dst c.bits' (c.dstCount g) (c.dstFirst g + k * c.perChunk) (r.map (·.code))).countColl g (countsOf r))

/-- Every chunk of this member's shard is reduced. -/
def Coll.reduced (c : Coll) (g : Group) : Bool := decide (c.chunksOf (c.shard g g.rank).2 ≤ c.usedOf 0 g.rank)

/-- Stage 2 of R379 begins: residual, quantisation, and the parts for the tables. -/
def State.quantise (s : State) (g : Group) (c : Coll) : State :=
  let n := c.vals.length
  let v := c.vals.map fun x => ofF32 (BitVec.ofNat 32 x)
  let (r, bad) := if c.residualOn then s.readCodes c.resSlot c.residual 32 0 n else ([], false)
  if bad then s.failColl g c .poison g.rank
  else
    let x := if c.residualOn then v.zipIdx.map fun (a, i) => faddRne a (ofF32 (BitVec.ofNat 32 (r.getD i 0))) else v
    let tables := List.range (c.spine g).length
    let enc := tables.map fun t => let (a, m) := c.part g t; encodePart c.spineFmt ((x.drop a).take m)
    let dec := tables.flatMap fun t =>
      (enc.getD t ([], {})).1.zipIdx.flatMap fun (b, i) => decodeChunk c.spineFmt (min (spineElems c.spineFmt) ((c.part g t).2 - i * spineElems c.spineFmt)) b
    let s := if c.residualOn then
        s.writeCodes c.resSlot c.residual 32 n 0 (x.zipIdx.map fun (a, i) => (toF32 (a.add (dec.getD i (.fin false 0 1)).neg)).toNat)
      else s
    let s := enc.foldl (fun s e => s.countColl g e.2) s
    s.modColl g c.seq fun c => { c with stage := 1, vals := [], parts := enc.map (·.1) }

/-- Reduce the next chunk of this member's spine part. -/
def State.spineNext (s : State) (g : Group) (c : Coll) : Option State :=
  let t := c.tableRank g g.rank
  let k := c.usedOf 1 g.rank
  if c.stage ≠ 1 || c.partChunks g t ≤ k || ((c.spine g).any fun p => p ≠ g.rank && !c.has 1 p k)
      || !s.collOpen g k (((c.spine g).filter (· ≠ g.rank)).map fun p => landSpan g true p k) then none
  else if let some p := s.poisonedRank g true (c.spine g) k 4096 then some (s.failColl g c .poison p)
  else
    let m := min (spineElems c.spineFmt) ((c.part g t).2 - k * spineElems c.spineFmt)
    let cols := (c.spine g).map fun p =>
      decodeChunk c.spineFmt m (if p = g.rank then (c.parts.getD t []).getD k [] else plain (s.landed g true p k 4096))
    let v := (List.range m).map fun i => (toF32 (treeFold faddRne (.fin false 0 1) 15 (cols.map fun l => l.getD i (.fin false 0 1)))).toNat
    let s := (c.spine g).foldl (fun s p => s.returnCredit g c 1 p) s
    some (s.modColl g c.seq fun c => { c with vals := c.vals ++ v })

/-- Decoded spine results of table rank `t`, chunk `k`, become elements of dst (12, R379 stage 3). DESIGN CHOICE: sat is 0, as in Table 12-10, where
R379 names none (log 171). -/
def State.placeResult (s : State) (g : Group) (c : Coll) (t k : Nat) (bs : List Byte) : State :=
  let (a, n) := c.part g t
  let e := spineElems c.spineFmt
  let l := (decodeChunk c.spineFmt (min e (n - k * e)) bs).map (convert c.format {} 0)
  (s.writeCodes c.dstSlot c.dst c.bits' (c.dstCount g) (c.dstFirst g + a + k * e) (l.map (·.code))).countColl g (countsOf l)

/-- Bytes of dst that a spine result of table rank `t`, chunk `k`, becomes. -/
def Coll.resultSpan (c : Coll) (g : Group) (t k : Nat) : Nat × Nat :=
  let (a, n) := c.part g t
  let e := spineElems c.spineFmt
  codeSpan c.dst c.bits' (c.dstFirst g + a + k * e) (min e (n - k * e))

/-- The reduced spine part is converted once more, and goes to every table, its own included. -/
def State.shareResult (s : State) (g : Group) (c : Coll) : State :=
  let (l, k) := encodePart c.spineFmt (c.vals.map fun x => ofF32 (BitVec.ofNat 32 x))
  let s := (s.countColl g k).modColl g c.seq fun c => { c with stage := 2, mine := l }
  l.zipIdx.foldl (fun s (b, i) => s.placeResult g c (c.tableRank g g.rank) i b) s

/-- Take the next spine result of rank `p`. -/
def State.resultNext (s : State) (g : Group) (c : Coll) (p : Nat) : Option State :=
  let own := c.partChunks g (c.tableRank g g.rank)
  let k := c.usedOf 1 p
  let t := c.tableRank g p
  if c.stage ≠ 2 || p = g.rank || k < own || own + c.partChunks g t ≤ k || !c.has 1 p k
      || !s.collOpen g k [landSpan g true p k] [c.resultSpan g t (k - own)] then none
  else if anyPoison (s.landed g true p k 4096) then some (s.failColl g c .poison p)
  else some ((s.placeResult g c t (k - own) (plain (s.landed g true p k 4096))).returnCredit g c 1 p)

/-- Every spine result has been taken. -/
def Coll.resultsIn (c : Coll) (g : Group) : Bool :=
  (c.spine g).all fun p => p == g.rank || decide (c.partChunks g (c.tableRank g g.rank) + c.partChunks g (c.tableRank g p) ≤ c.usedOf 1 p)

/-- Consume landing chunks while one can be; `n` bounds their number. -/
def State.consume (s : State) (t id : Half) (seq : Quad) : Nat → State
  | 0 => s
  | n + 1 =>
    match s.collOf t id seq with
    | none => s
    | some (g, c) =>
      match ((s.reduceNext g c).or (s.spineNext g c)).or ((c.spine g).findSome? (s.resultNext g c)) with
      | some s => s.consume t id seq n
      | none => s

/-- The member's own block of a moving collective is copied, once (12, Table 12-8). -/
def State.copyOwn (s : State) (g : Group) (c : Coll) : State :=
  let (a, b, n) := c.move g g.rank g.rank
  if c.stage ≠ 3 || c.copied || !s.collOpen g 0 [codeSpan c.src c.bits' a n] [codeSpan c.dst c.bits' b n] then s
  else if c.opcode = 1 || n = 0 then s.modColl g c.seq fun c => { c with copied := true }
  else
    let (l, bad) := s.readCodes c.srcSlot c.src c.bits' a n
    if bad then s.failColl g c .poison g.rank
    else (s.writeCodes c.dstSlot c.dst c.bits' (c.dstCount g) b l).modColl g c.seq fun c => { c with copied := true }

/-- A stage ends and the next begins: reduction, spine reduction, spine results, gather. -/
def State.nextStage (s : State) (g : Group) (c : Coll) : State :=
  if c.stage = 0 && c.reduces && c.reduced g then
    if (c.hier g).isSome then
      let r := [codeSpan c.residual 32 0 c.vals.length]
      if !c.residualOn || s.collOpen g 0 r r then s.quantise g c else s
    else s.modColl g c.seq fun c => { c with stage := 3 }
  else if c.stage = 1 && c.partChunks g (c.tableRank g g.rank) ≤ c.usedOf 1 g.rank then
    let t := c.tableRank g g.rank
    if s.collOpen g 0 [] ((List.range (c.partChunks g t)).map fun k => c.resultSpan g t k) then s.shareResult g c else s
  else if c.stage = 2 && c.resultsIn g then s.modColl g c.seq fun c => { c with stage := 3 }
  else s

/-! ## Digests (12, R381, R382; 18, R539) -/

/-- Votes of R382 by rank: 0 agrees, 1 suspect, 2 poisoned. -/
def verdicts (l : List (Option Nat)) : List Nat :=
  let votes := l.filterMap id
  let major := votes.find? fun v => votes.length < 2 * (votes.filter (· == v)).length
  l.map fun v => match v with
    | none => 2
    | some x => if major == some x then 0 else 1

/-- The digest record of this member goes to a peer. -/
def State.sendDigest (s : State) (g : Group) (c : Coll) (p : Nat) : State :=
  match Tbl.get none c.digests g.rank with
  | none => s
  | some v => s.sendRec g p recDigest { s.ownRec g c.seq.toNat with digest := v.getD 0, status := if v.isSome then .ok else .poison }

/-- This member's digest is known: every peer whose READY is in gets it (12, R370, R381). -/
def State.setDigest (s : State) (g : Group) (c : Coll) (v : Option Nat) : State :=
  let s := s.modColl g c.seq fun c => { c with mine := [], digests := Tbl.set none c.digests g.rank (some v) }
  c.peers.foldl (fun s p =>
    match s.collOf g.tenant g.id c.seq with
    | some (h, k) => if (Tbl.get none k.ready p).isSome then s.sendDigest h k p else s
    | none => s) s

/-- The member digest of the chunks of src: SHA-384 over the digests of the eight CDs' chunks (12, R381). -/
def digestOf (chunks : List (List Byte)) : Nat :=
  sha384 (cds.flatMap fun n => leBytes 48 (sha384 ((chunks.zipIdx.filter fun x => x.2 % 8 == n).flatMap (·.1))))

/-- The next chunk of src that a DIGEST reads: its number, address and length. -/
def Coll.digestSpan (c : Coll) : Nat × Nat × Nat := let k := c.mine.length; (k, c.src + 4096 * k, min 4096 (c.count - 4096 * k))

/-- `sweep` bytes per µs since the issue allow the next chunk; 0 is no limit, and stamps of two epochs give no duration (12, R381; 13, R391). -/
def State.sweepOpen (s : State) (c : Coll) : Bool :=
  c.sweep == 0 || c.issued.toNat / 2 ^ 60 ≠ s.now.toNat / 2 ^ 60
    || decide (1000 * (4096 * c.mine.length + c.digestSpan.2.2) ≤ c.sweep * (s.now - c.issued).toNat)

/-- A DIGEST reads its next chunk, through the engine of the chunk's CD; a poisoned one keeps the member out of the vote, and after the last the digest
is known (12, R375, R381). Answers whether something was done. -/
def State.digestNext (s : State) (g : Group) (c : Coll) : Option State :=
  let (k, a, n) := c.digestSpan
  if (Tbl.get none c.digests g.rank).isSome then none
  else if n = 0 then some (s.setDigest g c (some (digestOf c.mine)))
  else if !s.sweepOpen c || !s.collOpen g k [(a, n)] then none
  else
    let bs := s.readSlot c.srcSlot a n
    some (if anyPoison bs then s.setDigest g c none else s.modColl g c.seq fun c => { c with mine := c.mine ++ [plain bs] })

/-- A DIGEST reads on while it can; `n` bounds the chunks. -/
def State.digestAll (s : State) (t id : Half) (seq : Quad) : Nat → State
  | 0 => s
  | n + 1 =>
    match s.collOf t id seq with
    | none => s
    | some (g, c) =>
      match s.digestNext g c with
      | some s => s.digestAll t id seq n
      | none => s

/-- This package's member was suspect: the third time within 24 h folds the package (18, R539). -/
def State.noteSuspect (s : State) : State :=
  let recent := (s.maint.suspects.filter fun t => s.ns < t.toNat % 2 ^ 60 + 86400000000000) ++ [s.now]
  let s := { s with maint := { s.maint with suspects := recent } }
  if 3 ≤ recent.length then s.foldPackage 6 else s

/-- The vote, once every digest is in (12, R382). -/
def State.vote (s : State) (g : Group) (c : Coll) : State :=
  let l := (List.range g.members.length).map fun r => (Tbl.get none c.digests r).getD none
  let v := verdicts l
  let votes := l.filterMap id
  let agree := votes.eraseDups.length ≤ 1
  let st : Status := if !agree then .integrity else if v.contains 2 then .poison else .ok
  let s := s.writeSlot c.dstSlot c.dst (good (v.map (BitVec.ofNat 8)))
  let s := if st = .integrity then
      s.report 3 0x0601 1 (some g.seat) [g.id.toNat, c.seq.toNat, v.getD g.rank 0, b2n (v.contains 0)] (some .integrity)
    else s
  let s := s.endColl g c st (if st = .poison then v.findIdx (· == 2) else if st = .integrity then v.findIdx (· == 1) else 0xFFFFFFFF)
  if st = .integrity && v.getD g.rank 0 = 1 then s.noteSuspect else s

/-! ## Completion (12, R370, R373, R383) -/

/-- Everything that this member sends has been sent, and its landing chunks have come back as credits. -/
def Coll.allSent (c : Coll) (g : Group) : Bool :=
  c.peers.all fun p => [0, 1, 2].all fun f => c.ready' g f p ≤ c.sentTo f p && (f == 2 || c.sentTo f p ≤ c.backFrom f p)

/-- Everything that peers write into dst has arrived. -/
def Coll.allIn (c : Coll) (g : Group) : Bool :=
  c.peers.all fun p =>
    (c.opcode == 1 && !(c.level g).contains p)
      || (List.range (c.chunksOf (c.move g p g.rank).2.2)).all fun k => c.has 2 p k

/-- Every peer's READY is in. -/
def Coll.allReady (c : Coll) : Bool := c.peers.all fun p => (Tbl.get none c.ready p).isSome

/-- A collective ends with ST_OK once nothing of it is left; BARRIER and one of count 0 when every READY has arrived (12, R370,
section 12.8). The end of one of count 0 never comes ahead of the commands before it in the engine's queue (03, R90). -/
def State.tryEnd (s : State) (g : Group) (c : Coll) : State :=
  if !c.allReady || (c.count = 0 && (s.opById c.op).any fun o => !s.isHead o) then s
  else if c.opcode = 7 || c.count = 0 then s.endColl g c .ok
  else if c.opcode = 8 then
    if ((List.range g.members.length).all fun r => (Tbl.get none c.digests r).isSome) && s.collOpen g 0 [] [(c.dst, g.members.length)] then
      s.vote g c
    else s
  else if c.stage = 3 && c.copied && c.allSent g && c.allIn g then s.endColl g c .ok
  else s

/-- A collective runs as far as what it has lets it: consume, change stage, send, end; `n` bounds the rounds. -/
def State.stepColl (s : State) (t id : Half) (seq : Quad) : Nat → State
  | 0 => s
  | n + 1 =>
    match s.collOf t id seq with
    | none => s
    | some (g, c) =>
      let bound := 2 * (c.chunksOf (c.shard g g.rank).2 + (c.spine g).length * (c.partChunks g 0 + 2)) + 2
      let s := if c.opcode = 7 || c.count = 0 then s
        else if c.opcode = 8 then s.digestAll t id seq (c.count / 4096 + 3) else s.consume t id seq bound
      match s.collOf t id seq with
      | none => s
      | some (g, c) =>
        let s := if c.opcode = 7 || c.opcode = 8 || c.count = 0 then s else s.nextStage g c
        let s := match s.collOf t id seq with
          | some (g, c) => if c.opcode = 7 || c.opcode = 8 || c.count = 0 then s else s.copyOwn g c
          | none => s
        match s.collOf t id seq with
        | none => s
        | some (g, c) =>
          let s := if c.opcode = 7 || c.opcode = 8 || c.count = 0 then s else s.sendFlows g c
          match s.collOf t id seq with
          | none => s
          | some (g, c) => (s.tryEnd g c).stepColl t id seq n

/-- The first collective of every group runs (12, section 12.8). -/
def State.pumpColls (s : State) : State :=
  (s.groups.map fun g => (g.tenant, g.id)).foldl (fun s k =>
    match (s.group k.1 k.2).bind (·.colls.head?) with
    | some c => s.stepColl k.1 k.2 c.seq 6
    | none => s) s

/-- A DIGEST waits for slots alone: for its next chunk, or for the verdicts. -/
def State.digestStuck (s : State) (g : Group) (c : Coll) : Bool :=
  let (k, a, n) := c.digestSpan
  if (Tbl.get none c.digests g.rank).isSome then
    ((List.range g.members.length).all fun r => (Tbl.get none c.digests r).isSome) && !s.collOpen g 0 [] [(c.dst, g.members.length)]
  else n ≠ 0 && s.sweepOpen c && !s.collOpen g k [(a, n)]

/-- A collective waits for slots alone: its completion record, a chunk that it may send, or the next one that it reads or reduces (03, R79; 12,
R375). -/
def State.collStuck (s : State) (o : Op) : Bool :=
  (o.owed.any fun x => !s.collParts o.seat o.cd [(x.1, x.2.length)]) ||
  s.groups.any fun g => s.groupPlays g && g.colls.head?.any fun c => c.op == o.id && c.count ≠ 0 &&
    (if c.opcode = 8 then s.digestStuck g c else decide (c.opcode ≤ 6) && (c.peers.any fun p => [0, 1, 2].any fun f =>
        let k := c.sentTo f p
        (Tbl.get none c.ready p).isSome && decide (k < c.ready' g f p)
          && (f == 2 || decide (k < c.backFrom f p + (landingArea g (f == 1) g.rank p).2))
          && !(s.collOpen g k (c.outSpan g f p k) && s.collOut g k))
      || (let k := c.usedOf 0 g.rank
          c.stage == 0 && c.reduces && decide (k < c.chunksOf (c.shard g g.rank).2)
            && ((c.level g).all fun p => p == g.rank || c.has 0 p k) && !s.reduceOpen g c k))

/-! ## Records that come early, and mismatches (12, R370, R371) -/

/-- A READY of the collective's own sequence: equal hashes let data move, another hash is a mismatch. -/
def State.takeReady (s : State) (g : Group) (c : Coll) (r : CollRec) : State :=
  if r.hash ≠ c.hash then s.failColl g c .mismatch r.rank
  else
    let s := s.modColl g c.seq fun c => { c with ready := Tbl.set none c.ready r.rank (some r.issueTime) }
    if c.opcode = 8 && c.count ≠ 0 then s.sendDigest g c r.rank else s

/-- The records that are held for a sequence take effect when it is issued: a mismatch or an ABORT ends it; else its READYs are taken. -/
def State.takeHeld (s : State) (g : Group) (seq : Quad) : State :=
  let aborts := g.aborts.filter fun r => r.sequence == seq.toNat
  let early := g.early.filter fun r => r.sequence == seq.toNat
  let s := s.modGroup g.tenant g.id fun g => { g with
    aborts := g.aborts.filter fun r => r.sequence ≠ seq.toNat, early := g.early.filter fun r => r.sequence ≠ seq.toNat }
  match s.collOf g.tenant g.id seq with
  | none => s
  | some (g, c) =>
    match heldEnd aborts early c.hash with
    | some r => if r.own then s.failColl g c .mismatch r.rank else s.abortColl g c r.status r.rank
    | none => early.foldl (fun s r =>
        match s.collOf g.tenant g.id seq with
        | some (g, c) => s.takeReady g c r
        | none => s) s

/-! ## Issue of a collective (12, R361, R367 to R369) -/

/-- An opcode's descriptor, with the checks of R369 that its translation makes. -/
structure CollDesc where
  group : Half
  opcode : Nat
  operator : Nat
  format : Byte
  spineFormat : Byte
  residualOn : Bool
  count : Nat
  src : Nat
  dst : Nat
  residual : Nat
  root : Nat
  record : Nat
  sweep : Nat
deriving DecidableEq, Repr

def collDesc (b : List Byte) : CollDesc :=
  { group := BitVec.ofNat 16 (field b 0 2), opcode := field b 2 1, operator := field b 3 1, format := b.getD 4 0, spineFormat := b.getD 5 0
    residualOn := bit (field b 6 1) 0, count := field b 8 8, src := field b 0x10 8, dst := field b 0x18 8, residual := field b 0x20 8
    root := field b 0x28 4, record := field b 0x2C 4, sweep := field b 0x30 4 }

/-- The opcode hash of R368. -/
def collHash (b : List Byte) : Nat :=
  sha384 ([b.getD 2 0, b.getD 3 0, b.getD 4 0, b.getD 5 0, b.getD 6 0, 0, 0, 0] ++ (b.drop 8).take 8 ++ (b.drop 0x28).take 4) % 2 ^ 32

/-- The seat's group of an id. -/
def State.seatGroup (s : State) (n : Nat) (id : Half) : Option Group := s.groups.find? fun g => g.seat == n && g.id == id

/-- The collective that a descriptor asks for, before its addresses are translated. -/
def CollDesc.coll (d : CollDesc) (g : Group) (hash op : Nat) (seq : Quad) (now : Word) : Coll :=
  let c : Coll := { seq := seq, op := op, hash := hash, opcode := d.opcode, operator := d.operator, format := d.format, spineFormat := d.spineFormat
                    residualOn := d.residualOn, count := d.count, sweep := d.sweep, root := d.root, record := d.record, issued := now
                    stage := if d.opcode = 1 || d.opcode = 2 || d.opcode = 5 then 0 else 3 }
  { c with peers := peersOf c g }

/-- The residual is read and written: SUM ALL_REDUCE of a hierarchical group with residual_on (12, R379, R380). -/
def Coll.usesResidual (c : Coll) (g : Group) : Bool := c.residualOn && (c.hier g).isSome

/-- Seat ranges that a collective uses: address, bytes, and the rights in order of need (12, R369). -/
def CollDesc.ranges (d : CollDesc) (g : Group) (c : Coll) : List (Nat × Nat × List Acc) :=
  let n := g.members.length
  let b := fun (e : Nat) => (e * c.bits' + 7) / 8
  if d.count = 0 then []
  else match d.opcode with
    | 1 => [(d.src, b d.count, [.r]), (d.dst, b d.count, [.w])]
        ++ (if c.usesResidual g then [(d.residual, 4 * (c.shard g g.rank).2, [.r, .w])] else [])
    | 2 => [(d.src, b d.count, [.r]), (d.dst, b (c.shard g g.rank).2, [.w])]
    | 3 => [(d.src, b d.count, [.r]), (d.dst, b (n * d.count), [.w])]
    | 4 => (if g.rank = d.root then [(d.src, b d.count, [.r])] else []) ++ [(d.dst, b d.count, [.w])]
    | 5 => [(d.src, b d.count, [.r])] ++ (if g.rank = d.root then [(d.dst, b d.count, [.w])] else [])
    | 6 => [(d.src, b (n * d.count), [.r]), (d.dst, b (n * d.count), [.w])]
    | 8 => [(d.src, d.count, [.r]), (d.dst, n, [.w])]
    | _ => []

/-- A range lies in one window with the rights, and in this package's memory. -/
def rangeIn (e : Entry) (x : Nat × Nat × List Acc) : Bool :=
  x.2.1 == 0 || x.2.2.all fun k => (translate e x.1 x.2.1 k).any fun t => inOneMem t.1 x.2.1

/-- Formats and fields in their tables (12, Tables 12-7, 12-8, 12-10, R369). -/
def CollDesc.fieldsOk (d : CollDesc) (g : Group) : Bool :=
  let sum := d.opcode == 1 && d.operator == 0
  let reduces := d.opcode == 1 || d.opcode == 2 || d.opcode == 5
  [0, 2, 5, 0x10, 0x18].contains d.spineFormat.toNat
    && (sum || (d.spineFormat == 0 && !d.residualOn))
    && decide (d.root < g.members.length)
    && (d.opcode == 7 || d.count == 0 || g.cls ≠ 0)
    && (d.opcode == 7 || d.opcode == 8 || (fmtOf d.format).isSome)
    && (!reduces || reduceOk d.format d.operator)

/-- A format code of a collective that moves elements, or a spine format, is outside Table 4-1 (04, R92). -/
def CollDesc.badCode (d : CollDesc) : Bool :=
  (d.opcode ≠ 7 && d.opcode ≠ 8 && (fmtOf d.format).isNone) || (d.spineFormat ≠ 0 && (fmtOf d.spineFormat).isNone)

/-- A dst that peers write into lies in a window with c = 1 (12, R369). -/
def CollDesc.peerDstOk (d : CollDesc) (e : Entry) (g : Group) (c : Coll) : Bool :=
  !(d.opcode == 1 || d.opcode == 3 || d.opcode == 4 || d.opcode == 6) || d.count == 0 || g.members.length == 1
    || (d.ranges g c).all fun x => !(x.2.2.contains .w && x.1 == d.dst) || (translate e x.1 x.2.1 .c).isSome

/-- What the group's wire revision lacks (12, R366; 16, Table 16-7). -/
def CollDesc.lacks (d : CollDesc) (g : Group) (c : Coll) : Bool :=
  ((c.hier g).isSome && ((d.spineFormat == 0x10 && decide (g.revision < 5)) || (d.spineFormat == 0x18 && decide (g.revision < 6))))
    || (d.opcode == 8 && d.sweep ≠ 0 && decide (g.revision < 5))

/-- Checks at issue: the descriptor and the completion record lie in the slab, the descriptor has no poison, the group is used from its
issuing CD, the format codes are in Table 4-1, and the ranges lie in windows (12, R361, R369; 04, R92; 08, Table 8-7). -/
def State.collCheck (s : State) (c off : Nat) (data : Bool) : Option State :=
  if slabSize < off + 64 then some (s.windowFault c off 64 0x105)
  else
    let raw := s.slabBytes c off 64
    if anyPoison raw then some (s.poisonHalt c (slabAddr c off) 0xB)
    else
      let d := collDesc (plain raw)
      if slabSize < d.record + 16 then some (s.windowFault c d.record 16 0x105)
      else match s.seatGroup s.playSeat d.group with
        | none => none
        | some g =>
          if g.cd ≠ c then some (s.issueFault c 8)
          else if !data then none
          else if d.badCode then some (s.issueFault c 8)
          else if !d.fieldsOk g then none
          else ((d.ranges g (d.coll g 0 0 0 0)).find? fun x => !rangeIn s.playEntry x).map fun x => s.windowFault c x.1 x.2.1 (windowOf x.1)

/-- A collective completes at issue with a status. -/
def State.refuseColl (s : State) (o : Op) (d : CollDesc) (code seq : Nat) (st : Status) : State :=
  (s.countEnd st).closeColl o.seat o.cd d.record o.id (recordBytes st code d.group seq 0xFFFFFFFF)

/-- A collective starts (12, R365, R367 to R371): it takes the next sequence; a broken or spent group, a bad descriptor or a missing
feature ends it at once; else READYs leave and it runs. `code` is the instruction's opcode. A row of a deal that a peer has sent for its
sequence with another hash is a mismatch. -/
def State.startColl (s : State) (o : Op) (code : Nat) : State :=
  let d := collDesc o.data
  match s.seatGroup o.seat d.group with
  | none => s.refuseColl o d code 0 .notFound
  | some g =>
    if g.creating.isSome then s
    else
      let seq := g.seq + 1
      let s := s.modGroup g.tenant g.id fun g => { g with seq := seq }
      let g := { g with seq := seq }
      let e := (s.seat o.seat).entry
      let c := d.coll g (collHash o.data) o.id seq s.now
      let no := fun (st : Status) => s.refuseColl o d code seq.toNat st
      if g.broken then no .peerReset
      else if g.spent then no .mismatch
      else if d.opcode ≠ code || !d.fieldsOk g || !d.peerDstOk e g c then no .badArg
      else if d.lacks g c then no .unsupported
      else
        let at' := fun (a n : Nat) (k : Acc) => match translate e a n k with | some (dev, w) => (dev, slotOf e w) | none => (0, 0)
        let one := fun (a : Nat) => ((d.ranges g c).find? (·.1 == a)).map (fun x => x.2.1) |>.getD 0
        let (src, ss) := at' d.src (one d.src) .r
        let (dst, ds) := at' d.dst (one d.dst) .w
        let (res, rs) := if c.usesResidual g then at' d.residual (4 * (c.shard g g.rank).2) .w else (0, 0)
        let c := { c with src := src, srcSlot := ss, dst := dst, dstSlot := ds, residual := res, resSlot := rs }
        let s := s.modGroup g.tenant g.id fun g => { g with colls := g.colls ++ [c] }
        let s := if g.colls.length < aheadLimit then s.sendReady g c else s
        let rows := g.rows.filter fun x => x.1 == seq.toNat % 8192
        let s := s.modGroup g.tenant g.id fun g => { g with rows := g.rows.filter fun x => x.1 ≠ seq.toNat % 8192 }
        match rows.find? fun x => x.2.2.hash % 2 ^ 32 ≠ c.hash with
        | some x => s.failColl g c .mismatch (x.2.1 / 8)
        | none =>
          match s.group g.tenant g.id with
          | some g => s.takeHeld g seq
          | none => s

/-- Opcode of a collective instruction (12, Table 12-8). -/
def collCode : Instr → Nat
  | .allReduce _ _ => 1 | .reduceScatter _ _ => 2 | .allGather _ _ => 3 | .broadcast _ _ => 4 | .reduce _ _ => 5
  | .allToAll _ _ => 6 | .barrier _ _ => 7 | .digest _ _ => 8 | _ => 0

/-- Issue of a collective instruction: it enters the engine's queue and starts. -/
def State.collIssue (s : State) (i : Issue) (ins : Instr) (desc : Nat) : State :=
  let c := i.cd.val
  s.issueOp i 8 [] [] .coll ins (fun s => s.collCheck c desc true) (fun _ => false)
    (fun s => match s.opById (s.nextOp - 1) with | some o => (s.startColl o (collCode ins)).pumpColls | none => s)
    (fun s => plain (s.slabBytes c desc 64))

def execAllReduce (i : Issue) (desc : Nat) (s : State) : Res := .next (s.collIssue i (.allReduce i desc) desc)
def execReduceScatter (i : Issue) (desc : Nat) (s : State) : Res := .next (s.collIssue i (.reduceScatter i desc) desc)
def execAllGather (i : Issue) (desc : Nat) (s : State) : Res := .next (s.collIssue i (.allGather i desc) desc)
def execBroadcast (i : Issue) (desc : Nat) (s : State) : Res := .next (s.collIssue i (.broadcast i desc) desc)
def execReduce (i : Issue) (desc : Nat) (s : State) : Res := .next (s.collIssue i (.reduce i desc) desc)
def execAllToAll (i : Issue) (desc : Nat) (s : State) : Res := .next (s.collIssue i (.allToAll i desc) desc)
def execBarrier (i : Issue) (desc : Nat) (s : State) : Res := .next (s.collIssue i (.barrier i desc) desc)
def execDigest (i : Issue) (desc : Nat) (s : State) : Res := .next (s.collIssue i (.digest i desc) desc)

/-! ## CREATE and DESTROY (12, R361 to R366) -/

/-- Collectives that were issued while their group was being created start, in order, once it is decided. -/
def State.wakeColls (s : State) (seat : Nat) (id : Half) : State :=
  (s.ops.filter fun o => o.unit == .coll && o.seat == seat && !o.fin && collCode o.instr ≠ 0 && (collDesc o.data).group == id
    && !s.groups.any fun g => g.colls.any (·.op == o.id)).foldl (fun s o => s.startColl o (collCode o.instr)) s

/-- CREATE ends with a status, and the collectives behind it go on. -/
def State.finishCreate (s : State) (g : Group) (st : Status) : State := ((s.endCreate g st).wakeColls g.seat g.id).pumpColls

/-- Wire revision of a member: this package's, a position's, or a connection's (12, R366). -/
def State.memberRevision (s : State) (m : Member) : Nat :=
  if m.table = s.table.id then
    match s.slotHolder m.slot with
    | some p => if p = s.table.position then s.fw.wire else (s.table.roster.entry p).revision
    | none => s.fw.wire
  else match (s.connTo m.table m.slot).bind s.conn with
    | some c => c.revision
    | none => s.fw.wire

/-- The clock domains DEAL_n and COLL_n (14, Table 14-4). -/
def groupDomains : BitVec 44 := 0xFFFF000000

/-- CREATE is decided once those domains are ungated (14, section 14.3): a differing hash, or every record in (12, R363). -/
def State.settleCreate (s : State) (g : Group) : State :=
  let recs := ((List.range g.members.length).filter (· ≠ g.rank)).map fun r => Tbl.get none g.recs r
  if g.creating.isNone then s
  else if recs.any fun r => r.any fun x => x.hash ≠ g.hash then s.finishCreate g .mismatch
  else if recs.any Option.isNone || s.clk.gated &&& groupDomains ≠ 0 then s
  else
    let inc := fun (r : Nat) => if r = g.rank then some (s.seat g.seat).inc else (Tbl.get none g.recs r).map (·.incarnation)
    let s := s.modGroup g.tenant g.id fun g => { g with
      members := g.members.zipIdx.map fun ((m : Member), r) => { m with inc := inc r, seat := ((Tbl.get none g.recs r).map (·.seat)).getD m.seat }
      revision := g.members.foldl (fun v m => min v (s.memberRevision m)) s.fw.wire }
    match s.group g.tenant g.id with
    | some g => s.finishCreate g .ok
    | none => s

/-- Group and members that a group descriptor gives (12, Tables 12-4 and 12-5). -/
def groupOf (b : List Byte) (tenant : Half) (seat cd : Nat) : Group :=
  let n := field b 4 4
  { tenant := tenant, id := BitVec.ofNat 16 (field b 0 2), seat := seat, cd := cd, cls := field b 2 1, telemetry := bit (field b 3 1) 0
    flat := bit (field b 3 1) 1, rank := field b 8 4, landingPer := field b 0xC 4, landing := field b 0x10 8
    members := (List.range n).map fun r =>
      let o := 0x40 + 8 * r
      { table := BitVec.ofNat 16 (field b o 2), slot := field b (o + 2) 1, seat := field b (o + 4) 2 }
    hash := sha384 (b.take 8 ++ zeros 4 ++ b.drop 0xC) % 2 ^ 32 }

/-- Bytes of the landing area (12, R364). -/
def Group.landingBytes (g : Group) : Nat :=
  let n := g.members.length
  g.landingPer * (match g.slots with | some k => (k - 1) + (n / k - 1) | none => n - 1)

/-- Fields in their ranges (12, R362, Tables 12-4 to 12-6). -/
def Group.fieldsOk (g : Group) : Bool :=
  let kib := g.landingPer / 1024
  g.id ≠ 0xFFFF && g.members ≠ [] && decide (g.members.length ≤ 16384) && decide (g.rank < g.members.length) && g.landingPer % 4096 == 0
    && g.members.all (fun m => decide (m.slot < 16) && m.table ≠ 0xFFFF)
    && (match g.cls with
        | 0 => g.landingPer == 0
        | 1 => decide (64 ≤ kib) && decide (kib ≤ 1024)
        | 2 => decide (1024 ≤ kib) && decide (kib ≤ 65536)
        | _ => false)

/-- The checks of R362, in order: a status. -/
def State.judgeCreate (s : State) (g : Group) : Status :=
  let e := (s.seat g.seat).entry
  let names := g.members.map fun m => (m.table, m.slot)
  let own := g.members[g.rank]?
  let land (k : Acc) := (translate e g.landing g.landingBytes k).any fun t => inOneMem t.1 g.landingBytes
  let away := ((g.spinePeers s.table.id).filter fun x => (s.connTo x.1 x.2).isNone).length
  if !g.fieldsOk then .badArg
  else if names.eraseDups.length ≠ names.length then .badArg
  else if !own.any (fun m => m.table == s.table.id && m.slot == s.ownSlot && m.seat == g.seat) then .badArg
  else if g.landingBytes ≠ 0 && !(land .c && land .w) then .badArg
  else if e.groupQuota ≤ (s.groups.filter (·.seat == g.seat)).length then .overflow
  else if (s.group g.tenant g.id).isSome then .conflict
  else if 256 ≤ s.groups.length || 2048 < away + (s.fab.conns.filter fun x => x.2.isSome).length then .overflow
  else .ok

/-- The connections that the group needs open (12, R359, R364), or none does, with the first status that keeps one from opening (R362). -/
def State.openMembers (s : State) (g : Group) : State × Status :=
  let l := g.spinePeers s.table.id
  match (l.map fun x => s.openStatus x.1 x.2).find? (· ≠ .ok) with
  | some st => (s, st)
  | none => (l.foldl (fun s x => (s.openConn x.1 x.2).1) s, .ok)

/-- CREATE starts: the checks, the ante, the CREATE records (12, R362 to R364). Records that came before are taken. -/
def State.startCreate (s : State) (o : Op) : State :=
  let n := o.seat
  let e := (s.seat n).entry
  let g := groupOf o.data e.tenant n o.cd
  let no := fun (s : State) (st : Status) => (s.finOp o.id).emit (.created g.tenant g.id n st)
  match s.judgeCreate g with
  | .ok =>
    let (dev, w) := (translate e g.landing g.landingBytes .w).getD (0, false)
    let g := { g with landing := dev, landSlot := slotOf e w, creating := some o.id }
    let (s, st) := s.openMembers g
    if st ≠ .ok then no s st
    else
      let held := s.table.creates.filter fun r => r.group == g.id
      let mine := held.filter fun r => r.tenant == g.tenant
      let s := { s with table := { s.table with creates := s.table.creates.filter fun r => !(r.group == g.id && r.tenant == g.tenant) } }
      let g := { g with recs := mine.foldl (fun t r => if r.rank < g.members.length then Tbl.set none t r.rank (some r) else t) g.recs }
      let s := { s with
        groups := s.groups ++ [g]
        clk := { s.clk with ungating := s.clk.ungating ||| (s.clk.gated &&& groupDomains) } }
      let s := s.sendAll g recCreate { s.ownRec g 0 with hash := g.hash }
      if held.any fun r => r.tenant ≠ g.tenant && r.hash == g.hash then s.finishCreate g .tenantBlocked
      else s.settleCreate g
  | st => no s st

/-- Checks of CREATE at issue: the descriptor with its member entries lies in the slab and carries no poison (12, R361; 08, Table 8-7). -/
def State.createCheck (s : State) (c off : Nat) : Option State :=
  if slabSize < off + 64 then some (s.windowFault c off 64 0x105)
  else
    let n := min 16384 (s.slabField c (off + 4) 4)
    if slabSize < off + 64 + 8 * n then some (s.windowFault c off (64 + 8 * n) 0x105)
    else if anyPoison (s.slabBytes c off (64 + 8 * n)) then some (s.poisonHalt c (slabAddr c off) 0xB)
    else none

/-- CREATE (12, R361). -/
def execCreate (i : Issue) (desc : Nat) (s : State) : Res :=
  .next (
    let c := i.cd.val
    s.issueOp i 8 [] [] .coll (.create i desc) (fun s => s.createCheck c desc) (fun _ => false)
      (fun s => match s.opById (s.nextOp - 1) with | some o => s.startCreate o | none => s)
      (fun s => plain (s.slabBytes c desc (64 + 8 * min 16384 (s.slabField c (desc + 4) 4)))))

/-- DESTROY takes the group's next sequence (12, R367). It is refused with a collective in flight; else the group goes, its ante is released, and a
peer that still waits on it completes with ST_PEER_RESET (R365, section 12.8). -/
def State.startDestroy (s : State) (o : Op) : State :=
  let d := collDesc o.data
  match s.seatGroup o.seat d.group with
  | none => s.refuseColl o d 0x11 0 .notFound
  | some g =>
    let q := if g.creating.isSome then 0 else g.seq + 1
    let s := if g.creating.isSome then s else s.modGroup g.tenant g.id fun g => { g with seq := q }
    if !g.colls.isEmpty || g.creating.isSome || s.ops.any fun p => p.unit == .deal && !p.fin && p.seat == g.seat && field p.data 0 2 == g.id.toNat then
      s.refuseColl o d 0x11 q.toNat .conflict
    else
      let named := (g.members[g.rank]?.bind (·.inc)).map fun k => (g.tenant, g.id, g.seat, k)
      let s := { s with
        groups := s.groups.filter fun h => !(h.tenant == g.tenant && h.id == g.id)
        sync := { s.sync with gone := s.sync.gone.filter (fun (x : Half × Half × Nat × Quad) => !(x.1 == g.tenant && x.2.1 == g.id)) ++ named.toList } }
      ((s.sendAbort g q.toNat .peerReset).releaseAnte g).refuseColl o d 0x11 q.toNat .ok

/-- DESTROY (12, R365). -/
def execDestroy (i : Issue) (desc : Nat) (s : State) : Res :=
  .next (
    let c := i.cd.val
    s.issueOp i 8 [] [] .coll (.destroy i desc) (fun s => s.collCheck c desc false) (fun _ => false)
      (fun s => match s.opById (s.nextOp - 1) with | some o => s.startDestroy o | none => s)
      (fun s => plain (s.slabBytes c desc 64)))

/-! ## Packets and records (12, R374) -/

/-- The position of the member that a record names: of this table by its slot; a member of another table comes over the spine. -/
def State.rankPosition (s : State) (r : CollRec) : Nat :=
  ((s.group r.tenant r.group).bind fun g => g.members[r.rank]?.bind fun m => if m.table = s.table.id then s.slotHolder m.slot else none).getD
    s.table.position

/-- A record that the link layer has delivered leaves the waiting packets, and is answered with its origin and packet; none where the domains of the
collective engines refuse it (11, R329; 14, R414). A CREATE is kept by OHM-FAB and reaches no engine (log 176). -/
def State.takeRec (s : State) (kind : Nat) (r : CollRec) : State × Option (Nat × Packet) :=
  let data := collBytes kind r
  s.takeOpen (fun x => x.2.op == 8 && x.2.group == r.group && x.2.tenant == r.tenant && x.2.data == data)
    { op := 8, srcPos := s.rankPosition r, tenant := r.tenant, group := r.group, data := data } (if kind = recCreate then {} else collReach)

/-- A record's meaning at its group, after the check of the sender's incarnation (12, R365); a record for no group is answered
ST_NOT_FOUND when its packet is known (11, R329). -/
def State.onRec (s : State) (kind : Nat) (r : CollRec) (f : State → Group → State) : State :=
  if !s.takesPackets then s
  else
    match s.takeRec kind r with
    | (s, none) => s
    | (s, some (o, p)) =>
      match s.group r.tenant r.group with
      | none => s.answerVia o p .notFound
      | some g =>
        if g.members.length ≤ r.rank || r.rank = g.rank then s
        else match s.sameMember g r.rank r.incarnation with
          | some s => s
          | none => (f s g).pumpColls

/-- A CREATE record joins the CREATE in progress, fails it on another tenant, or waits for this package's own CREATE (12, R363). -/
def State.createRecord (s : State) (r : CollRec) : State :=
  match s.group r.tenant r.group with
  | some g =>
    if g.members.length ≤ r.rank || r.rank = g.rank then s
    else if g.creating.isSome then
      let s := s.modGroup g.tenant g.id fun g => { g with recs := Tbl.set none g.recs r.rank (some r) }
      match s.group g.tenant g.id with
      | some g => s.settleCreate g
      | none => s
    else (s.sameMember g r.rank r.incarnation).getD s
  | none =>
    match s.groups.find? fun g => g.id == r.group && g.creating.isSome && g.hash == r.hash with
    | some g => s.finishCreate g .tenantBlocked
    | none =>
      let keep := s.table.creates.filter fun x => !(x.tenant == r.tenant && x.group == r.group && x.rank == r.rank)
      { s with table := { s.table with creates := keep ++ [r] } }

/-- CREATE_RECORD (12, R363). -/
def execCreateRecord (r : CollRec) (s : State) : Res :=
  .next (
    if !s.takesPackets then s
    else match s.takeRec recCreate r with
      | (s, none) => s
      | (s, some _) => s.createRecord r)

/-- The hash of a deal in progress, as READYs compare it (12, R368). -/
def State.dealHashOf (_ : State) (d : Deal) : Nat :=
  match d.cds.find? fun e => !e.2.desc.isEmpty with
  | some e => dealHash e.2.desc % 2 ^ 32
  | none => 0

/-- READY (12, R370, R371): taken by its collective, or held for a later sequence; one of another hash for the sequence of a deal is a
mismatch. -/
def execReady (r : CollRec) (s : State) : Res :=
  .next (s.onRec recReady r fun s g =>
    match g.colls.find? fun c => c.seq.toNat == r.sequence with
    | some c => s.takeReady g c r
    | none =>
      match g.dealAt r.sequence with
      | some d => if r.hash = s.dealHashOf d then s else s.mismatchDeal g d r.rank
      | none =>
      if 0 < (BitVec.ofNat 32 r.sequence - g.seq).toNat && (BitVec.ofNat 32 r.sequence - g.seq).toNat < 2 ^ 31 then
        s.modGroup g.tenant g.id fun g => { g with early := g.early.filter (fun x => !(x.rank == r.rank && x.sequence == r.sequence)) ++ [r] }
      else s)

/-- CREDIT (12, R375). -/
def execCredit (r : CollRec) (s : State) : Res :=
  .next (s.onRec recCredit r fun s g =>
    match g.colls.find? fun c => c.seq.toNat == r.sequence with
    | none => s
    | some c => s.modColl g c.seq fun c =>
        let f := c.landFlow g r.rank
        { c with back := Tbl.set 0 c.back (flowKey f r.rank) (min (c.backFrom f r.rank + r.credits) (c.sentTo f r.rank)) })

/-- The bytes whose sectors a DONE record with ST_POISON marks, with their key slot and the chunk: the destination of the chunk that it names (12,
R374). -/
def Group.doneSpan (g : Group) (r : CollRec) : Option (Nat × Nat × Nat × Nat) :=
  match g.colls.find? (fun c => c.seq.toNat == r.sequence), r.chunk with
  | some c, some x =>
    let k := x % 2 ^ 32
    if r.status ≠ .poison then none
    else if x / 2 ^ 32 = 2 then
      let (_, b, n) := c.move g r.rank g.rank
      if n ≤ k * c.perChunk then none
      else
        let sp := codeSpan c.dst c.bits' (b + k * c.perChunk) (min c.perChunk (n - k * c.perChunk))
        some (c.dstSlot, sp.1, sp.2, k)
    else some (g.landSlot, g.landing + landingOff g (x / 2 ^ 32 == 1) r.rank g.rank k, 4096, k)
  | _, _ => none

/-- DONE_RECORD: one with ST_POISON names a chunk that was not sent; every sector of the chunk's destination is marked poison (12, R374). It waits where
the engine owns no slot for the write (R375). -/
def execDoneRecord (r : CollRec) (s : State) : Res :=
  .next (
    if (s.group r.tenant r.group).any fun g => (g.doneSpan r).any fun x => !s.collOpen g x.2.2.2 [] [(x.2.1, x.2.2.1)] then s
    else s.onRec recDone r fun s g =>
      match g.doneSpan r with
      | some (slot, a, n, _) => s.writeSlot slot a ((s.readSlot slot a n).map fun y => (y.1, true))
      | none => s)

/-- ABORT (12, R371, R372): it ends the named sequence with its status, or waits until that is issued; a member that was reset breaks a
deal in progress (06, R179). -/
def execAbort (r : CollRec) (s : State) : Res :=
  .next (s.onRec recAbort r fun s g =>
    match g.colls.find? fun c => c.seq.toNat == r.sequence with
    | some c => s.abortColl g c r.status r.rank
    | none =>
      match g.dealAt r.sequence with
      | some d => s.abortDeal g d r.status r.rank
      | none =>
      if r.status = .peerReset && s.ops.any fun o => o.unit == .deal && !o.fin && o.seat == g.seat && field o.data 0 2 == g.id.toNat then
        s.breakGroup g
      else if 0 < (BitVec.ofNat 32 r.sequence - g.seq).toNat && (BitVec.ofNat 32 r.sequence - g.seq).toNat < 2 ^ 31 then
        s.modGroup g.tenant g.id fun g => { g with aborts := g.aborts ++ [r] }
      else s)

/-- DIGEST_RECORD (12, R381, R382). -/
def execDigestRecord (r : CollRec) (s : State) : Res :=
  .next (s.onRec recDigest r fun s g =>
    match g.colls.find? fun c => c.seq.toNat == r.sequence && c.opcode == 8 with
    | none => s
    | some c => s.modColl g c.seq fun c =>
        { c with digests := Tbl.set none c.digests r.rank (some (if r.status = .poison then none else some r.digest)) })

/-- The chunk of a landing slot: the one of its residue among those that may be outstanding. -/
def Coll.chunkAt (c : Coll) (g : Group) (f p off : Nat) : Option Nat :=
  let w := (landingArea g (f == 1) p g.rank).2
  ((List.range w).map (· + c.usedOf f p)).find? fun k => landingOff g (f == 1) p g.rank k == off

/-- The chunk of rank `r` that lies at an offset of dst. -/
def Coll.dstChunk (c : Coll) (g : Group) (r off : Nat) : Option Nat :=
  let (_, b, n) := c.move g r g.rank
  (List.range (c.chunksOf n)).find? fun k => (b + k * c.perChunk) * c.bits' / 8 == off

/-- COLL_DATA of a collective: into the landing area or into dst (12, R374). -/
def State.landData (s : State) (g : Group) (c : Coll) (r : Nat) (p : Packet) : State :=
  let off := p.arg.toNat % 2 ^ 47
  if bit p.arg.toNat 47 then
    let (_, b, n) := c.move g r g.rank
    match c.dstChunk g r off with
    | none => s
    | some k =>
      let m := min c.perChunk (n - k * c.perChunk)
      (s.writeCodes c.dstSlot c.dst c.bits' (c.dstCount g) (b + k * c.perChunk) (unpackCodes c.bits' m p.data)).modColl g c.seq fun c =>
        { c with got := Tbl.set false c.got (flowKey 2 r * 2 ^ 32 + k) true }
  else
    let f := c.landFlow g r
    match c.chunkAt g f r off with
    | none => s
    | some k => (s.writeSlot g.landSlot (g.landing + off) (good p.data)).modColl g c.seq fun c =>
        { c with got := Tbl.set false c.got (flowKey f r * 2 ^ 32 + k) true }

/-- The collective whose sequence is the group's current one, the oldest in flight, when a COLL_DATA packet names it (12, R374; log 92). -/
def Group.currentColl (g : Group) (p : Packet) : Option Coll :=
  g.colls.head?.filter fun c => c.seq.toNat % 65536 == p.arg.toNat / 2 ^ 48

/-- The chunk that a COLL_DATA packet carries has no slot to land in yet: the packet waits (03, R79; 12, R375). -/
def State.chunkWaits (s : State) (p : Packet) : Bool :=
  match s.takePacket p, s.group p.tenant p.group with
  | some (o, _), some g =>
    (s.rankOf g o p).any fun r => (g.currentColl p).any fun c =>
      let dst := bit p.arg.toNat 47
      let off := p.arg.toNat % 2 ^ 47
      (if dst then c.dstChunk g r off else c.chunkAt g (c.landFlow g r) r off).any fun k =>
        !s.collOpen g k [] [((if dst then c.dst else g.landing) + off, p.data.length)]
          || (s.groupPlays g && !s.routeOpen .coll true (edgeOf (k % 8)) (k % 8))
  | _, _ => false

/-- COLL_DATA: of the group's current sequence it lands; any other is discarded and counted (12, R374). -/
def execCollData (p : Packet) (s : State) : Res :=
  .next (if s.chunkWaits p then s else s.onPacket p 7 fun s o =>
    match s.refused o p collReach with
    | some s => s
    | none =>
    match s.group p.tenant p.group with
    | none => s.answerVia o p .notFound
    | some g =>
      match s.rankOf g o p with
      | none => s.answerVia o p .notFound
      | some r =>
        match s.sameMember g r p.incarnation with
        | some s => s
        | none =>
          match g.currentColl p with
          | none => s.bump 0x440006 64
          | some c => (s.landData g c r p).pumpColls)

end Sys2Proof.Machine
end

