-- ==== Sys2Proof/Machine/Links.lean ====
section
/-! DEFINITION. The die-to-die links (10): frames, scrambler and CRC, lock, acknowledgement and replay, acceptance, the
control slice, spare wires and training. -/

namespace Sys2Proof.Machine

/-! ## Numbering (10, Table 10-1) -/

/-- Links 0 to 13 are WDL edges, 16 to 31 IPS links (18, Table 18-3). -/
def isWdl (link : Nat) : Bool := decide (link < 14)
/-- The slice exists: 129 per direction of a WDL edge, one of an IPS link. -/
def sliceOk (sl : SliceId) : Bool := isWdl sl.link.val || (decide (16 ≤ sl.link.val) && sl.slice.val == 0)
/-- Key of a slice of a direction. -/
def sliceKey (link : Nat) (dir : Bool) (slice : Nat) : Nat := (2 * link + b2n dir) * 129 + slice
def keyOfSlice (sl : SliceId) : Nat := sliceKey sl.link.val sl.dir sl.slice.val
/-- The same slice of the reverse direction. -/
def reverseKey (sl : SliceId) : Nat := sliceKey sl.link.val (!sl.dir) sl.slice.val
/-- The die that receives a direction. -/
def receiverDie (link : Nat) (dir : Bool) : Nat := if dir then (linkDies link).1 else (linkDies link).2

def State.lsend (s : State) (k : Nat) : LinkSend := Tbl.get {} s.links.send k
def State.lrecv (s : State) (k : Nat) : LinkRecv := Tbl.get {} s.links.recv k
def State.modSend (s : State) (k : Nat) (f : LinkSend → LinkSend) : State :=
  { s with links := { s.links with send := Tbl.modify {} s.links.send k f } }
def State.modRecv (s : State) (k : Nat) (f : LinkRecv → LinkRecv) : State :=
  { s with links := { s.links with recv := Tbl.modify {} s.links.recv k f } }
/-- The link frames: it has trained and has not failed (10, R297, R305). -/
def State.linkRuns (s : State) (sl : SliceId) : Bool := sliceOk sl && s.links.trained && !s.links.failed.contains sl.link.val
/-- rx_lock of a receiver (10, Table 10-4). -/
def State.rxLock (s : State) (k : Nat) : Bool := s.links.trained && !(s.lrecv k).lost
/-- Counter `n` of Table 10-6 for a link: WDL 1 to 4, IPS 5 to 8. -/
def linkObj (link n : Nat) : Nat := 0x620000 + n + (if isWdl link then 0 else 4)

/-! ## Scrambler and CRC (10, R288, R289, R300) -/

/-- `n` bits of the sequence b(t) = b(t − 39) ⊕ b(t − 58) from a 58-bit state whose bit i is b(−1 − i); and the next state. -/
def keyBits : Nat → Nat → Nat × Nat
  | 0, st => (0, st)
  | n + 1, st =>
    let b := b2n (bit st 38 != bit st 57)
    let r := keyBits n ((2 * st + b) % 2 ^ 58)
    (b + 2 * r.1, r.2)

/-- Scramble, or descramble, payload beats from a state. -/
def scrambleFrom : Nat → List (BitVec 128) → List (BitVec 128)
  | _, [] => []
  | st, x :: t => let k := keyBits 128 st; (x ^^^ BitVec.ofNat 128 k.1) :: scrambleFrom k.2 t

/-- The scrambler's state at beat 1 of frame `q` on slice `j` (10, R289). -/
def scrState (seed : BitVec 58) (j : Nat) (q : Half) : Nat :=
  let v := (seed ^^^ BitVec.ofNat 58 (j * 65536 + q.toNat)).toNat
  if v = 0 then 1 else v

/-- Seed of a direction (10, R290). -/
def State.seedOf (s : State) (link : Nat) (dir : Bool) : BitVec 58 :=
  (Config.freeValue (s.links.seeds + 2 * link + b2n dir)).setWidth 58

/-- Bits `lo` to `lo + n − 1` of a beat, lowest first. -/
def beatBits (x : BitVec 128) (lo n : Nat) : List Bool := (List.range n).map fun i => x.getLsbD (lo + i)

/-- CRC-32 of a frame as transmitted: beats 1 to 255, then bits [63:32] of beat 0 (10, R288). -/
def frameCrc (beat0 : BitVec 128) (payload : List (BitVec 128)) : Quad :=
  let c := payload.foldl (fun c x => crcBits 32 0x04C11DB7 c (beatBits x 0 128)) 0xFFFFFFFF
  BitVec.ofNat 32 (crcBits 32 0x04C11DB7 c (beatBits beat0 32 32)) ^^^ 0xFFFFFFFF

/-- CRC-16 of a control message (10, R300). -/
def messageCrc (m : BitVec 112) : Nat := crcBits 16 0x1021 0xFFFF ((List.range 112).map fun i => m.getLsbD i)

/-! ## Beat 0 (10, Tables 10-3 and 10-4) -/

def marker : Nat := 0x5A3C96E1

def beat0 (seq : Half) (lock nak replay : Bool) (seq5 : Nat) (crc : Quad) : BitVec 128 :=
  BitVec.ofNat 128 (marker + seq.toNat * 2 ^ 32 + (b2n lock + 2 * b2n nak + 4 * (seq5 % 32) + 128 * b2n replay) * 2 ^ 48
    + crc.toNat * 2 ^ 64)

def b0Seq (x : BitVec 128) : Half := BitVec.ofNat 16 (bits x.toNat 32 16)
def b0Lock (x : BitVec 128) : Bool := x.getLsbD 48
def b0Nak (x : BitVec 128) : Bool := x.getLsbD 49
def b0Seq5 (x : BitVec 128) : Nat := bits x.toNat 50 5
def b0Replay (x : BitVec 128) : Bool := x.getLsbD 55
def b0Crc (x : BitVec 128) : Quad := BitVec.ofNat 32 (bits x.toNat 64 32)

/-! ## Spare wires (10, R301) -/

/-- Wires of a slice, or lanes of an IPS link (10, R285). -/
def wireCount (link : Nat) : Nat := if isWdl link then 128 else 64
def spareCount (link : Nat) : Nat := if isWdl link then 4 else 2
def State.spareUse (s : State) (k sp : Nat) : SpareUse := Tbl.get .monitor s.links.spares (4 * k + sp)
/-- The wire that spare `sp` monitors in a frame of sequence `q`. -/
def monitored (sp : Nat) (q : Half) : Nat := 32 * sp + q.toNat / 256 % 32
/-- The bits of wire or lane `w` in a beat: one, or an IPS lane's two. -/
def wireBits (link : Nat) (x : BitVec 128) (w : Nat) : Nat :=
  if isWdl link then b2n (x.getLsbD w) else b2n (x.getLsbD w) + 2 * b2n (x.getLsbD (64 + w))
/-- The bits of spare `sp` in a beat: bit `sp` of four, or of an IPS spare bits `sp` and `sp` + 2. -/
def spareBits (link : Nat) (x : BitVec 4) (sp : Nat) : Nat :=
  if isWdl link then b2n (x.getLsbD sp) else b2n (x.getLsbD sp) + 2 * b2n (x.getLsbD (sp + 2))
/-- What a spare carries in a beat: the copy of the wire that it monitors, or its repaired wire. -/
def State.spareOut (s : State) (link k : Nat) (q : Half) (x : BitVec 128) : BitVec 4 :=
  (List.range (spareCount link)).foldl (fun v sp =>
    let b := match s.spareUse k sp with
      | .monitor => wireBits link x (monitored sp q)
      | .carries w => wireBits link x w
      | .bad => 0
    if isWdl link then v ||| BitVec.ofNat 4 (b <<< sp) else v ||| BitVec.ofNat 4 (b % 2 * 2 ^ sp + b / 2 * 2 ^ (sp + 2))) 0
/-- A received beat with the repaired wires taken from their spares. -/
def State.unrepair (s : State) (link k : Nat) (x : BitVec 128) (sp : BitVec 4) : BitVec 128 :=
  (List.range (spareCount link)).foldl (fun x n =>
    match s.spareUse k n with
    | .carries w =>
      let b := spareBits link sp n
      let put := fun (x : BitVec 128) (i v : Nat) => (x &&& ~~~(BitVec.ofNat 128 (2 ^ i))) ||| BitVec.ofNat 128 (v * 2 ^ i)
      if isWdl link then put x w b else put (put x w (b % 2)) (64 + w) (b / 2)
    | _ => x) x
/-- Mismatches of each monitoring spare over the beats of a frame (10, R301). -/
def State.mismatches (s : State) (link k : Nat) (q : Half) (l : List (BitVec 128 × BitVec 4)) : List (Nat × Nat × Nat) :=
  (List.range (spareCount link)).filterMap fun sp =>
    match s.spareUse k sp with
    | .monitor =>
      let w := monitored sp q
      some (sp, w, (l.filter fun e => wireBits link e.1 w ≠ spareBits link e.2 sp).length)
    | _ => none

/-! ## Sending (10, R293, R295) -/

/-- A payload beat of the control slice: its message, or the idle one, under its CRC-16 (10, R300). -/
def sealBeat (x : BitVec 128) : BitVec 128 :=
  let m := x.setWidth 112
  BitVec.ofNat 128 (m.toNat + messageCrc m * 2 ^ 112)
/-- The payload of a new frame: the control slice's beats carry their CRC-16. -/
def framePayload (sl : SliceId) (p : List (BitVec 128)) : List (BitVec 128) :=
  if isWdl sl.link.val && sl.slice.val == 128 then p.map sealBeat else p

/-- seq5 of a receiver's reverse frames: the frame that it asks for, as it does until it has accepted one, else the last accepted (10, R294, Table
10-4). -/
def LinkRecv.seq5 (r : LinkRecv) : Nat := if r.nak then r.expected.toNat else (r.expected - 1).toNat

/-- FRAME_SEND: the sender starts its next frame: the next of a resend, the oldest outstanding when 32 are, else a new one
with the head of the transmit queue, or zero bytes. Each time the last of 32 outstanding frames goes out, whatever began the pass, they have been
sent once more (R297). Offered payload enters the queue while it has room; with the queue full
the unit that offers it stalls and offers it again (R293; `State.linkRoom`). -/
def execFrameSend (sl : SliceId) (payload : List (BitVec 128)) (s : State) : Res :=
  .next (
    if !s.linkRuns sl then s
    else
      let k := keyOfSlice sl
      let x := s.lsend k
      let x := if !payload.isEmpty && x.queue.length < 32
        then { x with queue := x.queue ++ [(payload ++ List.replicate 255 0).take 255] } else x
      let x := if x.resend.isNone && 32 ≤ x.held.length then { x with resend := some 0 } else x
      let again := x.resend.bind fun i => x.held[i]?
      let fresh := (x.next, framePayload sl (x.queue.headD (List.replicate 255 0)))
      let f := again.getD fresh
      let x := match again, x.resend with
        | some _, some i => { x with resend := if i + 1 < x.held.length then some (i + 1) else none }
        | _, _ => { x with resend := none, next := x.next + 1, held := x.held ++ [fresh], queue := x.queue.tail }
      let x := if x.resend.isNone && 32 ≤ x.held.length then { x with rounds := x.rounds + 1 } else x
      let r := s.lrecv (reverseKey sl)
      let (crc, s) := match x.prevCrc with
        | some c => (c, s)
        | none => let (v, s) := s.free; (v.setWidth 32, s)
      let h := beat0 f.1 (s.rxLock (reverseKey sl)) r.nak again.isSome r.seq5 crc
      let body := scrambleFrom (scrState (s.seedOf sl.link.val sl.dir) sl.slice.val f.1) f.2
      let beats := h :: body
      let s := s.modSend k fun _ => { x with prevCrc := some (frameCrc h body) }
      s.emit (.frame sl beats (beats.map (s.spareOut sl.link.val k f.1))))

/-! ## Receiving (10, R291 to R296) -/

/-- The sender reads the flags of a reverse frame: an acknowledgement frees frames, a nak starts a resend (10, R293 to
R295). With rx_lock 0 it does neither. -/
def State.readFlags (s : State) (link k : Nat) (h : BitVec 128) : State :=
  if !b0Lock h then s
  else
    let x := s.lsend k
    let at' := x.held.findIdx? fun f => f.1.toNat % 32 == b0Seq5 h
    match at' with
    | none => s
    | some i =>
      if b0Nak h then (s.modSend k fun x => { x with resend := some i }).bump (linkObj link 2) 64
      else
        let held := x.held.drop (i + 1)
        s.modSend k fun x => { x with
          held := held, rounds := 0
          resend := if held.isEmpty then none else x.resend.map (· - (i + 1)) }

/-- Sequence `q` is above `e`, modulo 2¹⁶. -/
def seqAbove (q e : Half) : Bool := q ≠ e && decide ((q - e).toNat < 32768)

/-- A frame's mismatches count against the spare when its CRC is good and against the wire when it fails (10, R301, R302);
a spare that reaches the threshold is marked bad. -/
def State.countMism (s : State) (k : Nat) (good : Bool) (h : LinkHeld) : State :=
  let th := s.obj 0x620080 16
  let step := h.seq.toNat / 256
  let s := s.modRecv k fun r => if r.mstep = step then r else { r with mstep := step, counts := [] }
  h.mism.foldl (fun s m =>
    let key := if good then 200 + m.1 else m.2.1
    let s := if m.2.2 = 0 then s else s.modRecv k fun r => { r with counts := Tbl.modify 0 r.counts key (· + m.2.2) }
    if good && th ≠ 0 && th ≤ Tbl.get 0 (s.lrecv k).counts key && s.spareUse k m.1 = .monitor then
      ({ s with links := { s.links with spares := Tbl.set .monitor s.links.spares (4 * k + m.1) .bad } }).bump 0x620103 32
    else s) s

/-- The next payload beat of the control slice's held frame: a resent beat that was released before is discarded; a beat whose
CRC-16 fails is withheld with every later one, and its frame asked for again; any other is released, final, but for the idle
message (10, R300). -/
def State.releaseBeat (s : State) (sl : SliceId) : State :=
  let k := keyOfSlice sl
  let r := s.lrecv k
  match r.held with
  | none => s
  | some h =>
    if r.lost || h.missed || h.seq ≠ r.expected || r.withheld || (r.skip = 0 && 255 ≤ r.released) then s
    else if 0 < r.skip then s.modRecv k fun r => { r with skip := r.skip - 1 }
    else
      let beat := h.payload.getD r.released 0
      let m := beat.setWidth 112
      if bits beat.toNat 112 16 ≠ messageCrc m then s.modRecv k fun r => { r with withheld := true, nak := true }
      else
        let s := s.modRecv k fun r => { r with released := r.released + 1 }
        if m = 0 then s else s.emit (.linkMessage sl m)

/-- `n` beats of the held frame, in order. -/
def State.releaseBeats (sl : SliceId) : Nat → State → State
  | 0, s => s
  | n + 1, s => releaseBeats sl n (s.releaseBeat sl)

/-- At the next beat 0 of a control slice the delivery count of every beat of the held frame has passed (10, R298, R300). -/
def State.releaseRest (s : State) (sl : SliceId) : State :=
  if isWdl sl.link.val && sl.slice.val == 128 then
    let r := s.lrecv (keyOfSlice sl)
    s.releaseBeats sl (255 + r.skip - r.released)
  else s

/-- The held frame is judged by the CRC of the next beat 0 (10, R294): accepted, discarded, or nak. A control frame with a
withheld beat is not accepted (10, R300). -/
def State.judgeFrame (s : State) (sl : SliceId) (miss : Bool) (crc : Quad) : State :=
  let k := keyOfSlice sl
  match (s.lrecv k).held with
  | none => if miss then s.bump (linkObj sl.link.val 1) 64 else s
  | some h =>
    let good := !miss && h.crc == crc
    let s := s.countMism k good h
    if good then
      s.modRecv k fun r =>
        let r := { r with fails := 0, held := none }
        if h.seq == r.expected && !h.missed && !r.withheld then
          { r with expected := r.expected + 1, nak := false, inbox := r.inbox ++ [h.payload], released := 0, skip := 0, withheld := false }
        else r
    else
      (s.bump (linkObj sl.link.val 1) 64).modRecv k fun r => { r with fails := r.fails + 1, held := none, nak := true }

/-- The receiver declares loss; its search begins with the beats after the last expected beat 0 (10, R292). -/
def State.loseLock (s : State) (k : Nat) (seen : List (BitVec 128)) : State :=
  s.modRecv k fun r => { r with lost := true, held := none, misses := 0, fails := 0, skip := 0, withheld := false, seen := seen }

/-- FRAME_RECEIVE: a locked receiver takes the 256 beats from its next expected beat 0 (10, R291, R292, R294, R301). -/
def execFrameReceive (sl : SliceId) (beats : List (BitVec 128)) (spares : List (BitVec 4)) (s : State) : Res :=
  .next (
    let k := keyOfSlice sl
    let link := sl.link.val
    if !s.linkRuns sl || (s.lrecv k).lost then s
    else
      let got := ((beats ++ List.replicate 256 0).take 256).zip (spares ++ List.replicate 256 0)
      let clean := got.map fun e => s.unrepair link k e.1 e.2
      let h := clean.headD 0
      let r := s.lrecv k
      let q := b0Seq h
      let miss := bits h.toNat 0 32 ≠ marker || !(q == r.last + 1 || (b0Replay h && q == r.expected))
      let s := (s.releaseRest sl).judgeFrame sl miss (b0Crc h)
      let prevMiss := r.misses
      let s := s.modRecv k fun r => { r with misses := if miss then r.misses + 1 else 0 }
      let r := s.lrecv k
      if 4 ≤ r.misses || (2 ≤ r.fails && (miss || 0 < prevMiss)) then (s.loseLock k clean.tail).bump (linkObj link 3) 32
      else
        let seq := if miss then r.last + 1 else q
        let body := clean.tail
        let held : LinkHeld :=
          { seq := seq, missed := miss, crc := frameCrc h body, raw := body
            payload := scrambleFrom (scrState (s.seedOf link sl.dir) sl.slice.val seq) body
            mism := s.mismatches link k seq got }
        let s := s.modRecv k fun r => { r with
          last := seq, held := some held, nak := r.nak || (!miss && seqAbove q r.expected)
          skip := if !miss && q == r.expected then r.released else r.skip
          withheld := if !miss && q == r.expected then false else r.withheld }
        if miss then s else s.readFlags link (reverseKey sl) h)

/-- A candidate of the search: beat `c` and the beats `n` frames after it, for `n` to 7, are markers with sequences rising by 1,
and the crc fields after the first are good (10, R291). -/
def candOk (st : List (BitVec 128)) (c : Nat) : Bool :=
  let x := st.getD c 0
  bits x.toNat 0 32 == marker && (List.range 7).all fun n =>
    let p := st.getD (c + 256 * n) 0
    match st[c + 256 * (n + 1)]? with
    | none => false
    | some y => bits y.toNat 0 32 == marker && b0Seq y == b0Seq x + BitVec.ofNat 16 (n + 1)
        && b0Crc y == frameCrc p ((st.drop (c + 256 * n + 1)).take 255)

/-- The search of R291 over a stream of beats: the first candidate whose 8 markers stand. -/
def lockAt (st : List (BitVec 128)) : Option Nat := (List.range st.length).find? (candOk st)

/-- LINK_LOCK: the beats that a receiver without lock takes next. The search runs on over them; at the first 8 consistent markers the
receiver locks, and the frame of the eighth is the next that FRAME_RECEIVE takes. Without them it keeps the last seven frame times of beats, in which
a candidate can still stand (10, R291). A pending nak stays until its frame is accepted (10, R294). -/
def execLinkLock (sl : SliceId) (beats : List (BitVec 128)) (spares : List (BitVec 4)) (s : State) : Res :=
  .next (
    let k := keyOfSlice sl
    let r := s.lrecv k
    if !s.linkRuns sl || !r.lost then s
    else
      let got := beats.zip (spares ++ List.replicate beats.length 0)
      let st := r.seen ++ got.map fun e => s.unrepair sl.link.val k e.1 e.2
      match lockAt st with
      | none => s.modRecv k fun r => { r with seen := st.drop (st.length - 1792) }
      | some c =>
        let q := b0Seq (st.getD (c + 1792) 0)
        s.modRecv k fun r => { r with
          lost := false, seen := [], last := q - 1, held := none, misses := 0, fails := 0
          nak := r.nak || seqAbove q r.expected })

/-! ## Acceptance (10, R298, R299; 05, R143) -/

/-- The retry of R143 after the failure of a frame whose A rows were consumed: every slice restarts its pass or tile; it never
counts toward a halt (05, R143). The retries counter of the slice on the receiving die rises (DESIGN CHOICE, log 168). -/
def State.linkRetry (s : State) (die : Nat) : State :=
  match s.arrOp with
  | none => s
  | some o =>
    if !o.started then s
    else
      let s := s.modArr fun a => { a with retries := Tbl.modify 0 a.retries die fun n => min (n + 1) (maxOf 32) }
      cds.foldl (fun s k => s.modProg o.id k fun p => { p with row := 0 }) s

/-- Frames that a slice has accepted since training. -/
def LinkRecv.total (r : LinkRecv) : Nat := r.taken + r.inbox.length

/-- ACCEPTANCE_COUNT: the oldest frame of a slice becomes accepted, in link order: a data slice of an edge only when all 128
have accepted theirs; or the data of a bad frame is discarded, and consumed A rows start a retry (10, R299). -/
def execAcceptanceCount (sl : SliceId) (accepted ringRows : Bool) (s : State) : Res :=
  .next (
    let k := keyOfSlice sl
    let r := s.lrecv k
    if !s.linkRuns sl then s
    else if accepted then
      let all := !isWdl sl.link.val || sl.slice.val == 128 ||
        (List.range 128).all fun j => decide (r.taken < (s.lrecv (sliceKey sl.link.val sl.dir j)).total)
      match r.inbox with
      | p :: t => if all then (s.modRecv k fun r => { r with inbox := t, taken := r.taken + 1 }).emit (.linkData sl p) else s
      | [] => s
    else if !r.nak && !r.lost then s
    else
      let s := s.modRecv k fun r => { r with held := r.held.filter fun h => h.seq ≠ r.expected }
      if ringRows && decide (sl.link.val < 10) && sl.slice.val < 128 then s.linkRetry (receiverDie sl.link.val sl.dir) else s)

/-- CONTROL_MESSAGE_RELEASE: the delivery count of payload beat `beat` of the frame that the control slice holds. The beats up to it that have not
been released, or on a resend discarded, go in order (10, R298, R300). -/
def execControlMessageRelease (sl : SliceId) (beat : Fin 255) (s : State) : Res :=
  .next (
    let r := s.lrecv (keyOfSlice sl)
    if !s.linkRuns sl || !isWdl sl.link.val || sl.slice.val ≠ 128 then s else s.releaseBeats sl (beat.val + 1 + r.skip - r.released))

/-! ## Failure and repair (10, R297, R302 to R304) -/

/-- The link stops, OHM-FAB reports it and a device recovery falls due (10, R297; 18, Table 18-6). -/
def State.failLink (s : State) (link slice : Nat) (dir : Bool) : State :=
  let s := { s with links := { s.links with failed := s.links.failed ++ [link] } }
  (s.report 2 0x0301 8 none [link, slice, b2n dir]).recoveryDue 1

/-- LINK_FAIL: a slice has been without lock for 8,192 frame times, or has sent its 32 frames 16 times unacknowledged. -/
def execLinkFail (link : Fin 32) (slice : Nat) (dir : Bool) (s : State) : Res :=
  .next (
    let k := sliceKey link.val dir slice
    let exist := if isWdl link.val then decide (slice ≤ 128) else decide (16 ≤ link.val) && slice == 0
    if !exist || !s.links.trained || s.links.failed.contains link.val then s
    else if (s.lrecv k).lost || 16 ≤ (s.lsend k).rounds then s.failLink link.val slice dir
    else s)

/-- The spare that a failing wire gets: its own group's when free and good, else the lowest free good one (10, R302). -/
def State.pickSpare (s : State) (link k wire : Nat) : Option Nat :=
  if s.spareUse k (wire / 32) = .monitor && decide (wire / 32 < spareCount link) then some (wire / 32)
  else (List.range (spareCount link)).find? fun sp => s.spareUse k sp = .monitor

/-- The messages between the stewards of two dies that a link joins get through, and back: over the IPS link of a CD and an edge die, or from one CD
over ED_W to the other (10, R299, R303). -/
def State.stewardsClear (s : State) (a b : Nat) : Bool :=
  let both := fun (x y : Nat) => s.messageClear x y && s.messageClear y x
  if 8 ≤ a || 8 ≤ b then both a b else both a 8 && both 8 b

/-- WIRE_REPAIR: a wire that has gathered repair_threshold mismatches in the monitoring step moves to a spare, once the stewards' messages have been
accepted, and the receiver searches anew; with no good spare left the link fails (10, R299, R302 to R304). -/
def execWireRepair (sl : SliceId) (wire : Nat) (s : State) : Res :=
  .next (
    let k := keyOfSlice sl
    let link := sl.link.val
    let th := s.obj 0x620080 16
    if !s.linkRuns sl || wireCount link ≤ wire || th = 0 || Tbl.get 0 (s.lrecv k).counts wire < th then s
    else match s.pickSpare link k wire with
      | none => s.failLink link sl.slice.val sl.dir
      | some sp =>
        if !s.stewardsClear (linkDies link).1 (linkDies link).2 then s else
        let s := { s with links := { s.links with spares := Tbl.set .monitor s.links.spares (4 * k + sp) (.carries wire) } }
        let seen := ((s.lrecv k).held.map (·.raw)).getD []
        let s := (s.modRecv k fun r => { r with counts := Tbl.set 0 r.counts wire 0 }).loseLock k seen
        (s.bump (linkObj link 4) 32).report 0 0x0302 1 none [link, sl.slice.val, wire, sp] (some .ok))

/-! ## Training (10, R305, R306) -/

/-- Spares that training finds bad are marked so: `faulty` numbers spare s as the wire after the last, plus s. -/
def State.markSpares (s : State) : State :=
  s.links.faulty.foldl (fun s f =>
    let n := wireCount (f.1 / 258)
    if n ≤ f.2 then
      ({ s with links := { s.links with spares := Tbl.set .monitor s.links.spares (4 * f.1 + (f.2 - n)) .bad } }).bump 0x620103 32
    else s) s
/-- Step 7 of Table 10-5: a link that failed step 4 does not run, and is reported once (10, R305, R306; 18, Table 18-3). -/
def State.reportUnbuilt (s : State) (k : Nat) : State :=
  if s.links.failed.contains (k / 258) then s
  else ({ s with links := { s.links with failed := s.links.failed ++ [k / 258] } } : State).report 2 0x0301 8 none
    [k / 258, k % 129, k / 129 % 2]

/-- Step 4 of Table 10-5: spares go to the wires found bad, in ascending wire order. False when a wire gets none. -/
def State.assignSpares (s : State) : State × Bool :=
  (List.range 128).foldl (fun a w =>
    (s.links.faulty.filter fun f => f.2 == w && decide (w < wireCount (f.1 / 258))).foldl (fun (a : State × Bool) f =>
      match a.1.pickSpare (f.1 / 258) f.1 f.2 with
      | some sp => ({ a.1 with links := { a.1.links with spares := Tbl.set .monitor a.1.links.spares (4 * f.1 + sp) (.carries f.2) } }, a.2)
      | none => (a.1.reportUnbuilt f.1, false)) a) (s, true)

/-- LINK_TRAINING: every link trains, with new seeds, and step 6 of Table 10-5 ends with every receiver locked; false when one cannot be
built (10, R305, R306). -/
def State.trainLinks (s : State) : State × Bool :=
  let s := { s with
    links := { faulty := s.links.faulty, trained := true, seeds := s.freeCtr }
    freeCtr := s.freeCtr + 64 }
  (s.setObj 0x620103 0).markSpares.assignSpares

end Sys2Proof.Machine
end

