-- ==== Sys2Proof/Machine/Power.lean ====
section
/-! DEFINITION. Clocks, power and temperature: the CCLK divider, the power ledger, rails, thermal limits, clock gating, power
domains and DOZE (14; 20, R580, R581). -/

namespace Sys2Proof.Machine

/-! ## The CCLK divider (14, R410, R411, R421) -/

/-- The largest divider request that is active (14, R411). -/
def Clk.largest (c : Clk) : Nat := if c.thermalJ || c.thermalM || c.brake || !c.fallback.isEmpty then 8 else c.ledger
/-- The dividers of CCLK, fastest first (14, Table 14-2). -/
def dividers : List Nat := [4, 5, 6, 8]

/-- The VDD_CD rails rise for the divider that the requests now name; none is lowered (14, R421). -/
def State.raiseRails (s : State) : State :=
  cds.foldl (fun s c => let mv := s.railTarget c s.clk.largest; if (s.power.rail c).target < mv then s.stepRail c mv else s) s

/-- Every VDD_CD rail has ended its step at the voltage of a divider or above (14, R421). -/
def State.railsReady (s : State) (d : Nat) : Bool :=
  cds.all fun c => let r := s.power.rail c; !r.step && decide (s.railTarget c d ≤ r.target)

/-- The requests change; a largest request that becomes faster raises the rails first (14, R421). -/
def State.setClk (s : State) (f : Clk → Clk) : State :=
  let t := { s with clk := f s.clk }
  if t.clk.largest < s.clk.largest then t.raiseRails else t

/-- CLK_CCLK_DIV_WRITE: values other than 4, 5, 6 and 8 are ignored (14, R411, Table 14-3). -/
def execClkCclkDivWrite (v : Word) (s : State) : Res :=
  .next (let d := v.toNat % 16; if dividers.contains d then s.setClk fun c => { c with ledger := d } else s)

/-- DIVIDER_CHANGE: at a switch boundary the largest request takes effect; a faster one waits for its rails (14, R410, R421). -/
def execDividerChange (s : State) : Res :=
  .next (
    let d := s.clk.largest
    if d = s.clk.div || s.clk.source ≠ 2 || (d < s.clk.div && !s.railsReady d) then s
    else { s with clk := { s.clk with div := d, changes := s.clk.changes + 1 } })

/-! ## The brake and the thermal limits (14, sections 14.7 and 14.8) -/

/-- A rail step towards a faster divider is abandoned (14, section 14.7). -/
def State.dropFaster (s : State) : State :=
  { s with power := { s.power with
      wanted := none
      rails := cds.foldl (fun t c => Tbl.modify ({} : Rail) t c fun r =>
        if r.step && decide (r.prev < r.target) then { r with target := r.prev, step := false } else r) s.power.rails } }

/-- The sideband inputs of the running package: ignored in DOZE, COLD, OPTIONS and ROM (20, Table 20-7). -/
def State.brakeSeen (s : State) : Bool := !(s.dev == .doze || s.dev == .cold || s.dev == .options || s.dev == .rom)

/-- POWER_BRAKE_ASSERT (14, R426). -/
def execPowerBrakeAssert (s : State) : Res :=
  .next (if s.clk.brake || !s.brakeSeen then s
    else ((s.setClk fun c => { c with brake := true }).dropFaster).bump 0x200201 32)

/-- POWER_BRAKE_RELEASE: the divider returns under R421, voltage first (14, R426). -/
def execPowerBrakeRelease (s : State) : Res := .next (if s.clk.brake then s.setClk fun c => { c with brake := false } else s)

/-- Rising and falling limits of Table 14-9, °C. -/
def hardLimit (memory : Bool) : Int × Int := if memory then (100, 95) else (103, 98)

/-- THERMAL_THROTTLE: a junction or a memory reaches its hard limit (14, R428). -/
def execThermalThrottle (memory : Bool) (temp : Int) (s : State) : Res :=
  .next (
    let on := if memory then s.clk.thermalM else s.clk.thermalJ
    if on || temp < (hardLimit memory).1 then s
    else ((s.setClk fun c => if memory then { c with thermalM := true } else { c with thermalJ := true }).dropFaster).bump 0x200202 32)

/-- THERMAL_THROTTLE_END: below the falling limit the request clears (14, R428). -/
def execThermalThrottleEnd (memory : Bool) (temp : Int) (s : State) : Res :=
  .next (if (hardLimit memory).2 ≤ temp then s
    else s.setClk fun c => if memory then { c with thermalM := false } else { c with thermalJ := false })

/-- ALERT_N is driven low (20, R580). -/
def State.alertLow (s : State) : Bool :=
  s.dev == .folded || s.dev == .optionConflict || s.clk.xtalFail || s.clk.thermalJ || s.clk.thermalM || !s.power.faulty.isEmpty
    || s.power.pmbAlert

/-! ## The ledger (14, section 14.6) -/

/-- A reading in its place in an ascending list. -/
def insertAsc (x : Int) : List Int → List Int
  | [] => [x]
  | y :: t => if x ≤ y then x :: y :: t else y :: insertAsc x t

/-- Twice the median of readings: the sum of the two middle ones, which are one for an odd number (14, R427; log 178). -/
def median2 (l : List Int) : Int := let a := l.foldr insertAsc []; a.getD ((a.length - 1) / 2) 0 + a.getD (a.length / 2) 0

/-- The junction sensors that R427 excludes, by number: outside −40 to 150 °C, or more than 15 °C from the median of the die's sensors; in
1/16 °C. -/
def excludedOf (l : List Int) : List Nat :=
  (List.range l.length).filter fun i =>
    let x := l.getD i 0
    decide (x < -640) || decide (2400 < x) || decide (480 < 2 * x - median2 l) || decide (2 * x - median2 l < -480)

/-- tmax of a die: the hottest good sensor of the die and its memories; 104 °C with fewer than 4 good sensors (14, R427, Table 14-7). -/
def State.tmaxOf (s : State) (r : DieReading) : Int :=
  let bad := excludedOf r.sensors
  let good := ((List.range r.sensors.length).filter fun i => !bad.contains i).map fun i => r.sensors.getD i 0
  let mems := if r.die.val < 8 then [Tbl.get 0 s.power.memTmax r.die.val, Tbl.get 0 s.power.memTmax (8 + r.die.val)] else []
  if good.length < 4 then 104 * 16 else mems.foldl max (good.foldl max (good.getD 0 0))

/-- A die's report of the interval that ends (14, Table 14-7). -/
def State.budgetReport (s : State) (r : DieReading) : BudgetReportMsg :=
  { die := r.die, interval := s.power.interval, energyFixed := r.energyFixed, energyScaled := r.energyScaled, tmax := s.tmaxOf r
    goodSensors := r.sensors.length - (excludedOf r.sensors).length
    flags := b2n (s.clk.thermalJ || s.clk.thermalM) + 2 * b2n (s.clk.fallback.contains r.die.val), vddMv := r.vddMv }

/-- Sensors that a die newly excludes (14, R427). -/
def State.newlyExcluded (s : State) (r : DieReading) : Nat :=
  ((excludedOf r.sensors).filter fun i => !(Tbl.get [] s.power.excluded r.die.val).contains i).length

/-- LEDGER_INTERVAL_END: the interval's reports; the sensors newly excluded are counted (14, R422, R427). A report that still waits for its link
gives way to a newer one of its die. -/
def execLedgerIntervalEnd (rs : List DieReading) (s : State) : Res :=
  .next (if s.dev ≠ .live then s
    else
      let n := (rs.map s.newlyExcluded).sum
      let t := if n = 0 then s else s.bump 0x200103 32 n
      { t with power := { s.power with
        interval := s.power.interval + 1
        excluded := rs.foldl (fun t r => Tbl.set [] t r.die.val (excludedOf r.sensors)) s.power.excluded
        reports := (s.power.reports.filter fun o => !rs.any (·.die == o.die)) ++ rs.map s.budgetReport } })

/-- Numerator of k(d) over 640,000 × d (14, Table 14-6). -/
def kNum (d : Nat) : Nat := 4 * dividerMv d * dividerMv d
/-- Power of a scaled part S4 at divider `d`, mW (14, R423). -/
def scaledAt (s4 d : Nat) : Nat := s4 * kNum d / (640000 * d)
/-- The scaled part at divider 4 of a power measured at divider `d`, mW. -/
def scaledTo4 (p d : Nat) : Nat := p * (640000 * d) / kNum d

def Power.die (p : Power) (i : Nat) : DiePower := Tbl.get ({} : DiePower) p.dies i
/-- F and S4 of the package, mW (14, R423). -/
def Power.fixedAll (p : Power) : Nat := ((List.range 10).map fun i => (p.die i).fixed).sum
def Power.s4All (p : Power) : Nat := ((List.range 10).map fun i => (p.die i).s4).sum
/-- P(d), mW (14, R423). -/
def Power.predict (p : Power) (d : Nat) : Nat := p.fixedAll + scaledAt p.s4All d

/-- One interval's report of a die enters the ledger: energies in µJ over 100 µs are 10 mW each (14, R422, R423). A die without a
report keeps its figures; its misses are counted up to 10. -/
def takeReport (div : Nat) (r : Option BudgetReportMsg) (d : DiePower) : DiePower :=
  match r with
  | none => { d with missed := if d.missed < 10 then d.missed + 1 else d.missed }
  | some r =>
    { fixed := 10 * r.energyFixed.toNat, s4 := scaledTo4 (10 * r.energyScaled.toNat) div, energy := r.energyScaled.toNat
      tmax := r.tmax, power := 10 * (r.energyFixed.toNat + r.energyScaled.toNat), missed := 0 }

/-- The next slower and the next faster divider. -/
def slowerBy1 (d : Nat) : Nat := (dividers.find? (d < ·)).getD 8
def fasterBy1 (d : Nat) : Option Nat := (dividers.filter (· < d)).getLast?

/-- What the ledger's rule gives: the new ledger value, or a faster one to be reached through the rails (14, R423, Table 14-9). -/
structure LedgerMove where
  slower : Option Nat := none
  faster : Option Nat := none
deriving DecidableEq, Repr

/-- The rule of R423 over the interval that has just been counted; `cap` in mW. -/
def Power.rule (p : Power) (ledger cap : Nat) : LedgerMove :=
  let above := decide (cap < p.predict ledger)
  let hot := decide (2 ≤ p.hot)
  if above || hot then
    let fit := ((dividers.filter (ledger ≤ ·)).find? fun d => p.predict d ≤ cap).getD 8
    let d := if hot then max fit (slowerBy1 ledger) else fit
    { slower := if d = ledger then none else some d }
  else match fasterBy1 ledger with
    | none => {}
    | some d => if 10 ≤ p.faster && 100 ≤ p.cool && p.wanted.isNone then { faster := some d } else {}

/-- The sustained cap, mW (14, R424). -/
def State.capMw (s : State) : Nat := 1000 * s.obj 0x200002 3000

/-- One interval is counted: the dies' figures, and the runs of hot, cool and fitting intervals (14, R423, Table 14-9). A report takes
effect when its link has accepted it (10, R299). -/
def State.countInterval (s : State) : Power :=
  let p := s.power
  let dies := (List.range 10).foldl (fun t i =>
    Tbl.modify ({} : DiePower) t i (takeReport s.clk.div (p.reports.find? fun r => r.die.val == i && s.messageClear i 8))) p.dies
  let p := { p with dies := dies, reports := p.reports.filter fun r => !s.messageClear r.die.val 8 }
  let ctl : Int := s.obj 0x200180 95
  let temps := (List.range 10).map fun i => (p.die i).tmax
  let fits := match fasterBy1 s.clk.ledger with
    | none => false
    | some d => decide (100 * p.predict d ≤ 95 * s.capMw)
  { p with
    hot := if temps.any (ctl * 16 ≤ ·) then p.hot + 1 else 0
    cool := if temps.all (· < (ctl - 5) * 16) then p.cool + 1 else 0
    faster := if fits then p.faster + 1 else 0 }

/-- The grant of a die: the ledger divider, its F and its share of S4 × k(d) by reported scaled energy (14, R423, Table 14-8). Its voltage is the
one of the divider that the requests name, so that rails fall under a brake (section 14.7), or of the faster one to come (R421). -/
def State.grantOf (s : State) (i : Nat) : Grant :=
  let p := s.power
  let d := s.clk.ledger
  let total := ((List.range 10).map fun j => (p.die j).energy).sum
  let share := if total = 0 then 0 else scaledAt p.s4All d * (p.die i).energy / total
  { interval := p.interval - 1, budget := (p.die i).fixed + share, divider := d
    target := s.railTarget (if i < 8 then i else 9) (p.wanted.getD s.clk.largest) }

/-- BUDGET_REPORT: OHM-PWR counts the interval, moves the ledger divider and answers every die (14, R422, R423). -/
def execBudgetReport (s : State) : Res :=
  .next (
    if s.dev ≠ .live then s
    else
      let s := { s with power := s.countInterval }
      let v := s.power.rule s.clk.ledger s.capMw
      let s := match v.slower with
        | none => s
        | some d => { (s.setClk fun c => { c with ledger := d }) with power := { s.power with hot := 0, faster := 0, wanted := none } }
      let s := match v.faster with
        | none => s
        | some d => { s with power := { s.power with wanted := some d, faster := 0 } }
      let s := { s with power := { s.power with
        sent := (List.range 10).foldl (fun t i => Tbl.set none t i (some (s.grantOf i))) s.power.sent } }
      s.setObj 0x200001 (((List.range 10).map fun i => (s.power.die i).power).sum))

/-- The faster ledger value is written once every VDD_CD rail stands at its voltage; the count of fitting intervals starts again (14, R421,
R423). -/
def State.fasterLedger (s : State) : State :=
  match s.power.wanted with
  | some d =>
    if s.railsReady d then { s with clk := { s.clk with ledger := d }, power := { s.power with wanted := none, faster := 0 } } else s
  | none => s

/-- BUDGET_GRANT: a steward takes its grant; its fallback request ends, and its VDD_CD rail moves to the target (14, R421, R422,
R425). A rail is not lowered below what the divider in effect needs. The grant takes effect when its link has accepted it (10, R299). -/
def execBudgetGrant (die : Fin 10) (s : State) : Res :=
  .next (match (Tbl.get none s.power.sent die.val).filter fun _ => s.messageClear 8 die.val with
    | none => s
    | some g =>
      let i := die.val
      let s := { s with power := { s.power with
        sent := Tbl.set none s.power.sent i none, grants := Tbl.set {} s.power.grants i g } }
      let s := s.setClk fun c => { c with fallback := c.fallback.filter (· ≠ i) }
      let mv := max g.target (s.railTarget i s.clk.div)
      (if i < 8 && mv ≠ (s.power.rail i).target then s.stepRail i mv else s).fasterLedger)

/-- GRANT_MISS_FALLBACK: ten intervals without a grant at the steward, whatever was sent (14, R425). -/
def execGrantMissFallback (die : Fin 10) (s : State) : Res :=
  .next (if s.dev ≠ .live || s.clk.fallback.contains die.val then s
    else (s.setClk fun c => { c with fallback := c.fallback ++ [die.val] }).dropFaster)

/-- A die's line of Table 1-5, mW. -/
def dieLine (i : Nat) : Nat := if i < 8 then 260000 else 150000

/-- REPORT_MISS: ten intervals without a report double the die's last figures, up to its line (14, R425). -/
def execReportMiss (die : Fin 10) (s : State) : Res :=
  .next (
    let d := s.power.die die.val
    if d.missed ≠ 10 then s
    else
      let f := min (2 * d.fixed) (dieLine die.val)
      let d := { d with fixed := f, s4 := min (2 * d.s4) (dieLine die.val - f), missed := 11 }
      { s with power := { s.power with dies := Tbl.set ({} : DiePower) s.power.dies die.val d } }.bump 0x200403 32)

/-! ## Rails (14, section 14.5) -/

def Rail.near (r : Rail) (mv : Nat) : Bool := decide (r.target ≤ mv + 10) && decide (mv ≤ r.target + 10)

/-- AVS_STEP_DONE: the rail reads its target within 10 mV; when every VDD_CD rail is ready, the faster ledger value is written (14,
R420, R421). -/
def execAvsStepDone (rail : Fin 10) (readMv : Nat) (s : State) : Res :=
  .next (
    let r := s.power.rail rail.val
    if !r.step || !r.near readMv then s
    else
      let s := { s with power := { s.power with rails := Tbl.set ({} : Rail) s.power.rails rail.val { r with step := false, read := readMv } } }
      s.fasterLedger)

/-- AVS_STEP_TIMEOUT: the step is abandoned, counted and reported; the rail is set back to its previous target (14, R420). -/
def execAvsStepTimeout (rail : Fin 10) (s : State) : Res :=
  .next (
    let r := s.power.rail rail.val
    if !r.step then s
    else
      let s := { s with power := { s.power with
        wanted := none, rails := Tbl.set ({} : Rail) s.power.rails rail.val { r with target := r.prev, step := false } } }
      (s.bump 0x200402 32).report 0 0x0402 1 none [rail.val, r.target])

/-- PMBUS_POLL: READ_VOUT, READ_IOUT, READ_TEMPERATURE_1 and STATUS_WORD of a regulator (14, R419; 20, R580). Regulators 0 to 9 are the AVS rails;
one that does not answer changes nothing. -/
def execPmbusPoll (rail : Nat) (faultBit : Bool) (tel : Telemetry) (answered : Bool) (s : State) : Res :=
  .next (
    if !answered || 19 ≤ rail then s
    else { s with power := { s.power with
      faulty := if faultBit then (if s.power.faulty.contains rail then s.power.faulty else s.power.faulty ++ [rail])
        else s.power.faulty.filter (· ≠ rail)
      telemetry := Tbl.set {} s.power.telemetry rail tel
      rails := if rail < 10 then Tbl.modify ({} : Rail) s.power.rails rail fun r => { r with read := tel.vout } else s.power.rails } })

/-- PMB_ALERT_N_CHANGE (20, R580). -/
def execPmbAlertNChange (low : Bool) (s : State) : Res := .next { s with power := { s.power with pmbAlert := low } }

/-! ## Clock domains (14, section 14.3) -/

/-- Ports of a port group's domains: power domains 9 to 12, clock domains 40 to 43. -/
def groupPorts (d : Nat) : List Nat := (tablePorts ++ spinePorts).filter fun n => portDomain n == d
def State.portsOff (s : State) (d : Nat) : Bool := (groupPorts d).all fun n => (s.port n).state == .off

/-- The gating condition of Table 14-4; no domain that a PLAYING seat can use is gated (14, R413). -/
def State.gateable (s : State) (d : Nat) : Bool :=
  let idle := s.play.isNone && s.chosen.isNone
  if d < 8 then idle || s.sliceMode d == 3
  else if d < 24 then idle
  else if d < 32 then idle && s.groups.isEmpty
  else if d < 40 then idle && s.groups.isEmpty && !s.fab.out.any fun o => !isTrump o.pkt.op
  else s.portsOff (d - 31)

/-- CLOCK_GATE: a domain whose condition holds is gated (14, R412). -/
def execClockGate (dom : Fin 44) (s : State) : Res :=
  .next (if s.gateable dom.val && !s.clk.ungating.getLsbD dom.val then
      { s with clk := { s.clk with gated := s.clk.gated ||| (1 <<< dom.val) } }
    else s)

/-- CLOCK_UNGATE: ungating ends, and a CREATE that waited for it goes on (14, R413, R414). -/
def execClockUngate (dom : Fin 44) (s : State) : Res :=
  .next (
    if !s.clk.ungating.getLsbD dom.val then s
    else
      let keep : BitVec 44 := ~~~(1 <<< dom.val)
      let s := { s with clk := { s.clk with gated := s.clk.gated &&& keep, ungating := s.clk.ungating &&& keep } }
      (s.groups.filter (·.creating.isSome)).foldl (fun s g => s.settleCreate g) s)

/-! ## Power domains (14, section 14.4) -/

/-- The target of a delivered packet, or the port that it came by, lies in a power domain (14, R415). -/
def State.actsIn (s : State) (d : Nat) (x : Nat × Packet) : Bool :=
  portDomain (originPort x.1) == d || (s.reachOf x.2).power.contains d

/-- A domain enters CLOSING: the requests that have reached it stay accepted, and its ports close (14, R416; 11, R332). -/
def State.closeDomain (s : State) (d : Nat) : State :=
  (groupPorts d).foldl (fun s n => s.closePort n) ((s.admitRx (s.actsIn d)).setDomain d 1)

/-- A domain may be powered down: a port group once its ports are disabled, any domain on the way into DOZE (14, R415). -/
def State.mayClose (s : State) (d : Nat) : Bool :=
  s.power.dozing == 1 || (9 ≤ d && (groupPorts d).all fun n => !s.portEnabled n)

/-- A request waits for the end of the transition in progress (14, R418). -/
def State.domainLater (s : State) (d : Nat) (opens : Bool) : State :=
  { s with power := { s.power with later := s.power.later.filter (·.1 ≠ d) ++ [(d, opens)] } }

/-- DOMAIN_CLOSE (14, R415, R416, R418). -/
def execDomainClose (dom : Fin 13) (s : State) : Res :=
  .next (
    let d := dom.val
    if !s.mayClose d then s
    else if s.domain d = 0 then s.closeDomain d
    else if s.domain d = 3 then s.domainLater d false
    else s)

/-- A burst works in a CD's domain. -/
def Burst.inDomain (b : Burst) (mode : BitVec 48) (d : Nat) : Bool := domainOf mode b.src == some d || domainOf mode b.dst == some d

/-- The accepted requests of a domain that are not complete (14, R416, R417). -/
def State.accepted (s : State) (d : Nat) : List (Nat × Packet) := s.acceptedOf fun x => admitted x.1 && s.actsIn d x

/-- Every accepted request of a domain is complete, and its ports are OFF (14, R416). -/
def State.drained (s : State) (d : Nat) : Bool :=
  (s.accepted d).isEmpty && if d < 8 then s.ops.all (·.cd ≠ d) && s.memory.bursts.all fun b => !b.inDomain s.memory.bandMode d
  else if d = 8 then s.portsOff 10 && s.portsOff 12
  else s.portsOff d

/-- Entry into DOZE ends: tallies copied to retention, slabs, caches, link and connection state lost, the CDs' rails at 0 V (14,
Tables 14-10 and 14-11). A wake event that came meanwhile starts the exit. -/
def State.enterDoze (s : State) : State :=
  let s := { s with
    memory := { s.memory with mem := s.memory.mem.filter fun c => !(match target c.1 with | .slab _ => true | _ => false), written := [] }
    sync := { s.sync with cdTally := [] }
    links := { faulty := s.links.faulty, failed := s.links.failed, spares := s.links.spares }
    fab := { s.fab with conns := [] }
    power := { s.power with
      tallies := some s.sync.cdTally, dozing := 0, wanted := none, sent := []
      rails := cds.foldl (fun t c => Tbl.set ({} : Rail) t c {}) s.power.rails }
    clk := { s.clk with ledger := 8, div := 8, fallback := [], changes := if s.clk.div = 8 then s.clk.changes else s.clk.changes + 1 } }
  let s := s.setDev .doze
  if s.power.wakeDue then State.wake { s with power := { s.power with wakeDue := false } } 0 else s

/-- A domain is OFF, and a waiting open request takes effect; the domains of a DOZE entry that have all gone end it (14, R416, R418, Table
14-10). -/
def State.domainGone (s : State) (d : Nat) : State :=
  let s := s.setDomain d 2
  let s := if s.power.later.contains (d, true) then
      { s with power := { s.power with later := s.power.later.erase (d, true) } }.setDomain d 3
    else s
  if s.power.dozing = 1 && (List.range 13).all fun k => s.domain k = 2 || s.domain k = 3 then s.enterDoze else s

/-- DOMAIN_OFF (14, R416); a spine port whose connections have drained goes OFF with it (11, R332). -/
def execDomainOff (dom : Fin 13) (s : State) : Res :=
  .next (
    let s := s.finishSpine
    if s.domain dom.val = 1 && s.drained dom.val then s.domainGone dom.val else s)

/-- A burst ends as its requester's ST_TIMEOUT ends it (14, R417). -/
def State.timeoutBurst (s : State) (b : Burst) : State := (s.dropBurst b.id).settleDma b.op

/-- CLOSE_TIMEOUT: what is left is completed with ST_TIMEOUT to its requester and counted, and the domain goes OFF (14, R417): an accepted request is
answered and has no effect, a burst of a DMA is given up (log 179). -/
def execCloseTimeout (dom : Fin 13) (s : State) : Res :=
  .next (
    let d := dom.val
    if s.domain d ≠ 1 then s
    else
      let acc := s.accepted d
      let left := if d < 8 then s.memory.bursts.filter fun b => b.inDomain s.memory.bandMode d else []
      let mine := fun (x : Nat × Packet) => admitted x.1 && s.actsIn d x && !isResponse x.2.op
      let rx := s.fab.rx.filter fun x => !mine x
      let inbox := Tbl.mapAll [] (fun _ (q : List Add) => q.filter fun a => !a.reply.any fun x => x.1 ≠ selfPort && mine x) s.sync.inbox
      let s := acc.foldl (fun s x => s.answerVia x.1 x.2 .timeout) { s with fab := { s.fab with rx := rx }, sync := { s.sync with inbox := inbox } }
      let s := left.foldl State.timeoutBurst s
      let s := if d < 8 then { s with ops := s.ops.filter (·.cd ≠ d) } else s
      let s := (groupPorts d).foldl (fun s n => (s.handBack n).modPort n fun p => freshPort p .off) s
      (if acc.length + left.length = 0 then s else s.bump 0x200305 32 (acc.length + left.length)).domainGone d)

/-- Commands held in DOZE run in their order of arrival (14, R431; 02, R44). -/
def State.runHeld (s : State) : State :=
  let l := s.host.heldCmds
  l.foldl (fun s c => match c.port with
    | .seatCmd => s.runWrite c
    | .doorbell f => (s.modFn f.val fun q => { q with doorbells := q.doorbells.drop 1 }).runWrite c)
    { s with host := { s.host with heldCmds := [] } }

/-- Exit from DOZE ends: links trained, tallies restored, LIVE; a link that cannot be built folds the package (14, Table 14-12; 10,
R306). -/
def State.leaveDoze (s : State) : State :=
  let (s, ok) := s.trainLinks
  if !ok then State.foldPackage { s with power := { s.power with dozing := 0 } } 1
  else
    let s := { s with
      sync := { s.sync with cdTally := (s.power.tallies).getD s.sync.cdTally }
      power := { s.power with tallies := none, dozing := 0 } }
    (s.setDev .live).runHeld

/-- DOMAIN_OPEN: OFF to OPENING, OPENING to OPEN; during CLOSING the request waits (14, R416, R418). In DOZE a domain stays OPENING until the exit,
where a CD's opens once its rail is at its voltage (Table 14-12); the last of the exit ends it. -/
def execDomainOpen (dom : Fin 13) (s : State) : Res :=
  .next (
    let d := dom.val
    match s.domain d with
    | 1 => s.domainLater d true
    | 2 => s.setDomain d 3
    | 3 =>
      if (s.dozes && s.power.dozing ≠ 2) || (d < 8 && (s.power.rail d).step) then s
      else
        let s := s.setDomain d 0
        let s := if s.power.later.contains (d, false) then
            State.closeDomain { s with power := { s.power with later := s.power.later.erase (d, false) } } d
          else s
        if s.power.dozing = 2 && (List.range 13).all fun k => s.domain k ≠ 3 then s.leaveDoze else s
    | _ => s)

/-! ## DOZE (14, section 14.9) -/

/-- The conditions of a DOZE request (14, R429). -/
def State.mayDoze (s : State) : Bool :=
  s.dev == .live && s.power.dozing == 0 && s.play.isNone && s.groups.isEmpty && s.activities == 0
    && !(s.seats.any fun e => e.2.state = .playing || e.2.state = .resetting)

/-- A DOZE request (14, R429, Table 14-10): the cached seats are written back and parked; the port groups enter CLOSING. A choice in
progress is given up, and its seat stays ready; a load waits and ends after the return to LIVE (log 145). -/
def State.doze (s : State) : State × Status × Nat :=
  if !s.mayDoze then (s, .conflict, 0)
  else
    let s := { s with chosen := none }
    let s := (s.seats.map (·.1)).foldl (fun s n =>
      if (s.seat n).cached then s.unseat n else s) s
    let s := { s with power := { s.power with dozing := 1, wakeDue := false } }
    ([9, 10, 11, 12].foldl (fun s d => if s.domain d = 0 then s.closeDomain d else s) s, .ok, 0)

/-- DOZE_REQUEST over KDP or MCTP: doze_request, 0x2005.80 (14, R429). -/
def execDozeRequest (ch : Channel) (s : State) : Res := .next (s.objAct ch 0x2005 0x80 fun s => s.doze)

/-- WAKE_N_LOW: ignored outside DOZE (14, R431; 20, Table 20-7). -/
def execWakeNLow (s : State) : Res := .next (s.wake 3)

/-- A wake request: 0x1100.82 (14, R431). -/
def execWakeRequest (ch : Channel) (s : State) : Res := .next (s.objAct ch 0x1100 0x82 fun s => (s.wake 2, .ok, 0))

/-- DOZE_TIMER_EXPIRY: doze_timer, when it is not 0 (14, R431). -/
def execDozeTimerExpiry (s : State) : Res := .next (if s.obj 0x200581 0 = 0 then s else s.wake 4)

end Sys2Proof.Machine
end

