-- ==== Sys2Proof/Machine/Boot.lean ====
section
/-! DEFINITION. Reset, options and bring-up: reset scopes and sources, the fuse vote, the board record, cold, warm, host-port reset
and device recovery, block resets, the firmware load (15; 18, sections 18.4, 18.5, 18.8; 19, R548; 20, R572). A reset's steps are
taken as one: its state is the one at its end, or at the point where it waits for the crystal, RESET_N or a rail. -/

namespace Sys2Proof.Machine

/-! ## The board record (15, R448, Table 15-9a) -/

/-- CRC-32 with the generator and conventions of R288 over bytes (10, R288; 15, R448). -/
def crcOfBytes (bs : List Byte) : Nat :=
  crcBits 32 0x04C11DB7 0xFFFFFFFF (bs.flatMap fun b => (List.range 8).map fun i => b.getLsbD i) ^^^ 0xFFFFFFFF

/-- A record is valid: magic, format, CRC. -/
def recordValid (r : List Byte) : Bool :=
  field r 0 4 == 0x4452424B && field r 4 1 == 1 && field r 0xFC 4 == crcOfBytes (padTo 252 (r.take 252))
def recordGen (r : List Byte) : Nat := field r 6 2

/-- Selection of the board record: the record and its code in board_record_state (15, R448, Table 15-13). -/
def chooseRecord (a b : List Byte) : List Byte × Nat :=
  match recordValid a, recordValid b with
  | true, false => (a, 0)
  | false, true => (b, 1)
  | false, false => ([], 2)
  | true, true =>
    let d := (recordGen a + 65536 - recordGen b) % 65536
    if d = 0 then (if padTo 256 a = padTo 256 b then (a, 0) else ([], 3))
    else if d ≤ 32767 then (a, 0) else (b, 1)

/-- The bits of byte `i` of a board record that are not reserved (15, Table 15-9a). -/
def recordMask (i : Nat) : Nat :=
  if i = 5 || (0x1D ≤ i && i < 0x20) || (0x21 ≤ i && i < 0xFC) then 0
  else if i = 0x0E then 0x0F
  else if i = 0x1C then 0x03
  else 0xFF

/-- A record's bytes from byte `i` on, with the reserved ones 0 (00, R5). -/
def clearRecord (i : Nat) : List Byte → List Byte
  | [] => []
  | b :: t => (b &&& BitVec.ofNat 8 (recordMask i)) :: clearRecord (i + 1) t

/-- A field of the record in use; out of range, or without a record, its default. -/
def State.option (s : State) (off n limit dflt : Nat) : Nat :=
  if s.boot.record.isEmpty then dflt else let v := field s.boot.record off n; if v ≤ limit then v else dflt

def State.resetNAction (s : State) : Nat := s.option 0x0B 1 1 0
def State.perstAction (s : State) : Nat := s.option 0x0C 1 2 0
def State.linkdownAction (s : State) : Nat := s.option 0x0D 1 1 0
def State.cmdResetMask (s : State) : Nat := s.option 0x0E 1 255 0xF % 16
def State.watchdogAction (s : State) : Nat := s.option 0x0F 1 1 0

/-! ## The fuse vote (15, R445, R446, Table 15-8) -/

/-- The vote on one block's copies A, B, C: its contents, or none in conflict, and its vote byte. -/
def voteBlock (c : List FuseCopy) : Option (List Byte) × Nat :=
  let copies := c.zipIdx
  let clean := copies.filter fun x => x.1.clean
  let excluded := ((copies.filter fun x => !x.1.clean).map fun x => 2 ^ (2 + x.2)).sum
  let data := fun (x : FuseCopy × Nat) => padTo 256 x.1.data
  let used := if clean.length < 2 then none
    else clean.find? fun x => 2 ≤ (clean.filter fun y => data y = data x).length
  match used with
  | none => (none, 2 + excluded)
  | some x =>
    let out := clean.filter fun y => data y ≠ data x
    (some (data x), (if clean.length = 3 && out.isEmpty then 0 else 1) + excluded + (out.map fun y => 2 ^ (5 + y.2)).sum)

def State.fuseCopies (s : State) (b : Nat) : List FuseCopy := (List.range 3).map fun k => Tbl.get ({} : FuseCopy) s.boot.fuses (3 * b + k)

/-! ## The unit map (05, R138, R139, Table 5-3) -/

/-- One slice's word from its faulty rows and columns, 512 the check row or column. Jokers cover the check column first, then the columns of
one half wholly when they can, the low half first (log 155). `soft` counts the soft jokers among those in use, at
most the 15 that its four bits can show. -/
def mapWord (hard soft : List (Nat × Bool × Nat)) (c : Nat) : Nat :=
  let all := ((hard ++ soft).filter (·.1 == c)).eraseDups
  let rows := (all.filter fun x => x.2.1).map fun x => x.2.2
  let cols := (all.filter fun x => !x.2.1).map fun x => x.2.2
  let chk := cols.contains 512
  let low := (cols.filter (· < 256)).length
  let high := (cols.filter fun k => 256 ≤ k && k < 512).length
  let free := 8 - b2n chk
  let mode := if 8 < rows.length then 3 else if low + high ≤ free then 0 else if low ≤ free then 1 else if high ≤ free then 2 else 3
  let inHalf := fun (k : Nat) => k < 512 && ((mode == 1) == decide (k < 256))
  let used := ((cols.filter (· == 512)) ++ (cols.filter fun k => !(mode == 1 || mode == 2) || inHalf k) ++ (cols.filter fun k => (mode == 1 || mode == 2) && !inHalf k && k != 512)).eraseDups.take 8
  let isSoft := fun (row : Bool) (k : Nat) => soft.contains (c, row, k) && !hard.contains (c, row, k)
  mode + 4 * min 8 rows.length + 64 * min 8 cols.length + 1024 * b2n (rows.contains 512) + 2048 * b2n chk
    + 4096 * min 15 (((rows.take 8).filter (isSoft true)).length + (used.filter (isSoft false)).length)

/-- The map of all slices, recomputed; a seat that needs a full map and loses it is reported (05, R139). -/
def State.remap (s : State) : State :=
  let full := s.allFull
  let s := { s with unitMap := cds.foldl (fun t c => Tbl.set 0 t c (mapWord s.arr.hard s.arr.soft c)) [] }
  if !full || s.allFull then s
  else
    let bitsOf := fun (f : Nat → Bool) => ((cds.filter f).map fun c => 2 ^ c).sum
    let narrow := bitsOf fun c => s.sliceMode c = 1 || s.sliceMode c = 2
    let off := bitsOf fun c => s.sliceMode c = 3
    (s.liveSeats.filter fun e => e.2.deck.any (·.unitMapReq = 1)).foldl (fun s e => s.report 1 0x010B 0 (some e.1) [narrow, off]) s

/-! ## The cause registers (15, R439) -/

/-- The first cycle of a device-wide reset. -/
def State.noteReset (s : State) (scope cause detail : Nat) : State :=
  { s with boot := { s.boot with cause := cause, scope := scope, detail := detail, seq := s.boot.seq + 1, time := s.now } }

/-! ## Journals (16, Table 16-6; 18, Table 18-18) -/

/-- A repair found in the journal at a warm reset or device recovery. -/
def repairWarm (j : Journal) : Journal := if j.step = 2 then { j with attempt := min 3 (j.attempt + 1) } else j
/-- A repair found in the journal at a cold reset. -/
def repairCold (j : Journal) : Journal :=
  match j.step with
  | 1 => { j with step := 2, attempt := max 1 j.attempt, moved := 0 }
  | 2 => { j with attempt := min 3 (j.attempt + 1) }
  | 4 => { j with moved := 0 }
  | _ => j

/-- The journal after a cold reset: a repair goes on without its held data; an update is aborted. -/
def Maint.coldJournal (m : Maint) : Journal × Bool :=
  if m.journal.kind = 1 then (repairCold m.journal, m.lost || m.journal.moved ≠ 0) else ({}, false)

/-! ## Messages discarded (16, R472) -/

/-- pkg_incarnation rises: unanswered requests and posted messages are discarded and counted per function. -/
def State.newIncarnation (s : State) : State :=
  let open' := fun (f : Nat) => (s.fw.reqs.filter (·.f == f)).length + b2n (s.fn f).inPost
  let fs := List.range 64
  let s := { s with
    mgmt := { s.mgmt with discarded := fs.foldl (fun t f => Tbl.set 0 t f (open' f)) [] }
    fw := { s.fw with pkgInc := s.fw.pkgInc + 1, reqs := [] } }
  let n := (fs.map fun f => Tbl.get 0 s.mgmt.discarded f).sum
  if n = 0 then s else s.bump 0x800306 64 n

/-- NOTICE RESTART to every enabled function (16, R472). -/
def State.tellRestart (s : State) : State :=
  s.enabledFns.foldl (fun s f => s.notice f 1 .receiverReset
    (zeros 3 ++ leBytes 4 (s.fw.pkgInc - 1).toNat ++ leBytes 4 s.fw.pkgInc.toNat ++ leBytes 2 (Tbl.get 0 s.mgmt.discarded f)
      ++ [BitVec.ofNat 8 s.boot.told, 0])) s

/-! ## LIVE (15, Table 15-9 step 14; 16, R460; 14, section 14.2) -/

/-- LIVE is entered: watchdogs armed, first ledger value written. The spec gives that value nowhere: a free value chooses it (log 3). -/
def State.goLive (s : State) : State :=
  let (v, s) := s.free
  let s := { s with
    mgmt := { s.mgmt with armed := true, kicked := (List.range 5).foldl (fun t n => Tbl.set 0 t n s.ns) [] }
    boot := { s.boot with beenLive := true } }
  (s.setClk fun c => { c with ledger := dividers.getD (v.toNat % 4) 8 }).setDev .live

/-! ## Cold reset and bring-up (15, sections 15.5 to 15.7; 20, R572) -/

/-- What a cold reset leaves (15, Table 15-6): all at reset values but the chip's and the board's own contents, the keeper's, the pins,
and the world outside. -/
def State.coldState (s : State) (dev : DevState) : State :=
  let s := s.newIncarnation
  let (j, lost) := s.maint.coldJournal
  let objs := (Tbl.get none s.objs 0x110004, Tbl.get none s.objs 0x110005)
  let t : State := {
    pending := s.pending, dev := dev
    boot := {
      fuses := s.boot.fuses, eeprom := s.boot.eeprom, cause := s.boot.cause, scope := s.boot.scope, detail := s.boot.detail
      seq := s.boot.seq, time := s.boot.time, resetLow := s.boot.resetLow, perstLow := s.boot.perstLow, told := 4 }
    fw := { pkgInc := s.fw.pkgInc }
    power := { good := s.power.good, faulty := s.power.faulty, pmbAlert := s.power.pmbAlert, tripLow := s.power.tripLow }
    arr := { hard := s.arr.hard, soft := s.arr.soft }
    links := { faulty := s.links.faulty }
    mgmt := { discarded := s.mgmt.discarded }
    maint := { journal := j, lost := lost, repairSt := s.maint.repairSt, scrubs := s.maint.scrubs }
    sec := { rowA := s.sec.rowA, rowB := s.sec.rowB, rowC := s.sec.rowC, fsGen := s.sec.fsGen, nonce := s.freeCtr, uds := s.sec.uds, cert := s.sec.cert }
    freeCtr := s.freeCtr + 4, out := s.out
    objs := Tbl.set none (Tbl.set none [] 0x110004 objs.1) 0x110005 objs.2 }
  if s.maint.journal.kind = 2 && s.maint.journal.step ≠ 31 then t.setObj 0x800201 7 else t

/-- Medium bits of the ports from the record (11, Table 11-11; 15, Table 15-9a). -/
def State.loadMedia (s : State) : State :=
  let tp := s.option 0x18 8 (2 ^ 64 - 1) 0
  let sp := s.option 0x20 1 255 0
  let s := tablePorts.foldl (fun s n => if bit tp n then s.setObj (portObj n 0x81) 1 else s) s
  spinePorts.foldl (fun s n => if bit sp (n - 64) then s.setObj (portObj n 0x83) 1 else s) s

/-- Steps 1 to 6 of Table 15-9: fuses voted, record selected, ROM or OPTION_CONFLICT; then the crystal is awaited (15, R446 to R448,
R451). -/
def State.bringUp (s : State) : State :=
  let votes := (List.range 4).map fun b => voteBlock (s.fuseCopies b)
  let s := { s with boot := { s.boot with
    held := none
    voted := (List.range 4).foldl (fun t b => Tbl.set [] t b ((voteBlock (s.fuseCopies b)).1.getD [])) []
    votes := (List.range 4).foldl (fun t b => Tbl.set 0 t b (voteBlock (s.fuseCopies b)).2) [] } }
  let r := chooseRecord (Tbl.get [] s.boot.eeprom 0) (Tbl.get [] s.boot.eeprom 1)
  let s := { s with
    boot := { s.boot with record := r.1, recState := r.2, waiting := true } }
  let s := (List.range 10).foldl (fun s c => s.stepRail c (s.railTarget c 8)) s
  if votes.any (·.1.isNone) || r.2 = 3 then s.setDev .optionConflict
  else
    let s := { s with
      table := { s.table with id := BitVec.ofNat 16 (s.option 8 2 0xFFFF 0xFFFF), position := s.option 0x0A 1 17 0xFF }
      memory := { s.memory with bandMode := BitVec.ofNat 48 (s.option 0x10 8 (2 ^ 48 - 1) 0) } }
    (s.loadMedia.remap).setDev .rom

/-- Steps 7 to 10 of Table 15-9, once the crystal is stable: links, memories as zeros, STAGING (15, R451). -/
def State.toStaging (s : State) : State :=
  let s := { s with boot := { s.boot with waiting := false } }
  let (s, ok) := s.trainLinks
  if ok then (s.setDev .staging).tellRestart else s.foldPackage 1

/-- A cold reset begins (15, R439, R442). -/
def State.beginCold (s : State) (cause detail : Nat) : State :=
  ((s.noteReset 4 cause detail).coldState .options).bump 0x110005 32

/-- A warm or wider reset that turns into a cold one keeps its cause (15, R437, R455). -/
def State.turnCold (s : State) : State :=
  (({ s with boot := { s.boot with scope := 4 } }.coldState .options).bump 0x110005 32).bringUp

/-! ## Warm reset and device recovery (15, R442, R443, R455; 18, R523) -/

/-- Volatile RW objects return to their defaults (17, Tables 17-2 and 17-3): doze_timer and force_step. -/
def State.dropVolatile (s : State) : State := { s with objs := Tbl.set none (Tbl.set none s.objs 0x200581 none) 0x480080 none }

/-- Restores and dummy queries in progress end with ST_RECEIVER_RESET (18, R542). -/
def State.endRestores (s : State) : State := (s.maint.restores.map Restore.key).foldl (fun s k => s.endRestore k .receiverReset) s

/-- A function page loses its queues and the message in its inbound window (15, Table 15-6; 16, R472). -/
def emptyQueues (p : FnPage) : FnPage :=
  { p with doorbells := [], events := [], eventsLost := false, outQ := [], outHeld := [], inPost := false }

/-- First part of a warm reset or device recovery: what it clears (15, Tables 15-6 and 15-12 steps 1 and 2). -/
def State.beginWarm (s : State) (scope cause detail : Nat) (dev : DevState) : State :=
  let s := (s.noteReset scope cause detail).newIncarnation
  let s := ((s.abandonAll .receiverReset).endRestores).destroyAll
  let s := match s.power.tallies with
    | some t => { s with sync := { s.sync with cdTally := t } }
    | none => s
  let s := (s.liveSeats.map (·.1)).foldl (fun s n => s.clearObjects n) s
  let es := s.liveSeats.map (·.2.entry)
  let inCd := fun (k : Nat) => es.any fun e => e.cdBase ≤ k && k < e.cdBase + e.cdCount
  let inPkg := fun (k : Nat) => es.any fun e => e.pkgBase ≤ k && k < e.pkgBase + e.pkgCount
  let s := { s with
    host := { s.host with
      fns := Tbl.mapAll {} (fun _ p => emptyQueues p) s.host.fns, cmdBusy := none, heldCmds := [], cmdLost := false }
    sync := { s.sync with
      cdTally := s.sync.cdTally.filter fun t => inCd (t.1 % 4096)
      pkgTally := s.sync.pkgTally.filter fun t => inPkg t.1
      inbox := [], unlocks := [], remotes := [], dbgSel := 0, dbgVal := 0 }
    memory := { s.memory with
      mem := s.memory.mem.filter fun c => !isSlab c.1, bursts := [], written := [], writeback := [], scrubPos := [] }
    play := none, chosen := none, phaseNext := none, seqs := [], ops := [], groups := [], deckBuf := none
    arr := s.arr.idle.unbind
    time := { s.time with exchs := [], master := none }
    rel := { s.rel with epochs := [], halves := [] }
    clk := { s.clk with
      gated := 0, ungating := 0, ledger := 8, div := 8, fallback := [], changes := if s.clk.div = 8 then s.clk.changes else s.clk.changes + 1 }
    power := {
      good := s.power.good, faulty := s.power.faulty, pmbAlert := s.power.pmbAlert, tripLow := s.power.tripLow
      rails := s.power.rails, memTmax := s.power.memTmax }
    mgmt := { period := s.mgmt.period, discarded := s.mgmt.discarded, mbxSeq := s.mgmt.mbxSeq, notices := s.mgmt.notices, link := s.mgmt.link }
    kdp := { spineDir := s.kdp.spineDir, octets := s.kdp.octets, lastId := s.kdp.lastId }
    sec := { s.sec with nonce := s.freeCtr }
    freeCtr := s.freeCtr + 4
    maint := { s.maint with works := [], due := [], opens := [] }
    table := { id := s.table.id, position := s.table.position }
    fab := { pairTx := s.fab.pairTx, pairRx := s.fab.pairRx, gaps := s.fab.gaps, unknown := s.fab.unknown, dups := s.fab.dups }
    fw := { s.fw with stage := none }
    boot := { s.boot with load := none, delayed := none, blockBusy := false, told := scope } }
  let s := (List.range 8).foldl (fun s c => s.stepRail c (s.railTarget c 8)) s
  s.dropVolatile.setDev dev

/-- Status of an image under Table 19-4 (19, R548; 15, Table 15-11). -/
def State.judgeImage (s : State) (f : ImageFacts) : Status :=
  let fb3 := Tbl.get [] s.boot.voted 3
  let rootOk := f.rootIndex.any fun g => g < 4 && !bit (field fb3 0xC0 1) g && !s.sec.revoked.getLsbD g
  if !f.manifestOk || 128 < f.svn then .badArg
  else if f.part ≠ 8 then .unsupported
  else if !rootOk || !f.ecdsaOk || !f.mldsaOk || !f.digestsOk then .integrity
  else if f.svn < s.sec.svn then .version
  else .ok

/-- An image starts to run: identity registers and its digest in keeper retention (15, R455; 02, Table 2-9; 16, Table 16-9). -/
def State.runImage (s : State) (f : ImageFacts) : State :=
  { s with
    boot := { s.boot with code := some f, digest := some f.digest }
    fw := { s.fw with image := some f, version := f.version, wire := f.wireRevision } }

/-- The staged image lies unpoisoned in the stage area and passes its checks again (16, Table 16-6). -/
def State.stagedGood (s : State) (at0 : Nat) (f : ImageFacts) : Bool :=
  s.judgeImage f == .ok && s.maint.journal.digest == f.digest
    && !s.memory.poison.any fun p => p.2 && decide (at0 / 64 ≤ p.1) && decide (p.1 < (at0 + 0x2000000) / 64)

/-- The journal at a warm reset or device recovery; false when a staged image fails and the reset becomes cold (16, Table 16-6; 18,
Table 18-18). `staged` is the image that was staged. -/
def State.resumeJournal (s : State) (staged : Option ImageFacts) : State × Bool :=
  let j := s.maint.journal
  let clear := fun (s : State) => { s with maint := { s.maint with journal := {} } }
  match j.kind with
  | 1 => ({ s with maint := { s.maint with journal := repairWarm j } }, true)
  | 2 =>
    if j.step = 1 then ((clear s).setObj 0x800201 5, true)
    else if j.step = 31 then (clear s, true)
    else match staged with
      | some f =>
        if s.stagedGood j.stage f then ((((clear s).runImage f).setObj 0x800201 4).bump 0x800203 32, true) else (s, false)
      | none => (s, false)
  | _ => (s, true)

/-- Second part of a warm reset or device recovery: code store, links, journals, parked seats, LIVE (15, Table 15-12; 18, Table 18-7).
A package that was FOLDED stays so (18, R526). -/
def State.endWarm (s : State) (staged : Option ImageFacts) (folded : Bool) : State :=
  let s := { s with boot := { s.boot with held := none, waiting := false } }
  let same := match s.boot.code, s.boot.digest with
    | some f, some d => f.digest == d
    | _, _ => false
  let (s, ok) := s.resumeJournal staged
  if !(same && ok) then s.turnCold
  else
    let (s, ok) := s.trainLinks
    let s := s.parkAll.remap
    if folded then s.setDev .folded
    else if !ok then s.foldPackage 1
    else
      let s := if s.boot.scope = 3 then
          ({ s with maint := { s.maint with recovered := s.maint.recovered ++ [s.now] } }).bump 0x601001 32
        else s.bump 0x110004 32
      s.goLive.tellRestart

/-- A whole warm reset (15, R437, R455): before the first LIVE it runs as a cold reset. -/
def State.warmReset (s : State) (cause : Nat) (hold : Bool) : State :=
  if !s.boot.beenLive then
    let s := s.beginCold cause 0
    if hold then { s with boot := { s.boot with held := some (4, cause) } } else s.bringUp
  else
    let folded := s.dev == .folded
    let staged := s.mgmt.staged
    let t := s.beginWarm 2 cause 0 (if folded then .folded else .rom)
    if hold then { t with mgmt := { t.mgmt with staged := staged }, boot := { t.boot with held := some (2, cause) } }
    else t.endWarm staged folded

/-- Recoveries that ended within the last 3,600 s. -/
def State.recentRecoveries (s : State) : Nat :=
  (s.maint.recovered.filter fun t => s.now.toNat < t.toNat + 3600000000000).length

/-- Device recovery (18, R522 to R524): a fourth within 3,600 s folds the package; one for the clock waits for the crystal. -/
def State.recover (s : State) (reason cause : Nat) : State :=
  let s := { s with maint := { s.maint with due := s.maint.due.filter (· ≠ reason) } }
  if 3 ≤ s.recentRecoveries then s.foldPackage 4
  else
    let s := (s.setObj 0x601002 reason).report 2 0x0801 8 none [reason]
    let staged := s.mgmt.staged
    let t := s.beginWarm 3 cause reason .recovering
    if reason = 2 then { t with mgmt := { t.mgmt with staged := staged }, boot := { t.boot with waiting := true, held := none } }
    else t.endWarm staged false

/-- Host-port reset (15, Table 15-6; 02, R25): as an FLR of PF 0; the configuration space and the SR-IOV enables reset too; a LOAD in
progress is abandoned (R454). Epochs and restores end, and scrub passes start over (18, R535, R542); ports keep their retraining and
their keys (Table 15-6; log 165). -/
def State.hostPortReset (s : State) (cause : Nat) : State :=
  let s := (((s.noteReset 1 cause 0).abandonAll .receiverReset).endRestores).flrPf 3
  let s := { s with
    host := { tableBase := s.host.tableBase, tableSize := s.host.tableSize, linkUp := s.host.linkUp }
    memory := { s.memory with scrubPos := [] }
    sec := { s.sec with nonce := s.freeCtr }, freeCtr := s.freeCtr + 4 }
  if s.dev = .staging then
    { s with boot := { s.boot with load := none, code := none }, fw := { s.fw with reqs := s.fw.reqs.filter (·.type ≠ 2) } }
  else s

/-! ## Requests for a reset (15, R438) -/

/-- The scope of the reset in progress. -/
def State.resetting (s : State) : Option Nat :=
  match s.boot.held with
  | some (sc, _) => some sc
  | none =>
    if s.dev = .cold then some 4
    else if s.boot.waiting && !s.clk.xtalFail && s.dev ≠ .optionConflict then some (if s.dev = .recovering then 3 else 4)
    else none

/-- A reset of a scope runs, or is absorbed by one in progress of at least its width (15, R438). `hold` keeps it at its first step. In OPTIONS, which
the model holds only while RESET_N is low, the loading starts over at the pin's release, and the cause is recorded (15, R450; log 180). -/
def State.runReset (s : State) (scope cause : Nat) (hold : Bool := false) : State :=
  if s.dev = .options then s.noteReset (if scope = 2 then 4 else scope) cause 0
  else if s.resetting.any (scope ≤ ·) then s
  else match scope with
    | 1 => s.hostPortReset cause
    | 2 => s.warmReset cause hold
    | _ =>
      let s := s.beginCold cause 0
      if hold then { s with boot := { s.boot with held := some (4, cause) } } else s.bringUp

/-! ## Sources (15, Table 15-2) -/

/-- When every monitored rail is good, bring-up starts; it holds while RESET_N is low (20, R572, R575; 15, R451). -/
def State.railsUp (s : State) : State :=
  if s.dev = .cold && s.power.good = 0x7FFFF && !s.clk.tripped && s.boot.scope = 4 then
    if s.boot.resetLow then { s with dev := .options, boot := { s.boot with held := some (4, s.boot.cause) } }
    else State.bringUp { s with dev := .options }
  else s

/-- What outlives the loss of VDD_KEEP: fuses, EEPROM, pins, the world outside. -/
def State.unpowered (s : State) : State :=
  { pending := s.pending, out := s.out, freeCtr := s.freeCtr + 4
    boot := { fuses := s.boot.fuses, eeprom := s.boot.eeprom, resetLow := s.boot.resetLow, perstLow := s.boot.perstLow }
    arr := { hard := s.arr.hard }, links := { faulty := s.links.faulty }
    sec := { rowA := s.sec.rowA, rowB := s.sec.rowB, rowC := s.sec.rowC, fsGen := s.sec.fsGen, nonce := s.freeCtr, uds := s.sec.uds, cert := s.sec.cert }
    power := { good := s.power.good, faulty := s.power.faulty, pmbAlert := s.power.pmbAlert } }

/-- POWER_ON: VDD_KEEP rises; a cold reset with the keeper's retention cleared; COLD until every rail is good (15, R434, R439; 16, R471;
20, R572). -/
def execPowerOn (s : State) : Res :=
  .next (
    let t := s.unpowered
    State.railsUp { t with
      boot := { t.boot with cause := 1, scope := 4, told := 4 }, fw := { pkgInc := 1 }
      power := { t.power with good := t.power.good ||| (1 <<< 10) } })

/-- RAIL_GOOD: a monitored rail rises above its good threshold (20, R572). -/
def execRailGood (rail : Nat) (s : State) : Res :=
  .next (if 19 ≤ rail then s
    else State.railsUp { s with power := { s.power with good := s.power.good ||| (1 <<< rail) } })

/-- A VDD_CD rail that DOZE has set to 0 V is not monitored (20, R573). -/
def State.monitored (s : State) (rail : Nat) : Bool := !(rail < 8 && s.dev == .doze)

/-- SUPPLY_FAULT: a monitored rail has failed for 2 µs (20, R572; 15, Table 15-2). Several rails of one fault are one reset. -/
def execSupplyFault (rail : Nat) (s : State) : Res :=
  .next (
    if 19 ≤ rail || !s.monitored rail then s
    else
      let s := { s with power := { s.power with good := s.power.good &&& ~~~((1 : BitVec 19) <<< rail) } }
      if rail = 10 then s.unpowered
      else if s.dev = .cold then s
      else ((s.noteReset 4 2 0).coldState .cold).bump 0x110005 32)

/-- RESET_N_ASSERT (15, Table 15-2; 20, Table 20-7): the reset begins and holds while the pin is low. -/
def execResetNAssert (s : State) : Res :=
  .next (let s := { s with boot := { s.boot with resetLow := true } }
         s.runReset (if s.resetNAction = 1 then 2 else 4) 3 true)

/-- RESET_N_RELEASE: the held reset proceeds (20, R579). -/
def execResetNRelease (s : State) : Res :=
  .next (
    let s := { s with boot := { s.boot with resetLow := false } }
    match s.boot.held with
    | none => s
    | some (2, _) => s.endWarm s.mgmt.staged (s.dev == .folded)
    | some _ => s.bringUp)

/-- PERST_N_ASSERT: the host port is held in reset, and the action of perst_action begins (15, R434, R436). -/
def execPerstNAssert (s : State) : Res :=
  .next (
    let s := { s with boot := { s.boot with perstLow := true } }
    let s := s.runReset (s.perstAction + 1 + b2n (s.perstAction == 2)) 4
    { s with host := { s.host with linkUp := false } })

/-- PERST_N_RELEASE: the host port trains, once OHM-ROM has released it and the PLL outputs run (14, R406; 15, R436, R451 step 6, R452). -/
def execPerstNRelease (s : State) : Res :=
  .next { s with
    boot := { s.boot with perstLow := false }
    host := { s.host with linkUp := s.dev ≠ .cold && s.dev ≠ .options && decide (2 ≤ s.clk.source) } }

/-- PCIE_LINK_DOWN with PERST_N high (15, Table 15-2): the link trains again after the reset. -/
def execPcieLinkDown (s : State) : Res :=
  .next (if s.boot.perstLow || s.linkdownAction = 1 || !s.host.linkUp then s else s.runReset 1 5)

/-- Bit of cmd_reset_mask and cause code of a channel (15, Table 15-2). -/
def resetSource : Channel → Nat × Nat
  | .net _ => (0, 6) | .mctp false _ _ => (1, 7) | .mctp true _ _ => (2, 8) | .mailbox _ => (3, 9)

/-- An accepted reset command: the reset begins 1 ms after its reply has left (15, R435). -/
def State.delayReset (s : State) (scope cause : Nat) (left : Bool) : State :=
  match s.boot.delayed with
  | some (sc, _, _) => if scope ≤ sc then s else { s with boot := { s.boot with delayed := some (scope, cause, left) } }
  | none => { s with boot := { s.boot with delayed := some (scope, cause, left) } }

/-- reset_request, 0x1100.80 (15, R435, Table 15-13): 1 warm, 2 cold. -/
def State.askReset (s : State) (ch : Channel) (v : Nat) : State × Status × Nat :=
  let (b, cause) := resetSource ch
  if v ≠ 1 && v ≠ 2 then (s, .badArg, 0)
  else if !bit s.cmdResetMask b then (s, .noAccess, 0)
  else (s.delayReset (2 * v) cause true, .ok, 0)

/-- A reset command for `v`: the RESET message of PF 0 when one is open, otherwise reset_request (15, R435; 16, Table 16-5). -/
def State.resetCommand (s : State) (ch : Channel) (seq : Half) (v : Nat) : State :=
  let req := match ch with
    | .mailbox f => s.openReq f.val seq 3
    | _ => none
  match req with
  | none => s.objAct ch 0x1100 0x80 fun s => s.askReset ch v
  | some r =>
    let k := field r.payload 0 1
    if k ≠ 1 && k ≠ 2 then s.answer r .badArg
    else if k ≠ v then s
    else if !bit s.cmdResetMask 3 then s.answer r .noAccess
    else (s.answer r .ok).delayReset (2 * v) 9 false

def execResetRequestWarm (ch : Channel) (seq : Half) (s : State) : Res := .next (s.resetCommand ch seq 1)
def execResetRequestCold (ch : Channel) (seq : Half) (s : State) : Res := .next (s.resetCommand ch seq 2)

/-- RESET_DELAY_EXPIRY (15, R435). -/
def execResetDelayExpiry (s : State) : Res :=
  .next (match s.boot.delayed with
    | some (sc, cause, true) => State.runReset { s with boot := { s.boot with delayed := none } } sc cause
    | _ => s)

/-- OHM-SUP and OHM-REL run (16, R457). -/
def State.ohmegRuns (s : State) : Bool := s.dev == .live || s.dev == .doze || s.dev == .folded || s.dev == .recovering

def execPwrResetReqWarm (s : State) : Res := .next (if s.ohmegRuns then s.runReset 2 0x0B else s)
def execPwrResetReqCold (s : State) : Res := .next (if s.ohmegRuns then s.runReset 4 0x0B else s)

/-- PWR_RESET_REQ_RECOVERY (15, R439; 18, R522, Table 18-6). -/
def execPwrResetReqRecovery (reason : Nat) (s : State) : Res :=
  .next (if (s.dev = .live || s.dev = .doze) && 1 ≤ reason && reason ≤ 5 && s.resetting.isNone then s.recover reason 0x0C else s)

/-- JTAG_RESET: only at debug level PACKAGE (15, Table 15-2; 19, R562). -/
def execJtagReset (s : State) : Res := .next (if s.sec.level = 2 then s.runReset 4 0x0E else s)

/-! ## The crystal (14, R406 to R408) -/

/-- CRYSTAL_STABLE: step 3 of Table 14-1 has passed and the root PLL locks to the crystal; the next idle step ends the lock (`State.pllLocked`; log
1). After a timeout the package stays on the internal oscillator (14, R406, R407). -/
def execCrystalStable (s : State) : Res :=
  .next (
    if !s.boot.waiting || s.boot.held.isSome || s.clk.xtalFail || s.clk.source = 1 then s
    else { s with clk := { s.clk with source := 1, xtalGood := true } })

/-- The root PLL has locked: the clocks switch to its outputs, the host port trains, and bring-up, or the recovery of the clock, goes on (14, R406,
Table 14-1 steps 4 and 5; 15, Table 15-9). -/
def State.pllLocked (s : State) : State :=
  let s := { s with
    clk := { s.clk with source := 2, pllLock := true }
    host := { s.host with linkUp := !s.boot.perstLow } }
  match s.dev with
  | .rom => s.toStaging
  | .recovering => s.endWarm s.mgmt.staged false
  | _ => { s with boot := { s.boot with waiting := false } }

/-- CRYSTAL_TIMEOUT: the package stays in ROM on the internal oscillator and reports the failure over MCTP on I3C and on the UART console; a
recovery ends FOLDED (14, R407, R408). -/
def execCrystalTimeout (s : State) : Res :=
  .next (
    if !s.boot.waiting || s.boot.held.isSome || s.clk.xtalFail || s.clk.source = 1 then s
    else match s.dev with
      | .recovering => State.foldPackage { s with boot := { s.boot with waiting := false } } 2
      | _ => (({ s with clk := { s.clk with xtalFail := true } }).emit (.crystalFailure false)).emit (.crystalFailure true))

/-- CLK_STATUS (14, Table 14-3). -/
def Clk.status (c : Clk) : Nat := c.source + 4 * b2n c.xtalGood + 8 * b2n c.pllLock + 16 * c.div

/-- REFERENCE_LOSS: oscillator, HOLDOVER, report, device recovery (14, R408; 15, cause 0x0D). FOLDED and OPTION_CONFLICT are left by a cold reset
only (18, R526; 15, R447). -/
def execReferenceLoss (s : State) : Res :=
  .next (
    if s.clk.source ≠ 2 then s
    else
      let s := { s with clk := { s.clk with source := 3, xtalGood := false, pllLock := false } }
      let s := s.holdover.report 2 0x0401 8 none [s.clk.status]
      if s.dev = .folded || s.dev = .optionConflict then s else s.recover 2 0x0D)

/-! ## THERMTRIP (14, Table 14-9; 20, R581) -/

/-- What is left of a package that has stopped: the keeper's contents, the values that its registers held, the pins and the world outside. The rest
can neither act nor be seen until the power is removed, and is lost then (14, Table 14-9; log 108). -/
def State.stopped (s : State) : State :=
  { pending := s.pending, dev := .cold, out := s.out, freeCtr := s.freeCtr, time := s.time, objs := s.objs, sec := s.sec
    boot := { s.boot with held := none, waiting := false, load := none, delayed := none, blockBusy := false }
    fw := { pkgInc := s.fw.pkgInc }
    clk := { s.clk with tripped := true }
    power := { good := s.power.good, faulty := s.power.faulty, pmbAlert := s.power.pmbAlert, tripLow := true }
    arr := { hard := s.arr.hard, soft := s.arr.soft }
    links := { faulty := s.links.faulty }
    mgmt := { discarded := s.mgmt.discarded }
    maint := { journal := s.maint.journal, lost := s.maint.lost, repairSt := s.maint.repairSt, scrubs := s.maint.scrubs } }

/-- THERMTRIP: the pin is held low and every clock but the keeper's stops; the package does nothing further until its power is removed (14, Table
14-9). No reset takes place (15, Table 15-2). -/
def execThermtrip (temp : Int) (s : State) : Res := .next (if temp < 110 || s.clk.tripped then s else s.stopped)

/-! ## Block reset (15, R440, R441, Table 15-5) -/

/-- The port that a block code names. -/
def blockPort (b : Nat) : Option Nat := if 0x48 ≤ b && b < 0x6A then some (b - 0x48) else if 0x6A ≤ b && b < 0x72 then some (b - 0x6A + 64) else none

/-- A block is idle (15, Table 15-5). -/
def State.blockIdle (s : State) (b : Nat) : Bool :=
  match blockPort b with
  | some p => (s.port p).state == .off || (s.port p).state == .failed
  | none =>
    if b < 0x40 then s.play.isNone
    else s.groups.isEmpty && !s.fab.out.any fun o => !isTrump o.pkt.op

/-- The CD and the units of a DMA, deal and XPS, or collective block (15, Table 15-5). -/
def blockUnits (b : Nat) : Nat × List OpUnit :=
  if b < 0x38 then ((b - 0x18) / 4, [.dma ((b - 0x18) % 4)]) else if b < 0x40 then (b - 0x38, [.deal, .xps]) else (b - 0x40, [.coll])

/-- A block's queues, buffers and sums return to their values after a cold reset; a port goes to OFF (15, R441). -/
def State.clearBlock (s : State) (b : Nat) : State :=
  match blockPort b with
  | some p => s.modPort p fun q => freshPort q .off
  | none =>
    if b < 8 then { s with arr := { s.arr.unbind with prods := [], acc := s.arr.acc.filter fun e => e.1 / 1024 ≠ b } }
    else if b < 0x10 then { s with arr := { s.arr with mvp := s.arr.mvp.filter (·.1 ≠ b - 8) } }
    else if b < 0x18 then { s with arr := { s.arr with queues := s.arr.queues.filter (·.1 ≠ b - 0x10) } }
    else
      let mine := fun (o : Op) => match blockUnits b with | (c, us) => o.cd == c && us.contains o.unit
      let ids := (s.ops.filter mine).map (·.id)
      { s with
        ops := s.ops.filter fun o => !mine o
        memory := { s.memory with bursts := s.memory.bursts.filter fun b => !ids.contains b.op } }

/-- PWR_BLOCK_RESET and 0x1100.81: status and retry-after (15, R440). -/
def State.blockReset (s : State) (b : Nat) : State × Status × Nat :=
  let note := fun (s : State) (st : Status) => { s with boot := { s.boot with block := b, blockSt := st } }
  if 0x71 < b then (note s .badArg, .badArg, 0)
  else if s.boot.blockBusy then (note s .busy, .busy, 10)
  else if !s.blockIdle b then (note s .conflict, .conflict, 1000)
  else
    let s := (note s .ok).clearBlock b
    ({ s with boot := { s.boot with blockBusy := true, blockNow := b } }, .ok, 0)

/-- BLOCK_RESET: OHM-REL writes PWR_BLOCK_RESET (15, R440). -/
def execBlockReset (block : Nat) (s : State) : Res := .next (if s.ohmegRuns then (s.blockReset block).1 else s)

/-- BLOCK_RESET_COMPLETE (15, R441; 18, report 0x0502). -/
def execBlockResetComplete (s : State) : Res :=
  .next (if !s.boot.blockBusy then s
    else (({ s with boot := { s.boot with blockBusy := false } }).bump 0x110007 32).report 2 0x0502 6 none [s.boot.blockNow])

/-! ## The board record's write (15, R449) -/

/-- board_record_write, 0xA002.80; what is written to reserved bits is ignored (00, R5). What a failed read-back leaves in the EEPROM is a free value (log 3). -/
def State.writeRecord (s : State) (data : List Byte) (ok : Bool) : State × Status × Nat :=
  if data.length ≠ 256 then (s, .badArg, 0)
  else
    let n := if s.boot.recState = 0 then 1 else 0
    let gen := if s.boot.record.isEmpty then 1 else (recordGen s.boot.record + 1) % 65536
    let body := clearRecord 0 (data.take 6 ++ leBytes 2 gen ++ (data.drop 8).take 244)
    let rec0 := body ++ leBytes 4 (crcOfBytes body)
    if ok then ({ s with boot := { s.boot with eeprom := Tbl.put n rec0 s.boot.eeprom } }, .ok, 0)
    else
      let junk := (List.range 32).flatMap fun i => leBytes 8 (Config.freeValue (s.freeCtr + i)).toNat
      ({ s with boot := { s.boot with eeprom := Tbl.put n junk s.boot.eeprom }, freeCtr := s.freeCtr + 32 }, .integrity, 0)

def execBoardRecordWrite (ch : Channel) (data : List Byte) (readBackOk : Bool) (s : State) : Res :=
  .next (s.objAct ch 0xA002 0x80 fun s => s.writeRecord data readBackOk)

/-! ## LOAD (15, R453, R454) -/

/-- A LOAD fails: counted, the code store marked empty, STAGING kept (15, R454). -/
def State.loadFailed (s : State) (seq : Half) (st : Status) : State :=
  let s := { s with boot := { s.boot with load := none, code := none } }
  match s.openReq 0 seq 2 with
  | some r => (s.bump 0x110006 32).answer r st
  | none => s.bump 0x110006 32

/-- LOAD: the body of Table 15-10 is checked and the image's read begins; one LOAD is served at a time. -/
def execLoad (f : Func) (seq : Half) (s : State) : Res :=
  .next (match s.openReq f.val seq 2 with
    | none => s
    | some r =>
      let at0 := field r.payload 0 8
      let len := field r.payload 8 4
      if s.dev ≠ .staging || s.boot.load.isSome then s
      else if at0 % 4096 ≠ 0 || len % 4096 ≠ 0 || len < 4096 || 33554432 < len then s.loadFailed seq .badArg
      else ({ s with boot := { s.boot with load := some (seq, at0, len) } }).emit (.hostRead 0 0x1000 at0 len))

/-- LOAD_IMAGE_READ: the image's checks; on success the components start and the package is LIVE (15, Table 15-9 steps 12 to 14,
R454). -/
def execLoadImageRead (r : ReadEnd) (facts : ImageFacts) (s : State) : Res :=
  .next (match s.boot.load with
    | none => s
    | some (seq, _, _) =>
      let st := match r with
        | .error => .timeout
        | .poisoned => .poison
        | .good => s.judgeImage facts
      if st ≠ .ok then s.loadFailed seq st
      else
        let s := State.runImage { s with boot := { s.boot with load := none } } facts
        let s := match s.openReq 0 seq 2 with
          | some q => s.answer q .ok
          | none => s
        s.remap.goLive)

end Sys2Proof.Machine
end

