-- ==== Sys2Proof/Machine/Bursts.lean ====
section
/-! DEFINITION. Commits of write bursts at their targets (08, section 8.11). -/

namespace Sys2Proof.Machine

/-- A burst that carries a row of a deal commits in the slab: the row has landed (06, R182, R183). -/
def State.commitRow (s : State) (b : Burst) (r : RowMove) : State :=
  let s := s.dropBurst b.id
  match (s.group r.tenant r.group).bind fun g => (g.deals.find? (·.ord == r.deal)).map fun d => (g, d) with
  | none => s
  | some (g, d) =>
    match d.cds.find? fun e => !e.2.desc.isEmpty with
    | none => s
    | some e => s.landRow g d (dealDesc e.2.desc) g.rank r.combine r.off b.data

/-- BURST_COMMIT: the target writes a burst that has arrived whole and accepted; bursts of one operation commit in order (08,
R251, R252); without a slot at the target it waits (03, R79). -/
def execBurstCommit (burst : Nat) (s : State) : Res :=
  .next (match s.memory.bursts.find? (·.id == burst) with
    | none => s
    | some b =>
      if b.stage ≠ 2 || s.burstBehind b then s
      else match s.opById b.op with
        | none => s
        | some o =>
          if routeOf b.dst = 0 && !s.memOpen o.unit b.dst b.len then s
          else match b.row with
            | some r => s.commitRow b r
            | none => s.commitDma o b)

end Sys2Proof.Machine
end

