-- ==== Sys2Proof/Machine/Catalog.lean ====
section
/-! DEFINITION. The catalogue of the object dictionary: the attributes of every object (17, R485, R489, R490, R510, and the object tables of
chapters 08 to 19). -/

namespace Sys2Proof.Machine

/-- Object types (17, Table 17-1). -/
inductive OType where
  | bool | u8 | u16 | u32 | u64 | i32 | i64 | f32 | time | str
  | octets (n : Nat)
  | domain (limit : Nat)
deriving DecidableEq, Repr

/-- Access codes (00, Table 0-3). -/
inductive Access where
  | ro | rw | wo | w1c | rw1s | const
deriving DecidableEq, Repr

/-- Persistence classes (17, Table 17-2). -/
inductive Persist where
  | volatile | retained | board
deriving DecidableEq, Repr

/-- One object: sub-index, name, type, access, persistence, and its default when that is a number other than 0. -/
structure Obj where
  sub     : Nat
  name    : String
  type    : OType
  access  : Access
  persist : Persist
  dflt    : Nat
deriving DecidableEq, Repr

/-- A row of the catalogue. -/
def obj (sub : Nat) (name : String) (type : OType) (access : Access) (persist : Persist := .volatile) (dflt : Nat := 0) : Obj :=
  { sub := sub, name := name, type := type, access := access, persist := persist, dflt := dflt }

/-- Code of a type (17, Table 17-1). -/
def OType.code : OType → Nat
  | .bool => 1 | .u8 => 2 | .u16 => 3 | .u32 => 4 | .u64 => 5 | .i32 => 6 | .i64 => 7 | .f32 => 8 | .time => 9 | .str => 0xA
  | .octets _ => 0xB | .domain _ => 0xC

/-- Size in bytes; for a DOMAIN its limit (17, Tables 17-1 and 17-8). -/
def OType.size : OType → Nat
  | .bool | .u8 => 1 | .u16 => 2 | .u32 | .i32 | .f32 => 4 | .u64 | .i64 | .time => 8 | .str => 32
  | .octets n => n | .domain n => n

def OType.isDomain : OType → Bool
  | .domain _ => true
  | _ => false

/-- Code of an access (17, Table 17-8). -/
def Access.code : Access → Nat
  | .ro => 0 | .rw => 1 | .wo => 2 | .w1c => 3 | .rw1s => 4 | .const => 5

/-- A write may reach the object (00, R3). -/
def Access.writable : Access → Bool
  | .ro | .const => false
  | _ => true

/-- Code of a persistence class (17, Table 17-8). -/
def Persist.code : Persist → Nat
  | .volatile => 0 | .retained => 1 | .board => 2

/-- Identity, versions, unit map, reset and options (17, Table 17-13; 15, Table 15-13). -/
def identityObjects : List (Nat × List Obj) := [
  (0x1000, [
    obj 0x01 "part" .u16 .const .volatile 0x0008,
    obj 0x02 "stepping" .u8 .ro,
    obj 0x03 "serial" .u64 .ro,
    obj 0x04 "vendor" .str .const,
    obj 0x05 "product" .str .const,
    obj 0x06 "mac_base" (.octets 6) .ro,
    obj 0x07 "manufacturing_mode" .bool .ro]),
  (0x1001, [
    obj 0x01 "rom_version" .u32 .ro,
    obj 0x02 "fci_major" .u8 .ro .volatile 3,
    obj 0x03 "fci_minor_max" .u8 .ro,
    obj 0x04 "kdp_version" .u16 .ro .volatile 0x0100,
    obj 0x05 "dict_revision" .u16 .ro]),
  (0x1002, [
    obj 0x01 "unit_map" (.octets 32) .ro,
    obj 0x02 "narrow_slices" .u8 .ro,
    obj 0x03 "disabled_slices" .u8 .ro]),
  (0x1100, [
    obj 0x01 "device_state" .u8 .ro,
    obj 0x02 "reset_cause" .u64 .ro,
    obj 0x03 "reset_time" .time .ro,
    obj 0x04 "warm_resets" .u32 .ro,
    obj 0x05 "cold_resets" .u32 .ro,
    obj 0x06 "fw_load_failures" .u32 .ro,
    obj 0x07 "block_resets" .u32 .ro,
    obj 0x80 "reset_request" .u8 .wo,
    obj 0x81 "block_reset" .u8 .wo,
    obj 0x82 "wake_request" .bool .wo]),
  (0xA000, [
    obj 0x01 "fuse_block_0" (.octets 256) .ro,
    obj 0x02 "fuse_block_1" (.octets 256) .ro,
    obj 0x03 "fuse_block_2" (.octets 256) .ro,
    obj 0x04 "fuse_block_3" (.octets 256) .ro,
    obj 0x80 "fuse_copies" (.octets 3072) .ro]),
  (0xA001, [
    obj 0x01 "fuse_vote" (.octets 4) .ro]),
  (0xA002, [
    obj 0x01 "board_record" (.octets 256) .ro,
    obj 0x02 "board_record_state" .u8 .ro,
    obj 0x80 "board_record_write" (.octets 256) .wo])]

/-- Clocks, power, thermal (14, Table 14-13). -/
def powerObjects : List (Nat × List Obj) := [
  (0x2000, [
    obj 0x01 "package_power" .u32 .ro,
    obj 0x02 "power_cap" .u32 .rw .retained 3000,
    obj 0x03 "die_power" (.octets 40) .ro]),
  (0x2001, [
    obj 0x01 "die_tmax" (.octets 20) .ro,
    obj 0x02 "memory_tmax" (.octets 32) .ro,
    obj 0x03 "sensor_faults" .u32 .ro,
    obj 0x80 "t_ctrl" .u8 .rw .retained 95]),
  (0x2002, [
    obj 0x01 "brake_events" .u32 .ro,
    obj 0x02 "thermal_throttles" .u32 .ro]),
  (0x2003, [
    obj 0x01 "clock_domains" (.octets 6) .ro,
    obj 0x02 "power_domains" .u32 .ro,
    obj 0x03 "gated_refusals" .u64 .ro,
    obj 0x04 "closed_refusals" .u64 .ro,
    obj 0x05 "close_timeouts" .u32 .ro,
    obj 0x80 "gate_delay" .u32 .rw .retained 100,
    obj 0x81 "close_timeout" .u32 .rw .retained 10000]),
  (0x2004, [
    obj 0x01 "avs_mv" (.octets 20) .ro,
    obj 0x02 "avs_timeouts" .u32 .ro,
    obj 0x03 "ledger_misses" .u32 .ro]),
  (0x2005, [
    obj 0x80 "doze_request" .bool .wo,
    obj 0x81 "doze_timer" .u32 .rw .volatile]),
  (0x2400, [
    obj 0x01 "cclk_divider" .u8 .ro .volatile 8,
    obj 0x02 "divider_requests" .u16 .ro,
    obj 0x03 "clock_source" .u8 .ro,
    obj 0x04 "divider_changes" .u32 .ro])]

/-- Memory tiers (08, Table 8-9). -/
def memoryObjects : List (Nat × List Obj) := [
  (0x3000, [
    obj 0x80 "ft_band_mode" .u64 .rw .board]),
  (0x3001, [
    obj 0x01 "refresh_multiplier" (.octets 16) .ro]),
  (0x3002, [
    obj 0x01 "slab_corrected" .u64 .ro,
    obj 0x02 "slab_uncorrected" .u64 .ro,
    obj 0x03 "near_corrected" .u64 .ro,
    obj 0x04 "near_uncorrected" .u64 .ro,
    obj 0x05 "far_corrected" .u64 .ro,
    obj 0x06 "far_uncorrected" .u64 .ro]),
  (0x3003, [
    obj 0x01 "poison_halts" .u32 .ro]),
  (0x3004, [
    obj 0x80 "scrub_period_far" .u32 .rw .retained 86400,
    obj 0x81 "scrub_period_near" .u32 .rw .retained 86400,
    obj 0x82 "scrub_period_slab" .u32 .rw .retained 3600])]

/-- Fabric ports and spine (11, Table 11-11): 0x4000 stands for every table port, 0x4040 for every spine port. -/
def portObjects : List (Nat × List Obj) := [
  (0x4000, [
    obj 0x01 "tp_state" .u8 .ro,
    obj 0x02 "tp_peer" (.octets 12) .ro,
    obj 0x03 "tp_revision" .u16 .ro,
    obj 0x04 "fec_corrected" .u64 .ro,
    obj 0x05 "fec_uncorrectable" .u64 .ro,
    obj 0x06 "resends" .u64 .ro,
    obj 0x07 "ack_timeouts" .u32 .ro,
    obj 0x08 "auth_failures" .u32 .ro,
    obj 0x09 "duplicates" .u64 .ro,
    obj 0x0A "port_failures" .u32 .ro,
    obj 0x80 "tp_enable" .bool .rw .retained 1,
    obj 0x81 "tp_medium" .u8 .rw .board]),
  (0x4040, [
    obj 0x01 "sp_state" .u8 .ro,
    obj 0x02 "sp_mac" (.octets 6) .ro,
    obj 0x03 "frames_sent" .u64 .ro,
    obj 0x04 "frames_received" .u64 .ro,
    obj 0x05 "retransmits" .u64 .ro,
    obj 0x06 "ce_marked" .u64 .ro,
    obj 0x07 "discards" .u64 .ro,
    obj 0x80 "sp_enable" .bool .rw .retained 1,
    obj 0x81 "sp_address" (.octets 16) .rw .retained,
    obj 0x82 "sp_gateway" (.octets 16) .rw .retained,
    obj 0x83 "sp_medium" .u8 .rw .board]),
  (0x4080, [
    obj 0x01 "connections" .u16 .ro,
    obj 0x80 "udp_port" .u16 .rw .retained 7612,
    obj 0x81 "dscp_trump" .u8 .rw .retained 46,
    obj 0x82 "dscp_bulk" .u8 .rw .retained 10,
    obj 0x83 "rto_initial" .u32 .rw .retained 40])]

/-- Table, groups, timebase (12, Table 12-11; 13, Table 13-4). -/
def tableObjects : List (Nat × List Obj) := [
  (0x4090, [
    obj 0x80 "spine_directory" (.domain 2506752) .rw .retained]),
  (0x4100, [
    obj 0x01 "table_id" .u16 .ro,
    obj 0x02 "position" .u8 .ro,
    obj 0x03 "dealer" .u8 .ro .volatile 0xFF,
    obj 0x04 "roster_epoch" .u32 .ro,
    obj 0x05 "roster" (.octets 288) .ro,
    obj 0x06 "passes" .u32 .ro,
    obj 0x07 "unplaced_slots" .u16 .ro,
    obj 0x08 "miscabled" .u32 .ro,
    obj 0x09 "late_list" (.octets 288) .ro,
    obj 0x80 "report_timeout" .u32 .rw .retained 5000,
    obj 0x81 "kitty_auto" .bool .rw .retained 1,
    obj 0x82 "promote_slot" .u8 .wo]),
  (0x4400, [
    obj 0x01 "groups" .u16 .ro,
    obj 0x02 "mismatches" .u32 .ro,
    obj 0x03 "integrity_events" .u32 .ro,
    obj 0x04 "peer_resets" .u32 .ro,
    obj 0x05 "poison_completions" .u32 .ro,
    obj 0x06 "stale_data" .u64 .ro,
    obj 0x07 "late_dropped" .u32 .ro,
    obj 0x80 "drr_quantum" .u32 .rw .retained 16384,
    obj 0x81 "late_threshold" .u32 .rw .retained 50]),
  (0x4800, [
    obj 0x01 "time_state" .u8 .ro,
    obj 0x02 "time_epoch" .u32 .ro,
    obj 0x03 "now" .time .ro,
    obj 0x04 "offset" .i64 .ro,
    obj 0x05 "freq_ppb" .i32 .ro,
    obj 0x06 "slew_remaining" .i64 .ro,
    obj 0x07 "source" .u8 .ro,
    obj 0x08 "grandmaster" (.octets 8) .ro,
    obj 0x09 "steps" .u32 .ro,
    obj 0x0A "steps_refused" .u32 .ro,
    obj 0x0B "invalid_exchanges" .u64 .ro,
    obj 0x80 "force_step" .bool .rw .volatile,
    obj 0x81 "ptp_enable" .bool .rw .retained 1,
    obj 0x82 "ptp_domain" .u8 .rw .retained,
    obj 0x83 "ptp_transport" .u8 .rw .retained,
    obj 0x84 "sync_interval" .u32 .rw .retained 1000])]

/-- Management port and seats (17, Tables 17-13 and 17-14): 0x5000 stands for every seat. -/
def managementObjects : List (Nat × List Obj) := [
  (0x4300, [
    obj 0x01 "mgmt_link" .u8 .ro,
    obj 0x02 "mgmt_mac" (.octets 6) .ro,
    obj 0x03 "link_local" (.octets 16) .ro,
    obj 0x04 "kdp_refused" .u32 .ro,
    obj 0x80 "ipv6_address" (.octets 16) .rw .retained,
    obj 0x81 "ipv6_prefix" .u8 .rw .retained 64,
    obj 0x82 "ipv6_gateway" (.octets 16) .rw .retained,
    obj 0x83 "ipv4_address" .u32 .rw .retained,
    obj 0x84 "ipv4_prefix" .u8 .rw .retained 24,
    obj 0x85 "ipv4_gateway" .u32 .rw .retained,
    obj 0x86 "kdp_enable" .bool .rw .retained 1]),
  (0x5000, [
    obj 0x01 "state" .u8 .ro,
    obj 0x02 "tenant_id" .u16 .ro,
    obj 0x03 "owner_function" .u8 .ro,
    obj 0x04 "incarnation" .u32 .ro,
    obj 0x05 "halt_cause" .u8 .ro,
    obj 0x06 "reset_count" .u16 .ro,
    obj 0x07 "plays" .u32 .ro,
    obj 0x08 "play_cycles" .u64 .ro,
    obj 0x09 "heartbeat" .u64 .ro,
    obj 0x0A "last_epoch" .u64 .ro,
    obj 0x0B "conversion_counters" (.octets 384) .ro,
    obj 0x80 "entry" (.octets 512) .ro])]

/-- Errors, recovery, synchronisation, links, array checks, maintenance (17, Table 17-15; 09, Table 9-8; 10, Table 10-6). -/
def errorObjects : List (Nat × List Obj) := [
  (0x6000, [
    obj 0x01 "errors_reported" .u64 .ro,
    obj 0x02 "last_error" (.octets 64) .ro,
    obj 0x03 "log_records" .u16 .ro]),
  (0x6001, [
    obj 0x01 "error_log" (.domain 16384) .ro,
    obj 0x80 "log_clear" .bool .wo]),
  (0x6010, [
    obj 0x01 "device_recoveries" .u32 .ro,
    obj 0x02 "recovery_reason" .u8 .ro,
    obj 0x03 "fold_reason" .u8 .ro,
    obj 0x04 "seat_resets" .u32 .ro,
    obj 0x80 "fold_request" .bool .wo]),
  (0x6100, [
    obj 0x01 "wait_timeouts" .u32 .ro,
    obj 0x02 "tenant_blocked" .u32 .ro,
    obj 0x03 "receiver_reset_drops" .u32 .ro,
    obj 0x04 "locks_broken" .u32 .ro,
    obj 0x05 "tally_overflows" .u32 .ro,
    obj 0x80 "wait_limit" .u32 .rw .retained 30000000]),
  (0x6200, [
    obj 0x01 "wdl_crc_failures" .u64 .ro,
    obj 0x02 "wdl_resends" .u64 .ro,
    obj 0x03 "wdl_losses" .u32 .ro,
    obj 0x04 "wdl_repairs" .u32 .ro,
    obj 0x05 "ips_crc_failures" .u64 .ro,
    obj 0x06 "ips_resends" .u64 .ro,
    obj 0x07 "ips_losses" .u32 .ro,
    obj 0x08 "ips_repairs" .u32 .ro,
    obj 0x80 "repair_threshold" .u16 .rw .retained 16]),
  (0x6201, [
    obj 0x01 "wdl_spares" (.octets 1806) .ro,
    obj 0x02 "ips_spares" (.octets 16) .ro,
    obj 0x03 "bad_spares" .u32 .ro]),
  (0x6300, [
    obj 0x01 "array_checks" (.octets 192) .ro,
    obj 0x02 "soft_jokers" .u32 .ro]),
  (0x6400, [
    obj 0x01 "activities" .u16 .ro,
    obj 0x02 "conflicts" .u32 .ro,
    obj 0x80 "activity_request" (.octets 16) .wo]),
  (0x6401, [
    obj 0x01 "journal" (.octets 64) .ro])]

/-- Security and sessions (17, Table 17-16; 19, Table 19-11). -/
def securityObjects : List (Nat × List Obj) := [
  (0x7000, [
    obj 0x01 "security_state" .u8 .ro,
    obj 0x02 "rollback_floor" .u32 .ro,
    obj 0x03 "device_cert_digest" (.octets 48) .ro,
    obj 0x04 "key_rotations" .u32 .ro,
    obj 0x80 "expert_anchor" (.octets 97) .rw .retained,
    obj 0x81 "basic_anchor" (.octets 97) .rw .retained,
    obj 0x82 "key_period" .u32 .rw .retained 86400,
    obj 0x05 "debug_nonce" (.octets 32) .ro,
    obj 0x06 "fabric_secret_id" (.octets 8) .ro,
    obj 0x07 "fused_svn" .u8 .ro,
    obj 0x08 "bound_slots" (.octets 32) .ro,
    obj 0x83 "fabric_secret" (.octets 32) .wo,
    obj 0x84 "key_slot_clear" .u8 .wo,
    obj 0x85 "floor_raise" .u8 .wo,
    obj 0x86 "debug_token" (.domain 8192) .wo,
    obj 0x87 "seat_breakpoint" (.octets 16) .wo]),
  (0x7001, [
    obj 0x01 "sessions_open" .u8 .ro,
    obj 0x02 "session_table" (.octets 256) .ro,
    obj 0x03 "handshakes_refused" .u32 .ro,
    obj 0x80 "session_close" .u32 .wo])]

/-- Firmware and telemetry (16, Table 16-9; 17, Table 17-16). -/
def firmwareObjects : List (Nat × List Obj) := [
  (0x8000, [
    obj 0x01 "fw_version" .u32 .ro,
    obj 0x02 "wire_revision" .u16 .ro,
    obj 0x03 "mbx_format" .u16 .ro .volatile 0x0102,
    obj 0x04 "pkg_incarnation" .u32 .ro,
    obj 0x05 "image_digest" (.octets 48) .ro]),
  (0x8001, [
    obj 0x01 "component_restarts" (.octets 28) .ro,
    obj 0x02 "retained_resets" .u32 .ro,
    obj 0x03 "watchdog_expiries" (.octets 20) .ro,
    obj 0x80 "watchdog_period" .u32 .rw .retained 100000,
    obj 0x81 "restart_limit" .u8 .rw .retained 3]),
  (0x8002, [
    obj 0x01 "update_state" .u8 .ro,
    obj 0x02 "staged_version" .u32 .ro,
    obj 0x03 "updates" .u32 .ro]),
  (0x8003, [
    obj 0x01 "core_busy" (.octets 10) .ro,
    obj 0x02 "queue_depth" .u16 .ro,
    obj 0x03 "busy_replies" .u64 .ro,
    obj 0x04 "samples_dropped" .u64 .ro,
    obj 0x05 "replies_dropped" .u64 .ro,
    obj 0x06 "messages_discarded" .u64 .ro]),
  (0x9000, [
    obj 0x01 "telemetry_frame" (.octets 128) .ro,
    obj 0x02 "samples_taken" .u64 .ro,
    obj 0x80 "sample_period" .u32 .rw .retained 100000]),
  (0x9001, [
    obj 0x01 "telemetry_history" (.domain 131072) .ro])]

/-- The index map (17, Table 17-12), one index for each kind of port and seat. -/
def catalogue : List (Nat × List Obj) :=
  identityObjects ++ powerObjects ++ memoryObjects ++ portObjects ++ tableObjects ++ managementObjects ++ errorObjects ++ securityObjects
    ++ firmwareObjects

/-- The index that stands for an index in the catalogue (17, Table 17-12). -/
def kindIndex (index : Nat) : Nat :=
  if 0x4000 ≤ index && index ≤ 0x4021 then 0x4000
  else if 0x4040 ≤ index && index ≤ 0x4047 then 0x4040
  else if 0x5000 ≤ index && index ≤ 0x5FFF then 0x5000
  else index

/-- Objects of an index; none where the map has no such index (17, R510). -/
def objectsOf (index : Nat) : List Obj :=
  match catalogue.find? (·.1 == kindIndex index) with
  | some e => e.2
  | none => []

/-- Sub-index 0x00 of every index (17, R487). -/
def countObject : Obj := obj 0 "" .u8 .ro

end Sys2Proof.Machine
end

