-- ==== Sys2Proof/Machine/MemFam.lean ====
section
/-! DEFINITION. Refresh, scrubbing, corrected write-backs and band modes (08, sections 8.5, 8.6, 8.8, 8.12). -/

namespace Sys2Proof.Machine

/-- Number of a memory: slabs 0 to 7, near tiers 8 to 15, far-tier stacks 16 to 23. -/
def memNum : MemUnit → Nat
  | .slab c => c.val | .near c => 8 + c.val | .far f => 16 + f.val
/-- 0 slab, 1 near, 2 far. -/
def memKind : MemUnit → Nat | .slab _ => 0 | .near _ => 1 | .far _ => 2
/-- 64-byte sectors of a memory. -/
def memSectors : MemUnit → Nat
  | .slab _ => slabSize / 64 | .near _ => 0x200000000 / 64 | .far _ => stackSize / 64

/-- Device address of a stack offset (08, R230, read backwards). -/
def farDev (mode : BitVec 48) (stack so : Nat) : Nat :=
  let b := so / 2 ^ 30
  if mode.getLsbD b then b * 2 ^ 33 + stack * 2 ^ 30 + so % 2 ^ 30
  else b * 2 ^ 33 + so % 2 ^ 30 / 4096 * 0x8000 + stack * 4096 + so % 4096

/-- Device address of a sector of a memory. -/
def sectorDev (mode : BitVec 48) : MemUnit → Nat → Nat
  | .slab c, n => slabAddr c.val (64 * n)
  | .near c, n => nearBase + c.val * 0x200000000 + 64 * n
  | .far f, n => farDev mode f.val (64 * n)

/-- CORRECTED_WRITEBACK: the corrected sector is written back in the next reserved slot (08, R240). -/
def execCorrectedWriteback (m : MemUnit) (sector : Nat) (s : State) : Res :=
  .next { s with memory := { s.memory with writeback := s.memory.writeback.erase (memNum m, sector) } }

/-- Number of a memory that refreshes: near tiers 0 to 7, stacks 8 to 15; a slab does not. -/
def refNum : MemUnit → Option Nat
  | .slab _ => none | .near c => some c.val | .far f => some (8 + f.val)

def State.multiplier (s : State) (k : Nat) : Nat := Tbl.get 1 s.memory.refMult k

/-- REFRESH: a refresh slot carries a refresh only while the sweep is behind its schedule (08, R234). -/
def execRefresh (m : MemUnit) (channel : Nat) (s : State) : Res :=
  .next (match refNum m with
    | none => s
    | some k =>
      if 32 ≤ channel then s
      else
        let r := Tbl.get {} s.memory.refresh (32 * k + channel)
        let period := 32000000 / s.multiplier k
        let t := s.ns - r.began.toNat
        let due := (1024 * t + period - 1) / period
        if r.carried < min due 1024 then
          let r := if r.carried + 1 = 1024 then { carried := 0, began := s.time.ns } else { r with carried := r.carried + 1 }
          { s with memory := { s.memory with refresh := Tbl.set {} s.memory.refresh (32 * k + channel) r } }
        else s)

/-- The multiplier for a temperature, with 3 °C of hysteresis downwards (08, R235, Table 8-5b). -/
def nextMultiplier (old : Nat) (temp : Int) : Nat :=
  let up := if 95 ≤ temp then 4 else if 85 ≤ temp then 2 else 1
  let down := if 92 ≤ temp then 4 else if 82 ≤ temp then 2 else 1
  if old ≤ up then up else min old down

/-- REFRESH_MULTIPLIER_CHANGE (08, R235). -/
def execRefreshMultiplierChange (m : MemUnit) (temp : Int) (s : State) : Res :=
  .next (match refNum m with
    | none => s
    | some k => { s with
        memory := { s.memory with refMult := Tbl.set 1 s.memory.refMult k (nextMultiplier (s.multiplier k) temp) }
        power := { s.power with memTmax := Tbl.set 0 s.power.memTmax k (16 * temp) } })

/-- A band holds a byte of the seat table, or of a window, context area or dummy area of a seat that is not FREE (08, R231). -/
def State.bandUsed (s : State) (b : Nat) : Bool :=
  let lo := b * 0x200000000
  let hit := fun (a len : Nat) => overlap lo 0x200000000 a len
  hit s.tableAt (512 * s.entries) || s.maint.hosted.any (fun (h : Hosted) => hit h.base h.length) || s.liveSeats.any fun x =>
    let e := x.2.entry
    e.windows.any (fun w => routeOf w.base == 0 && hit w.base w.size) || hit e.contextArea 4096

/-- Write of 0x3000.80, ft_band_mode (08, R231): nothing changes while a band whose mode would change is in use. -/
def State.writeBandMode (s : State) (v : Word) : State × Status :=
  let new : BitVec 48 := v.setWidth 48
  let changed := new ^^^ s.memory.bandMode
  if (List.range 48).any fun b => changed.getLsbD b && s.bandUsed b then (s, .conflict)
  else ({ s with memory := { s.memory with bandMode := new } }, .ok)

end Sys2Proof.Machine
end

