-- ==== Sys2Proof/Machine/Repair.lean ====
section
/-! DEFINITION. Maintenance: check events and scrubbing, journalled repair of far-tier rows, retraining, key rotation (08, R240, R242; 18,
sections 18.7 and 18.8; 19, R559). -/

namespace Sys2Proof.Machine

/-! ## Journalled repair (18, section 18.8) -/

/-- The journal record's 64 bytes, 0x6401.01 (18, Table 18-17). -/
def journalBytes (j : Journal) : List Byte :=
  if j.kind = 0 then zeros 64
  else if j.kind = 1 then
    let seats := (List.range 4).flatMap fun i => match j.seats[i]? with
      | some (n, t, inc) => leBytes 2 n ++ leBytes 2 t.toNat ++ leBytes 4 inc.toNat
      | none => leBytes 8 0xFFFFFFFFFFFFFFFF
    padTo 64 ([1, BitVec.ofNat 8 j.step, BitVec.ofNat 8 j.attempt, BitVec.ofNat 8 j.stack, BitVec.ofNat 8 j.channel, BitVec.ofNat 8 j.pseudo,
      BitVec.ofNat 8 j.bank, 0] ++ leBytes 4 j.row ++ leBytes 4 j.moved ++ leBytes 8 j.started.toNat ++ seats)
  else
    [2, BitVec.ofNat 8 j.step, 0, 0, 0, 0, 0, 0] ++ leBytes 4 (j.stage % 2 ^ 32) ++ leBytes 4 (j.stage / 2 ^ 32) ++ leBytes 48 j.digest

/-- Seats whose windows cover a byte of a row's sectors, at most 4 (18, Table 18-17). -/
def State.rowSeats (s : State) (stack place : Nat) : List (Nat × Half × Quad) :=
  let devs := (List.range 16).map fun i => farDev s.memory.bandMode stack (64 * Config.rowSector stack place i)
  let covers := fun (e : Entry) => e.windows.any fun w => devs.any fun a => windowMeets w a 64
  ((s.liveSeats.filter fun x => covers x.2.entry).map fun x => (x.1, x.2.entry.tenant, x.2.inc)).take 4

/-- A repair starts at EVACUATE, journalled (18, R543). -/
def State.startRepair (s : State) (stack channel pseudo bank row place : Nat) : State :=
  { s with maint := { s.maint with
      repairSt := .ok, lost := false
      journal := { kind := 1, step := 1, stack := stack, channel := channel, pseudo := pseudo, bank := bank, row := row, started := s.now
                   seats := s.rowSeats stack place } } }

/-- OHM-REL's own repairs start when no conflict stands (18, R541). -/
def State.startDue (s : State) : State :=
  match s.maint.rowsDue with
  | [] => s
  | (st, p) :: t =>
    if !s.mayStart 0 then s
    else State.startRepair { s with maint := { s.maint with rowsDue := t } } st (p % 32) (p / 32 % 2) (p / 64 % 256) (p / 16384 % 2 ^ 32) p

/-- A PPR request (18, Table 18-13): a location outside the stack's geometry fails with ST_BAD_ARG. -/
def State.ppr (s : State) (stack channel pseudo bank row : Nat) : State × Status × Nat :=
  if 8 ≤ stack || 32 ≤ channel || 2 ≤ pseudo then (s, .badArg, 0)
  else s.allowActivity 0 none fun s =>
    (s.startRepair stack channel pseudo bank row (channel + 32 * pseudo + 64 * bank + 16384 * row), .ok, 0)

/-- The place of a repair as reports 0x0202 and 0x0203 give it (18, Table 18-3). -/
def repairPlace (j : Journal) : Nat := j.stack + 0x100 * j.channel + 0x10000 * j.pseudo + 0x1000000 * j.bank

def State.setJournal (s : State) (j : Journal) : State := { s with maint := { s.maint with journal := j } }

/-- RESTORE has ended: DONE (18, Table 18-16). The last step reached is the one at which the repair turned back, or DONE. -/
def State.endRepair (s : State) : State :=
  let j := s.maint.journal
  let st := s.maint.repairSt
  let last := if st = .overflow then 1 else if st = .integrity then 3 else 5
  let s := s.report 2 0x0202 1 none [repairPlace j, j.row, last, j.attempt] (some st)
  let s := if s.maint.lost then s.report 4 0x0203 1 none [repairPlace j, j.row] (some .dataLost) 0xFF [journalBytes j] else s
  State.startDue { s with maint := { s.maint with journal := {}, lost := false, repairSt := .ok } }

/-- REPAIR_STEP_END (18, R543): the next step is journalled before it starts. -/
def execRepairStepEnd (good spareLeft : Bool) (s : State) : Res :=
  .next (
    let j := s.maint.journal
    if j.kind ≠ 1 || !(s.dev == .live || s.dev == .doze || s.dev == .folded) then s
    else match j.step with
      | 1 =>
        if spareLeft then s.setJournal { j with step := 2, attempt := 1, moved := 0xFFFF }
        else State.setJournal { s with maint := { s.maint with repairSt := .overflow } } { j with step := 4, moved := 0xFFFF }
      | 2 => s.setJournal { j with step := 3 }
      | 3 =>
        if good then s.setJournal { j with step := 4 }
        else if j.attempt < 3 then s.setJournal { j with step := 2, attempt := j.attempt + 1 }
        else State.setJournal { s with maint := { s.maint with repairSt := .integrity } } { j with step := 4 }
      | _ => (s.setJournal { j with moved := 0 }).endRepair)

def execPpr (ch : Channel) (stack channel pseudo bank : Nat) (row : Quad) (s : State) : Res :=
  .next (s.objAct ch 0x6400 0x80 fun s => s.ppr stack channel pseudo bank row.toNat)

/-! ## Check events and scrubbing (08, R240, R242) -/

/-- A row is to be repaired: unless it already waits or is under repair, it joins the rows due (18, section 18.8). -/
def State.rowDue (s : State) (stack place : Nat) : State :=
  if s.maint.rowsDue.contains (stack, place) then s
  else State.startDue { s with maint := { s.maint with rowsDue := s.maint.rowsDue ++ [(stack, place)] } }

/-- A far-tier sector has been corrected: the fourth of its row within 24 h makes the row due (18, section 18.8). -/
def State.noteCorrected (s : State) (stack sector : Nat) : State :=
  let old := s.maint.corrected.filter fun c => s.now.toNat < c.2.2.toNat + 86400000000000
    && !(c.1 == stack && c.2.1 == sector)
  let all := old ++ [(stack, sector, s.now)]
  let s := { s with maint := { s.maint with corrected := all } }
  let place := Config.rowPlace stack sector
  if 4 ≤ (all.filter fun c => c.1 == stack && Config.rowPlace stack c.2.1 == place).length then s.rowDue stack place else s

/-- What a check event in the far tier starts. -/
def State.farEvent (s : State) (m : MemUnit) (sector ecc : Nat) : State :=
  match m with
  | .far f => if ecc = 1 then s.noteCorrected f.val sector else s.rowDue f.val (Config.rowPlace f.val sector)
  | _ => s

/-- Granules of a memory's check code in a 64-byte sector: eight 8-byte words of a slab, one otherwise (08, Table 8-6). -/
def granules (m : MemUnit) : Nat := if memKind m = 0 then 8 else 1

/-- Check events at a sector (08, R239, R240). `errs` gives the wrong bits, or symbols, of each of its granules: one is corrected, and the sector is to
be written back; two are detected, and the sector is marked poison and reported. -/
def State.eccEvent (s : State) (m : MemUnit) (sector : Nat) (errs : List Nat) : State :=
  let key := 0x300200 + 1 + 2 * memKind m
  let errs := errs.take (granules m)
  let ones := (errs.filter (· == 1)).length
  let twos := (errs.filter (2 ≤ ·)).length
  let s := if ones = 0 then s else s.bump key 64 ones
  if ones + twos = 0 then s
  else if twos = 0 then
    let s := s.farEvent m sector 1
    { s with memory := { s.memory with writeback := s.memory.writeback ++ [(memNum m, sector)] } }
  else
    let s := s.bump (key + 1) 64 twos
    let dev := sectorDev s.memory.bandMode m sector
    let s := { s with memory := { s.memory with poison := Tbl.set false s.memory.poison (cellOf s.memory.bandMode dev / 64) true } }
    (s.report 4 0x0201 1 none [memKind m, dev] (some .poison)).farEvent m sector 2

/-- SCRUB_STEP: the scrubber reads the next sector and moves on; a period of 0 stops it, but for a pass that was requested; a far-tier
pass pauses during a repair (18, Table 18-15). An unwritten slab row raises no event
(08, R223, R242; 0x3004.80 to .82). `errs` are the wrong bits or symbols that it finds in each granule. -/
def execScrubStep (m : MemUnit) (errs : List Nat) (s : State) : Res :=
  .next (
    let s := s.startDue
    let period := s.obj (0x300480 + (2 - memKind m)) (if memKind m = 0 then 3600 else 86400)
    let n := memNum m
    if (period = 0 && !s.maint.scrubs.contains n) || (memKind m = 2 && s.maint.journal.kind = 1) then s
    else
      let pos := Tbl.get 0 s.memory.scrubPos n
      let dev := sectorDev s.memory.bandMode m pos
      let silent := isSlab dev && !(Tbl.get false s.memory.written (rowOf dev))
      let s := if silent then s else s.eccEvent m pos errs
      let next := (pos + 1) % memSectors m
      { s with
        memory := { s.memory with scrubPos := Tbl.set 0 s.memory.scrubPos n next }
        maint := { s.maint with scrubs := if next = 0 then s.maint.scrubs.filter (· ≠ n) else s.maint.scrubs } })

/-! ## Requests of scrub passes and of retraining (18, Table 18-13) -/

/-- A scrub pass of the memories of one kind starts now. -/
def State.scrubNow (s : State) (first : Nat) : State × Status × Nat :=
  let ms := (List.range 8).map (· + first)
  ({ s with
    maint := { s.maint with scrubs := s.maint.scrubs.filter (fun m => !ms.contains m) ++ ms }
    memory := { s.memory with scrubPos := ms.foldl (fun t m => Tbl.set 0 t m 0) s.memory.scrubPos } }, .ok, 0)

def State.scrubRequest (s : State) (a : Nat) : State × Status × Nat :=
  s.allowActivity a none fun s => s.scrubNow (if a = 8 then 16 else if a = 9 then 8 else 0)

def execScrubFar (ch : Channel) (s : State) : Res := .next (s.objAct ch 0x6400 0x80 fun s => s.scrubRequest 8)
def execScrubNear (ch : Channel) (s : State) : Res := .next (s.objAct ch 0x6400 0x80 fun s => s.scrubRequest 9)
def execScrubSlab (ch : Channel) (s : State) : Res := .next (s.objAct ch 0x6400 0x80 fun s => s.scrubRequest 10)

/-- RETRAIN of one port (18, Table 18-13): its packets go back to their senders, and it trains again. A port that is disabled or OFF
cannot train: ST_CONFLICT. -/
def State.retrain (s : State) (port : Nat) : State × Status × Nat :=
  if !isPort port then (s, .badArg, 0)
  else s.allowActivity 1 none fun s =>
    if !s.portEnabled port || !s.portPowered port || (s.port port).state = .off || (s.port port).state = .closing then (s, .conflict, 0)
    else
      let s := (s.handBack port).enterTraining port
      ({ s with maint := { s.maint with works := s.maint.works ++ [(1, port)] } }, .ok, 0)

def execRetrain (ch : Channel) (port : Nat) (s : State) : Res := .next (s.objAct ch 0x6400 0x80 fun s => s.retrain port)

/-! ## Key rotation (19, R557 to R559) -/

/-- A port or connection is due for a new generation: key_period seconds since the present one began, or 2⁴⁴ flits or frames under one set
(19, R559). -/
def State.keyDue (s : State) (began : Word) (carried : Nat) : Bool :=
  decide (began.toNat % 2 ^ 60 + s.obj 0x700082 86400 * 1000000000 ≤ s.now.toNat % 2 ^ 60) || decide (2 ^ 44 ≤ carried)

/-- REKEY_DUE: one due port, or connection (128 + its id), at a time (19, R559). -/
def execRekeyDue (port : Nat) (s : State) : Res :=
  .next (
    if s.maint.works.any (·.1 == 3) || !s.mayStart 3 then s
    else
      let work := fun (s : State) => { s with maint := { s.maint with works := s.maint.works ++ [(3, port)] } }
      if port < 34 then
        let p := s.port port
        if p.state = .active && p.key.isNone && 1 ≤ p.txGen && s.keyDue p.genBegan (p.txCtr + p.nullCtr) then
          (work s).startKey port (p.gen + 1)
        else s
      else if 128 ≤ port then
        match s.conn (port - 128) with
        | some c =>
          if c.phase = 1 && !c.switching && s.keyDue c.genBegan c.carried then ((work s).modConn (port - 128) fun c => { c with switching := true }).finishRekey (port - 128)
          else s
        | none => s
      else s)

end Sys2Proof.Machine
end

