-- ==== Sys2Proof/Machine/Firmware.lean ====
section
/-! DEFINITION. Ohmeg: watchdogs and component restarts, the mailbox requests OPEN and TALLY_ADD, live update, telemetry and core load
(16; 09, R273; 17, Table 17-16). -/

namespace Sys2Proof.Machine

/-- Counter `n` of an object that holds an array of counters: kept beside the objects under a key of its own. -/
def arrKey (key n : Nat) : Nat := 0x1000000 * (n + 1) + key

/-! ## Component restarts (16, R457 to R464) -/

/-- The cores' components that restart alone (16, Table 16-1). -/
def componentsOn (core : Nat) : List Nat := if core = 1 then [1] else if core = 2 then [2, 3] else if core = 3 then [4] else []

/-- A retained region that failed its CRC is zeroed: what this model keeps for the component starts over (16, R462 step 2). -/
def State.zeroRetained (s : State) (comp : Nat) : State :=
  match comp with
  | 1 => State.dropVolatile { s with kdp := { s.kdp with sessions := [], staging := [], assocs := [], secured := [] } }
  | 2 => { s with rel := { s.rel with halves := [] }, maint := { s.maint with suspects := [], recovered := [] } }
  | 3 => { s with power := { s.power with dies := [], wanted := none, hot := 0, cool := 0, faster := 0 } }
  | 4 => { s with table := { s.table with late := List.replicate 18 {}, records := [] } }
  | _ => s

/-- Restarts of a component within the last 600 s (16, R464). -/
def State.recentRestarts (s : State) (comp : Nat) : List (Nat × Word) :=
  s.mgmt.restarts.filter fun r => r.1 = comp && s.now.toNat < r.2.toNat + 600000000000

/-- A component restarts: counted and reported with its trigger, 1 watchdog, 2 fault, 3 own report; at the limit OHM-SUP requests a warm
reset instead (16, R462, R464; 18, report 0x0501). -/
def State.restartComponent (s : State) (comp trigger : Nat) (crcOk : Bool) : State :=
  if s.obj 0x800181 3 ≤ (s.recentRestarts comp).length then s.runReset 2 0x0B
  else
    let s := { s with mgmt := { s.mgmt with restarts := s.mgmt.restarts ++ [(comp, s.now)] } }
    let s := (s.bump (arrKey 0x800101 comp) 32).report 2 0x0501 7 none [comp, trigger]
    if crcOk then s else (s.zeroRetained comp).bump 0x800102 32

/-- The reset source of an expired watchdog (15, Table 15-2, cause 0x0A). -/
def State.watchdogReset (s : State) : State := s.runReset (if s.watchdogAction = 1 then 4 else 2) 0x0A

/-- OHM-SUP is at its own handover (16, R476) and begins no restart. -/
def State.supPaused (s : State) : Bool := s.maint.journal.kind == 2 && s.maint.journal.step == 16

/-- FW_WATCHDOG_EXPIRY (16, R461): cores 0 to 3 M-core_n, 4 the S-core, 5 to 13 the stewards. An expiry finds the retained regions good. -/
def execFwWatchdogExpiry (core : Fin 14) (s : State) : Res :=
  .next (
    let k := core.val
    if !s.mgmt.armed then s
    else if 5 ≤ k then s.restartComponent 6 1 true
    else
      let s := s.bump (arrKey 0x800103 k) 32
      if k = 0 || k = 4 then s.watchdogReset
      else if s.supPaused then { s with mgmt := { s.mgmt with late := s.mgmt.late ++ [k] } }
      else (componentsOn k).foldl (fun s c => s.restartComponent c 1 true) s)

/-- WATCHDOG_RESTART_TIMEOUT: OHM-SUP has not begun the restart within 10 ms (16, Table 16-3). -/
def execWatchdogRestartTimeout (core : Fin 5) (s : State) : Res :=
  .next (if s.mgmt.late.contains core.val then
      State.watchdogReset { s with mgmt := { s.mgmt with late := s.mgmt.late.filter (· ≠ core.val) } }
    else s)

/-- The period that watchdog `n` counts to, µs: a value outside 1,000 to 10,000,000 acts as the nearer limit (16, Table 16-2). Its end is
the row FW_WATCHDOG_EXPIRY, whose sender keeps the time (log 48). -/
def State.watchdogUs (s : State) (n : Nat) : Nat := min 10000000 (max 1000 (Tbl.get 100000 s.mgmt.period n))

/-- WATCHDOG_KICK: a write of PWR_FW_WDT_n; period_us keeps the value written (16, Table 16-2; 00, R2). -/
def execWatchdogKick (core : Fin 5) (v : Word) (s : State) : Res :=
  .next (
    { s with mgmt := { s.mgmt with
      period := Tbl.set 100000 s.mgmt.period core.val (v.toNat % 2 ^ 32)
      kicked := if v.getLsbD 32 then Tbl.set 0 s.mgmt.kicked core.val s.ns else s.mgmt.kicked } })

/-- COMPONENT_FAULT (16, R462 to R464): OHM-SUP and OHM-SEC never restart alone. -/
def execComponentFault (comp : Nat) (ownReport crcOk : Bool) (s : State) : Res :=
  .next (
    if !s.ohmegRuns || 6 < comp then s
    else if comp = 0 then s.watchdogReset
    else if comp = 5 then s.runReset 2 0x0B
    else s.restartComponent comp (if ownReport then 3 else 2) crcOk)

/-! ## OPEN and TALLY_ADD (16, Table 16-5, R471; 09, R273) -/

/-- OPEN: host_incarnation, then the reply to it (16, R471, R473). -/
def execOpen (f : Func) (seq : Half) (s : State) : Res :=
  .next (match s.openReq f.val seq 1 with
    | none => s
    | some r =>
      if r.sendInc = 0 then s.answer r .badArg
      else
        let s := s.modFn r.f fun p => { p with hostInc := r.sendInc }
        let s := State.newMailSession { s with fw := { s.fw with reqs := s.fw.reqs.filter (· ≠ r) } } (· == f.val)
        s.reply { r with hostInc := r.sendInc } .ok 0
          (leBytes 4 s.fw.pkgInc.toNat ++ leBytes 4 s.fw.version ++ [2, 0] ++ leBytes 2 s.fw.wire))

/-- What waits in ED_W's inbox for a package tally (09, R259). -/
def State.queuedAmount (s : State) (t : Nat) : Nat :=
  (Tbl.get [] s.sync.inbox 8).foldl (fun n a => if a.tally = t then n + a.amount else n) 0

/-- TALLY_ADD (09, R273): the checks in the order of its table; BAR2 writes are committed when they reach the host port. -/
def execTallyAdd (f : Func) (seq : Half) (s : State) : Res :=
  .next (match s.openReq f.val seq 4 with
    | none => s
    | some r =>
      let e := (s.seat r.seat).entry
      let idx := field r.payload 0 4
      let amount := field r.payload 4 4
      if r.f ≠ 0 && e.owner ≠ r.f then s.answer r .noAccess
      else if r.seat = 0xFFFF || (s.seat r.seat).state = .free then s.answer r .notFound
      else if (s.seat r.seat).state = .resetting then let (v, s) := s.free; s.answer r .busy (v.toNat % 2 ^ 32)
      else if e.pkgCount ≤ idx || amount = 0 then s.answer r .badArg
      else if 2 ^ 64 ≤ (Tbl.get 0 s.sync.pkgTally (e.pkgBase + idx)).toNat + s.queuedAmount (e.pkgBase + idx) + amount then
        (s.bump 0x610005 32).answer r .overflow
      else (s.queueAdd 8 { tally := e.pkgBase + idx, amount := amount, src := .host, seat := none }).answer r .ok)

/-! ## Live update (16, R475 to R478) -/

/-- The stage area meets the seat table, or a window, context area or dummy area of a seat that is not FREE, or a hosted dummy. -/
def State.stageTaken (s : State) (a : Nat) : Bool :=
  let t := { s with fw := { s.fw with stage := some a } }
  overlap s.tableAt (512 * s.entries) a 0x2000000 || s.liveSeats.any (fun x => t.stageClash x.2.entry)
    || s.maint.hosted.any fun (h : Hosted) => overlap h.base h.length a 0x2000000

/-- UPDATE_STAGE: the first four checks of R475, then the image's read begins. -/
def execUpdateStage (f : Func) (seq : Half) (s : State) : Res :=
  .next (match s.openReq f.val seq 0x10 with
    | none => s
    | some r =>
      let img := field r.payload 0 8
      let stage := field r.payload 8 8
      let len := field r.payload 16 4
      if s.mgmt.updReq.any (·.1 == seq) then s
      else if len % 4096 ≠ 0 || len < 4096 || 33554432 < len || img % 4096 ≠ 0 || stage % 4096 ≠ 0 then s.answer r .badArg
      else if !inFar stage 0x2000000 then s.answer r .badArg
      else if s.stageTaken stage || s.fw.stage.isSome || !s.mayStart 2 then s.answer r .conflict
      else
        (State.emit { s with mgmt := { s.mgmt with updReq := some (seq, r.hostInc), reading := some (img, stage, 0) } }
          (.hostRead 0 0x1001 img len)).setObj 0x800201 1)

/-- The wire revision lies within 1 of every WORKING and KITTY position's and every open connection's (16, R475). -/
def State.wireOk (s : State) (w : Nat) : Bool :=
  let close := fun (v : Nat) => decide (w ≤ v + 1) && decide (v ≤ w + 1)
  (s.table.roster.entries.all fun e => !seatedCode e.state || close e.revision)
    && s.fab.conns.all fun c => c.2.all fun k => k.phase ≠ 1 || close k.revision

/-- UPDATE_STAGED: the read has ended; the remaining checks; STAGED is journalled and the request answered (16, R475). -/
def execUpdateStaged (r : ReadEnd) (facts : ImageFacts) (s : State) : Res :=
  .next (match s.mgmt.updReq, s.mgmt.reading with
    | some (seq, _), some (_, stage, _) =>
      let st := match r with
        | .error => .timeout
        | .poisoned => .poison
        | .good => if s.judgeImage facts ≠ .ok then s.judgeImage facts
          else if !facts.handoverOk || !s.wireOk facts.wireRevision then .version else .ok
      let s := { s with mgmt := { s.mgmt with updReq := none, reading := none } }
      let s := if st ≠ .ok then s.setObj 0x800201 6
        else
          State.setObj (State.setObj { s with
            fw := { s.fw with stage := some stage }
            mgmt := { s.mgmt with staged := some facts }
            maint := { s.maint with journal := { kind := 2, step := 1, stage := stage, digest := facts.digest } } } 0x800201 2)
            0x800202 facts.version
      match s.openReq 0 seq 0x10 with
      | some q => s.answer q st
      | none => s
    | _, _ => s)

/-- UPDATE_COMMIT: COMMIT_BEGUN is journalled and the handovers start (16, R476, R477). -/
def execUpdateCommit (f : Func) (seq : Half) (s : State) : Res :=
  .next (match s.openReq f.val seq 0x11 with
    | none => s
    | some r =>
      if s.mgmt.updReq.any (·.1 == seq) then s
      else if s.maint.journal.kind ≠ 2 || s.maint.journal.step ≠ 1 then s.answer r .conflict
      else
        State.setObj { s with
          mgmt := { s.mgmt with updReq := some (seq, r.hostInc) }
          maint := { s.maint with journal := { s.maint.journal with step := 2 } } } 0x800201 3)

/-- NOTICE UPDATE to every enabled function: old and new version after the kind byte (16, R477). -/
def State.tellUpdate (s : State) (old : Nat) : State :=
  s.enabledFns.foldl (fun s f => s.notice f 3 .ok (leBytes 4 old ++ leBytes 4 s.fw.version)) s

/-- OHM-SUP's own handover has ended (16, R477): the new image runs; DONE; the reply; NOTICE UPDATE. Restarts that waited for OHM-SUP
begin. Ports that were REFUSED try the new wire revision (11, R330). -/
def State.finishUpdate (s : State) (facts : ImageFacts) : State :=
  let old := s.fw.version
  let wire := s.fw.wire
  let req := s.mgmt.updReq
  let s := s.runImage facts
  let late := s.mgmt.late
  let s := { s with
    fw := { s.fw with stage := none }
    mgmt := { s.mgmt with updReq := none, staged := none, late := [] }
    maint := { s.maint with journal := { s.maint.journal with step := 31 } } }
  let s := (s.setObj 0x800201 4).bump 0x800203 32
  let s := match req.bind fun q => s.openReq 0 q.1 0x11 with
    | some q => s.answer q .ok 0 (leBytes 4 s.fw.version)
    | none => s
  let s := s.tellUpdate old
  let s := if wire = s.fw.wire then s
    else tablePorts.foldl (fun s n => if (s.port n).state = .refused then s.enterHello n else s) s
  late.foldl (fun s k => (componentsOn k).foldl (fun s c => s.restartComponent c 1 true) s) s

/-- COMPONENT_HANDOVER: the next of the 15 handovers is journalled and its new code started (16, R476; 18, Table 18-17). -/
def execComponentHandover (s : State) : Res :=
  .next (
    let j := s.maint.journal
    match s.mgmt.staged with
    | none => s
    | some facts =>
      if j.kind ≠ 2 || j.step < 2 || 16 < j.step then s
      else
        let s := { s with maint := { s.maint with journal := { j with step := j.step + 1 } } }
        if j.step = 16 then s.finishUpdate facts else s)

/-- UPDATE_CANCEL: the staged image is discarded (16, R475). -/
def execUpdateCancel (f : Func) (seq : Half) (s : State) : Res :=
  .next (match s.openReq f.val seq 0x12 with
    | none => s
    | some r =>
      if s.maint.journal.kind ≠ 2 || s.maint.journal.step ≠ 1 then s.answer r .conflict
      else
        (State.setObj { s with
          fw := { s.fw with stage := none }, mgmt := { s.mgmt with staged := none }
          maint := { s.maint with journal := {} } } 0x800201 5).answer r .ok)

/-! ## Telemetry and core load (16, R482, R483; 17, Table 17-16) -/

/-- An I16 in its two bytes. -/
def i16Bytes (v : Int) : List Byte := leBytes 2 (v % 65536).toNat

/-- Entries in use of the shared queue, 0x8003.02 (16, R481). -/
def State.queueDepth (s : State) : Nat := s.fw.reqs.length
/-- die_power, die_tmax, memory_tmax, core_busy (14, Table 14-13; 16, Table 16-9). -/
def State.diePower (s : State) : List Byte := (List.range 10).flatMap fun i => leBytes 4 (s.power.die i).power
def State.dieTmax (s : State) : List Byte := (List.range 10).flatMap fun i => i16Bytes (s.power.die i).tmax
def State.memTmax (s : State) : List Byte := (List.range 16).flatMap fun i => i16Bytes (Tbl.get 0 s.power.memTmax i)
def State.coreBusy (s : State) : List Byte := (List.range 5).flatMap fun i => leBytes 2 (s.mgmt.busy.getD i 0)

/-- The telemetry frame of the present moment. -/
def State.frame (s : State) : List Byte :=
  padTo 128 (leBytes 8 s.now.toNat ++ leBytes 4 (s.obj 0x200001 0) ++ s.diePower ++ s.dieTmax ++ s.memTmax
    ++ [BitVec.ofNat 8 s.clk.div, 0] ++ leBytes 2 s.queueDepth ++ s.coreBusy)

/-- TELEMETRY_SAMPLE: a frame, or a dropped sample (16, R482). -/
def execTelemetrySample (inTime : Bool) (s : State) : Res :=
  .next (
    if !s.ohmegRuns then s
    else if !inTime then s.bump 0x800304 64
    else
      let fs := s.mgmt.frames ++ [s.frame]
      { s with mgmt := { s.mgmt with frames := fs.drop (fs.length - 1024) } }.bump 0x900002 64)

/-- CORE_BUSY_WINDOW: busy times of the last 100 ms in 1/100 % (16, R483). -/
def execCoreBusyWindow (busy : List Nat) (s : State) : Res :=
  .next (if s.ohmegRuns then { s with mgmt := { s.mgmt with busy := busy.take 5 } } else s)

/-- MGMT_LINK_CHANGE (17, R504, Table 17-13). -/
def execMgmtLinkChange (state : Fin 3) (s : State) : Res := .next { s with mgmt := { s.mgmt with link := state.val } }

end Sys2Proof.Machine
end

