-- ==== Sys2Proof/Machine/Security.lean ====
section
/-! DEFINITION. Security: the fabric secret, key slots, the field row, debug tokens and breakpoints, SPDM (19). -/

namespace Sys2Proof.Machine

/-! ## Fabric secret and key slots (19, R552, R555) -/

/-- fabric_secret, 0x7000.83: the 32 bytes become the FS in effect (19, R555). -/
def State.installSecret (s : State) (v : Nat) : State × Status × Nat :=
  ({ s with sec := { s.sec with fs := some (v % 2 ^ 256), fsGen := s.sec.fsGen + 1 } }, .ok, 0)

def execFabricSecret (ch : Channel) (v : Nat) (s : State) : Res := .next (s.objAct ch 0x7000 0x83 fun s => s.installSecret v)

/-- key_slot_clear, 0x7000.84: a new key for an unbound slot (19, R552). -/
def State.clearSlot (s : State) (k : Nat) : State × Status × Nat :=
  if k = 0 || (Tbl.get none s.keyBind k).isSome then (s, .conflict, 0) else (s.renewSlot k, .ok, 0)

def execKeySlotClear (ch : Channel) (slot : Byte) (s : State) : Res := .next (s.objAct ch 0x7000 0x84 fun s => s.clearSlot slot.toNat)

/-! ## The field row (19, R547, R549) -/

/-- FB3 as voted (19, Table 19-1). -/
def State.fb3 (s : State) : List Byte := Tbl.get [] s.boot.voted 3

/-- Root `g` is in use and revoked nowhere, with `more` revoked besides (19, Tables 19-1 and 19-2). -/
def State.rootUsable (s : State) (more : BitVec 4) (g : Nat) : Bool :=
  field s.fb3 (48 * g) 48 ≠ 0 && !bit (field s.fb3 0xC0 1) g && !(s.sec.revoked ||| more).getLsbD g

/-- The fuses that a floor raise blows: bits svn to v − 1, and the root bits that the manifest's revoke field names (19, R549). -/
def floorBits (svn v : Nat) (revoke : BitVec 4) : BitVec 256 :=
  BitVec.ofNat 256 (2 ^ min v 128 - 2 ^ svn + 2 ^ 128 * revoke.toNat)

/-- floor_raise, 0x7000.85 (19, R549). -/
def State.raiseFloor (s : State) (v : Nat) : State × Status × Nat :=
  let img := s.fw.image.getD {}
  if v < s.sec.svn || img.svn < v then (s, .badArg, 0)
  else if s.active 2 then (s, .conflict, 0)
  else if img.revoke ≠ 0 && !(List.range 4).any (s.rootUsable img.revoke) then (s, .conflict, 0)
  else ({ s with sec := s.sec.blow (floorBits s.sec.svn v img.revoke) }, .ok, 0)

def execFloorRaise (ch : Channel) (v : Byte) (s : State) : Res := .next (s.objAct ch 0x7000 0x85 fun s => s.raiseFloor v.toNat)

/-! ## Debug authorisation (19, R562 to R564) -/

/-- debug_nonce, 0x7000.05, 32 bytes: four free values (19, R563; log 3). -/
def State.debugNonce (s : State) : List Byte := (List.range 4).flatMap fun i => leBytes 8 (Config.freeValue (s.sec.nonce + i)).toNat

/-- A fresh debug_nonce. -/
def State.drawNonce (s : State) : State := { s with sec := { s.sec with nonce := s.freeCtr }, freeCtr := s.freeCtr + 4 }

/-- The checks of a debug token (19, R563). -/
def State.judgeToken (s : State) (m : DebugTokenMsg) : Status :=
  let off := field s.fb3 0xC1 1
  let quiet := s.liveSeats.isEmpty && s.groups.isEmpty
  if (m.level = 1 && bit off 1) || (m.level = 2 && bit off 0) || stampLater s.now.toNat m.notAfter.toNat then .noAccess
  else if !m.magicOk || (m.level ≠ 1 && m.level ≠ 2) || m.serial.toNat ≠ field s.fb0 0 8 || m.nonce ≠ leNat s.debugNonce then .integrity
  else if m.level = 1 then (if m.ecdsaOk then .ok else .integrity)
  else if m.ecdsaOk && m.mldsaOk && m.rootIndex.any (fun g => decide (g < 4) && s.rootUsable 0 g) && quiet then .ok
  else .integrity

/-- debug_token, 0x7000.86: a PACKAGE grant first renews every key and clears the FS; debug_nonce is drawn anew (19, R563). -/
def State.takeToken (s : State) (m : DebugTokenMsg) : State × Status × Nat :=
  let st := s.judgeToken m
  let s :=
    if st ≠ .ok then s
    else if m.level = 1 then { s with sec := { s.sec with level := max 1 s.sec.level, tenant := m.tenant } }
    else
      let s := (List.range 256).foldl (fun s k => s.renewSlot k) s
      { s with sec := { s.sec with level := 2, fs := none } }
  (s.drawNonce, st, 0)

def execDebugToken (ch : Channel) (m : DebugTokenMsg) (s : State) : Res := .next (s.objAct ch 0x7000 0x86 fun s => s.takeToken m)

/-- The bytes of a token, as Table 19-10 lays them out, with what its signature checks find (19, R563; log 43). -/
def State.tokenOf (s : State) (b : List Byte) : DebugTokenMsg :=
  let b := padTo 8192 b
  let part := fun (off n : Nat) => (b.drop off).take n
  let signed := part 0 0x80
  let level := field b 4 1
  let pubs := part 0x80 97 ++ part 0xE8 2592
  let anchor := padTo 97 (Tbl.get [] s.kdp.octets 0x700080)
  { level := level, tenant := BitVec.ofNat 16 (field b 6 2), serial := BitVec.ofNat 64 (field b 8 8)
    notAfter := BitVec.ofNat 64 (field b 0x10 8), nonce := field b 0x18 32, magicOk := field b 0 4 == 0x4742444B
    ecdsaOk := Config.verifies (if level = 1 then anchor else part 0x80 97) signed (part 0xB08 96)
    mldsaOk := Config.verifies (part 0xE8 2592) signed (part 0xB68 4627)
    rootIndex := (List.range 4).find? fun g => field s.fb3 (48 * g) 48 == sha384 pubs }

/-- seat_breakpoint, 0x7000.87 (19, R564). -/
def State.setBreak (s : State) (seat entry mask : Nat) (pc : Quad) (enable : Bool) : State × Status × Nat :=
  if s.sec.level = 0 || (s.seat seat).state = .free || (s.seat seat).entry.tenant ≠ s.sec.tenant then (s, .noAccess, 0)
  else if 4 ≤ entry then (s, .badArg, 0)
  else
    let b : Option Break := if enable then some { seat := seat, mask := mask, pc := pc } else none
    ({ s with sec := { s.sec with breaks := Tbl.set none s.sec.breaks entry b } }, .ok, 0)

def execSeatBreakpoint (ch : Channel) (seat : Nat) (entry : Fin 4) (mask : Byte) (pc : Quad) (enable : Bool) (s : State) : Res :=
  .next (s.objAct ch 0x7000 0x87 fun s => s.setBreak seat entry.val mask.toNat pc enable)

/-- BREAKPOINT_HIT: a sequencer at a breakpoint's pc halts the seat before the instruction issues (19, R564; 02, R46). -/
def execBreakpointHit (cd : Cd) (s : State) : Res :=
  .next (if s.issuing cd.val && s.breakAt cd.val then s.haltPlay 0x02 else s)

/-! ## The device identity (19, R546) -/

/-- The device identity key, private and public part: the key unit's derivation over the unique device secret. FIPS 186-5 takes 56 bytes
of random input for P-384 (log 164). -/
def State.identityKey (s : State) : List Byte × List Byte := Config.keyPair (hkdf384 s.sec.uds [] (ascii "KLV8 DeviceID") 56)
/-- The certificate that DTLS handshakes and SPDM present: the 4 KiB one-time area. -/
def State.certificate (s : State) : List Byte := padTo 4096 s.sec.cert
/-- An answer signed with the device identity key. -/
def State.signedBy (s : State) (m : List Byte) : List Byte := m ++ padTo 96 (Config.signature s.identityKey.1 m)

/-! ## Attestation (19, R560, R561) -/

/-- security_state, 0x7000.01 (19, R565). -/
def State.securityState (s : State) : Nat := s.sec.level + 4 * b2n s.sec.fs.isSome + 8 * b2n s.manufacturing

/-- The board record in use, its reserved bits read as 0 (00, R5), or the defaults; what the table gives no default for is the model's identity 5 (15, Table 15-9a; log 42). -/
def State.boardRecord (s : State) : List Byte :=
  if !s.boot.record.isEmpty then clearRecord 0 (padTo 256 s.boot.record)
  else
    let v := Config.identity 5
    leBytes 5 v ++ [0] ++ leBytes 2 (v / 2 ^ 40) ++ [0xFF, 0xFF, 0xFF, 0, 0, 0, 0x0F, 0] ++ zeros 236 ++ leBytes 4 (v / 2 ^ 56)

/-- Eight words of Table 5-3 (0x1002.01). -/
def State.unitMapBytes (s : State) : List Byte := cds.flatMap fun c => leBytes 4 (Tbl.get 0 s.unitMap c)

/-- The voted field row, 32 bytes (19, Table 19-2). -/
def State.fieldRow (s : State) : List Byte := leBytes 32 s.sec.row.toNat

/-- Contents of a measurement block (19, Table 19-9). -/
def State.measurement (s : State) (k : Nat) : List Byte :=
  match k with
  | 1 => leBytes 48 (Config.identity 0)
  | 2 => leBytes 48 (sha384 (((List.range 4).flatMap fun b => padTo 256 (Tbl.get [] s.boot.voted b)) ++ s.fieldRow))
  | 3 => leBytes 48 ((s.fw.image.map (·.digest)).getD 0)
  | 4 => leBytes 4 s.fw.version ++ [BitVec.ofNat 8 ((s.fw.image.map (·.svn)).getD 0), BitVec.ofNat 8 s.sec.svn] ++ leBytes 2 s.fw.wire
  | 5 => leBytes 48 (sha384 s.boardRecord)
  | 6 => leBytes 1 s.securityState
  | 7 => s.unitMapBytes
  | _ => []

/-- SPDM answers Busy: during a commit, and outside LIVE, DOZE and FOLDED (19, R561). -/
def State.spdmBusy (s : State) : Bool :=
  (s.maint.journal.kind == 2 && decide (2 ≤ s.maint.journal.step) && decide (s.maint.journal.step < 31))
    || !(s.dev == .live || s.dev == .doze || s.dev == .folded)

/-- GET_MEASUREMENTS: index 0 asks for the number of blocks, 0xFF for all; the blocks are signed with the device identity key. Block bytes and answers as DSP0274 lays them out: index,
specification 1, size, value type with bit 7 for a raw value, value size, value (19, R560, R561; log 44). -/
def State.block (s : State) (k : Nat) : List Byte :=
  let v := s.measurement k
  let ty := if k = 4 || k = 6 || k = 7 then 0x80 else 0x00
  leBytes 1 k ++ [1] ++ leBytes 2 (v.length + 3) ++ [ty] ++ leBytes 2 v.length ++ v

/-- An SPDM answer: MCTP message type 5 with its response code, and what follows it. -/
def State.spdm (s : State) (vdm : Bool) (code : Nat) (data : List Byte) : State := s.emit (.mctp vdm (0x50000 + code) data)

def execGetMeasurements (vdm : Bool) (index : Byte) (s : State) : Res :=
  .next (
    if s.dictOff then s
    else if s.spdmBusy then s.spdm vdm 0x7F [0x03, 0]
    else
      let k := index.toNat
      if k = 0 then s.spdm vdm 0x60 [7]
      else if k = 0xFF then s.spdm vdm 0x60 (s.signedBy (7 :: (List.range 7).flatMap fun i => s.block (i + 1)))
      else if k ≤ 7 then s.spdm vdm 0x60 (s.signedBy (1 :: s.block k))
      else s.spdm vdm 0x7F [0x01, 0])

/-- KEY_EXCHANGE: at most 4 secured sessions for each endpoint ID; the requester must authenticate. The level that KDP reaches inside
follows its certificate chain, and the package presents its own (17, R507; 19, R546, R560). -/
def execKeyExchange (vdm : Bool) (eid : Nat) (mutualAuth expertChain : Bool) (s : State) : Res :=
  .next (
    if s.dictOff then s
    else if s.spdmBusy then s.spdm vdm 0x7F [0x03, 0]
    else if !mutualAuth then s.spdm vdm 0x7F [0x01, 0]
    else if 4 ≤ (s.kdp.secured.filter fun x => x.1 == vdm && x.2.1 == eid).length then s.spdm vdm 0x7F [0x0A, 0]
    else
      let expert := expertChain && leNat (Tbl.get [] s.kdp.octets 0x700080) ≠ 0
      let t := { s with kdp := { s.kdp with secured := s.kdp.secured ++ [(vdm, eid, expert)] } }
      t.spdm vdm 0x64 (s.signedBy s.certificate))

end Sys2Proof.Machine
end

