-- ==== Sys2Proof/Machine/Dict.lean ====
section
/-! DEFINITION. The object dictionary: what every object reads as, what a write of it does, and the messages, sessions and associations that
carry requests (17). -/

namespace Sys2Proof.Machine

/-! ## Values that objects read as (17, R492; the object tables of chapters 08 to 19) -/

/-- Codes of port states (11, Table 11-7). -/
def portCode : PortState → Nat
  | .off => 0 | .training => 1 | .hello => 2 | .active => 3 | .closing => 4 | .failed => 5 | .refused => 6

/-- A 32-byte string (17, Table 17-1). -/
def str32 (t : String) : List Byte := padTo 32 (t.toList.map fun c => BitVec.ofNat 8 c.toNat)

/-- Bits of the slices in a mode. -/
def State.sliceBits (s : State) (p : Nat → Bool) : Nat := (cds.filter fun c => p (s.sliceMode c)).foldl (fun m c => m + 2 ^ c) 0

/-- The link-local address: fe80::/64 and the modified EUI-64 of mgmt_mac (17, R504). -/
def State.linkLocal (s : State) : List Byte :=
  let m := s.macOf 0
  [0xFE, 0x80, 0, 0, 0, 0, 0, 0, m.getD 0 0 ^^^ 2, m.getD 1 0, m.getD 2 0, 0xFF, 0xFE, m.getD 3 0, m.getD 4 0, m.getD 5 0]

/-- Counts of spares in use, 4 bits each, low nibble first (10, Table 10-6). -/
def nibbles : List Nat → List Byte
  | [] => []
  | [a] => [BitVec.ofNat 8 (a % 16)]
  | a :: b :: t => BitVec.ofNat 8 (a % 16 + 16 * (b % 16)) :: nibbles t

/-- Spares of a slice that carry a wire. -/
def State.sparesUsed (s : State) (k : Nat) : Nat :=
  ((List.range 4).filter fun sp => match s.spareUse k sp with | .carries _ => true | _ => false).length

/-- The error log, oldest first (17, Table 17-15; 18, R513). -/
def State.logBytes (s : State) : List Byte := s.rel.log.flatMap fun r => r.bytes ++ r.details.flatMap (padTo 64)

/-- CLK_CCLK_DIV bits [15:0] (14, Table 14-3). -/
def Clk.requests (c : Clk) : Nat :=
  c.ledger + 0x80 * b2n (c.thermalJ || c.thermalM) + 0x800 * b2n c.brake + 0x8000 * b2n (!c.fallback.isEmpty)

/-- Seat object (17, Table 17-14): a FREE seat reads as zeros; a cached one shows its state and halt cause as they are, and the rest as
of its last save or load. -/
def State.seatObject (s : State) (n sub : Nat) : List Byte :=
  let i := s.seat n
  let v : SeatShown := if i.cached then i.shown
    else { inc := i.inc, resetCount := i.resetCount, windowStart := i.windowStart, plays := i.plays, heartbeat := s.heartbeat n }
  if i.state = .free then (if sub = 0x80 then zeros 512 else if sub = 0x0B then zeros 384 else zeros 8)
  else match sub with
    | 0x01 => leBytes 1 (seatCode i.state)
    | 0x02 => leBytes 2 i.entry.tenant.toNat
    | 0x03 => leBytes 1 i.entry.owner
    | 0x04 => leBytes 4 v.inc.toNat
    | 0x05 => [i.haltCause]
    | 0x06 => leBytes 2 v.resetCount.toNat
    | 0x07 => leBytes 4 v.plays.toNat
    | 0x08 => leBytes 8 (Tbl.get {} i.ctx 0).cyc.toNat
    | 0x09 => leBytes 8 v.heartbeat
    | 0x0A => leBytes 8 i.lastEpoch.toNat
    | 0x0B => (List.range 32).flatMap fun k => let v := Tbl.get {} i.conv k; leBytes 4 v.under ++ leBytes 4 v.sat ++ leBytes 4 v.nan
    | _ => patchEntry { i with inc := v.inc, resetCount := v.resetCount, windowStart := v.windowStart }

/-- Table-port objects with a value of their own (11, Table 11-11). -/
def State.tpObject (s : State) (n sub : Nat) : Option (List Byte) :=
  let p := s.port n
  match sub with
  | 0x01 => some (leBytes 1 (portCode p.state))
  | 0x02 => some (match p.peer with
      | some m => leBytes 2 m.tableId.toNat ++ leBytes 1 m.position ++ leBytes 1 m.port ++ leBytes 8 m.serial.toNat
      | none => [])
  | 0x03 => some (leBytes 2 p.revision)
  | _ => none

/-- Spine-port objects with a value of their own (11, Table 11-11). -/
def State.spObject (s : State) (n sub : Nat) : Option (List Byte) :=
  match sub with
  | 0x01 => some (leBytes 1 (portCode (s.port n).state))
  | 0x02 => some (s.macOf (n - 63))
  | 0x81 | 0x82 => some (Tbl.get [] s.kdp.octets (portObj n sub))
  | _ => none

/-- 0x7001.02: at most 16 records of 16 bytes (17, Table 17-16). -/
def State.sessionTable (s : State) : List Byte :=
  (s.kdp.sessions.take 16).flatMap fun x =>
    let row := fun (ch peer : Nat) =>
      leBytes 4 x.id.toNat ++ leBytes 1 ch ++ leBytes 1 (b2n x.expert) ++ zeros 2 ++ leBytes 4 ((s.ns - x.last.toNat) / 1000000000) ++ leBytes 4 peer
    match x.ch with
    | .net n => row 1 (((Tbl.get none s.kdp.assocs n).map (·.peer.toNat)).getD 0)
    | .mctp vdm eid _ => row (2 + b2n vdm) eid
    | .mailbox _ => []

/-- Sessions that are no mailbox function's (17, Table 17-16). -/
def Session.isOpen (x : Session) : Bool := match x.ch with | .mailbox _ => false | _ => true

/-- Identity, versions, unit map, device state, options (17, Table 17-13; 15, Table 15-13). -/
def State.identityValue (s : State) (key : Nat) : Option (List Byte) :=
  match key with
  | 0x100002 => some (leBytes 1 (field s.fb0 9 1))
  | 0x100003 => some (leBytes 8 s.serial.toNat)
  | 0x100004 => some (str32 "Kyomays Semiconductor")
  | 0x100005 => some (str32 "Fyerku Linivirad FYK-LV8")
  | 0x100006 => some (s.macOf 0)
  | 0x100007 => some (leBytes 1 (b2n s.manufacturing))
  | 0x100101 => some (leBytes 4 (Config.identity 1))
  | 0x100103 => some (leBytes 1 fciMinorMax)
  | 0x100105 => some (leBytes 2 (Config.identity 3))
  | 0x100201 => some s.unitMapBytes
  | 0x100202 => some (leBytes 1 (s.sliceBits fun m => m == 1 || m == 2))
  | 0x100203 => some (leBytes 1 (s.sliceBits (· == 3)))
  | 0x110001 => some (leBytes 1 (devCode s.dev))
  | 0x110002 => some (leBytes 8 (s.boot.cause + 0x100 * s.boot.scope + 0x10000 * s.boot.seq.toNat + 0x100000000 * s.boot.detail))
  | 0x110003 => some (leBytes 8 s.boot.time.toNat)
  | 0xA00001 => some (Tbl.get [] s.boot.voted 0)
  | 0xA00002 => some (Tbl.get [] s.boot.voted 1)
  | 0xA00003 => some (Tbl.get [] s.boot.voted 2)
  | 0xA00004 => some (Tbl.get [] s.boot.voted 3)
  | 0xA00080 => some ((List.range 4).flatMap fun b => (s.fuseCopies b).flatMap fun c => padTo 256 c.data)
  | 0xA00101 => some ((List.range 4).map fun b => BitVec.ofNat 8 (Tbl.get 0 s.boot.votes b))
  | 0xA00201 => some s.boardRecord
  | 0xA00202 => some (leBytes 1 s.boot.recState)
  | _ => none

/-- Power, clocks and memory tiers (14, Table 14-13; 08, Table 8-9). -/
def State.powerValue (s : State) (key : Nat) : Option (List Byte) :=
  match key with
  | 0x200003 => some s.diePower
  | 0x200101 => some s.dieTmax
  | 0x200102 => some s.memTmax
  | 0x200301 => some (leBytes 6 s.clk.gated.toNat)
  | 0x200302 => some (leBytes 4 ((List.range 13).foldl (fun m d => m + s.domain d % 4 * 4 ^ d) 0))
  | 0x200401 => some ((List.range 10).flatMap fun r => leBytes 2 (s.power.rail r).read)
  | 0x240001 => some (leBytes 1 s.clk.div)
  | 0x240002 => some (leBytes 2 s.clk.requests)
  | 0x240003 => some (leBytes 1 s.clk.source)
  | 0x240004 => some (leBytes 4 s.clk.changes.toNat)
  | 0x300080 => some (leBytes 8 s.memory.bandMode.toNat)
  | 0x300101 => some ((List.range 16).map fun k => BitVec.ofNat 8 (s.multiplier k))
  | _ => none

/-- Table, groups and timebase (12, Table 12-11; 13, Table 13-4); the spine (11, Table 11-11). -/
def State.tableValue (s : State) (key : Nat) : Option (List Byte) :=
  match key with
  | 0x408001 => some (leBytes 2 (s.fab.conns.filter fun c => c.2.any (·.phase == 1)).length)
  | 0x409080 => some s.kdp.spineDir
  | 0x410001 => some (leBytes 2 s.table.id.toNat)
  | 0x410002 => some (leBytes 1 s.table.position)
  | 0x410003 => some (leBytes 1 s.table.roster.dealer)
  | 0x410004 => some (leBytes 4 s.table.roster.epoch)
  | 0x410005 => some (if s.table.seen then s.table.roster.entries.flatMap entryBytes else [])
  | 0x410007 => some (leBytes 2 (if s.table.seen then s.unplacedSlots else 0))
  | 0x410009 => some (s.table.late.flatMap lateEntryBytes)
  | 0x440001 => some (leBytes 2 s.groups.length)
  | 0x480001 => some (leBytes 1 s.time.state)
  | 0x480002 => some (leBytes 4 s.time.epoch.toNat)
  | 0x480003 => some (leBytes 8 s.now.toNat)
  | 0x480004 => some (leBytes 8 (unsigned 64 s.time.offset))
  | 0x480005 => some (leBytes 4 (unsigned 32 s.time.freq))
  | 0x480006 => some (leBytes 8 (unsigned 64 (s.time.remaining / 1000)))
  | 0x480007 => some (leBytes 1 s.time.source)
  | 0x480008 => some (leBytes 8 s.grandmaster.toNat)
  | _ => none

/-- Management port, errors, links, array checks, maintenance (17, Tables 17-13 and 17-15; 10, Table 10-6). -/
def State.errorValue (s : State) (key : Nat) : Option (List Byte) :=
  match key with
  | 0x430001 => some (leBytes 1 s.mgmt.link)
  | 0x430002 => some (s.macOf 0)
  | 0x430003 => some s.linkLocal
  | 0x430080 | 0x430082 => some (Tbl.get [] s.kdp.octets key)
  | 0x600002 => some ((s.rel.lastError.map Report.bytes).getD [])
  | 0x600003 => some (leBytes 2 (logRecords s.rel.log))
  | 0x600101 => some s.logBytes
  | 0x601003 => some (leBytes 1 (if s.dev = .folded then s.obj 0x601003 0 else 0))
  | 0x620101 => some (nibbles ((List.range 3612).map s.sparesUsed))
  | 0x620102 => some (nibbles ((List.range 32).map fun k => s.sparesUsed ((32 + k) * 129)))
  | 0x630001 => some (cds.flatMap fun c => leBytes 4 (Tbl.get 0 s.arr.failCol c) ++ leBytes 4 (Tbl.get 0 s.arr.failRow c)
      ++ leBytes 4 (Tbl.get 0 s.arr.retries c) ++ leBytes 2 (Tbl.get 0 s.arr.halts c) ++ zeros 2 ++ leBytes 8 (Tbl.get 0 s.arr.stalls c))
  | 0x630002 => some (leBytes 4 s.arr.soft.length)
  | 0x640001 => some (leBytes 2 s.activities)
  | 0x640101 => some (journalBytes s.maint.journal)
  | _ => none

/-- Security, sessions, firmware and telemetry (17, Table 17-16; 19, Table 19-11; 16, Table 16-9). -/
def State.firmwareValue (s : State) (key : Nat) : Option (List Byte) :=
  match key with
  | 0x700001 => some (leBytes 1 s.securityState)
  | 0x700002 => some (leBytes 4 (((s.fw.image.map (·.svnSince)).getD []).getD s.sec.svn 0))
  | 0x700003 => some (sha384Bytes s.sec.cert)
  | 0x700005 => some s.debugNonce
  | 0x700006 => some (match s.sec.fs with
      | some v => leBytes 8 (leNat ((leBytes 48 (sha384 (("KLV8 fsid".toList.map fun c => BitVec.ofNat 8 c.toNat) ++ leBytes 32 v))).take 8))
      | none => [])
  | 0x700007 => some (leBytes 1 s.sec.svn)
  | 0x700008 => some (leBytes 32 ((s.keyBind.filter fun e => e.1 ≠ 0 && e.2.isSome).foldl (fun m e => m + 2 ^ e.1) 0))
  | 0x700080 | 0x700081 => some (Tbl.get [] s.kdp.octets key)
  | 0x700101 => some (leBytes 1 (s.kdp.sessions.filter Session.isOpen).length)
  | 0x700102 => some s.sessionTable
  | 0x800001 => some (leBytes 4 s.fw.version)
  | 0x800002 => some (leBytes 2 s.fw.wire)
  | 0x800004 => some (leBytes 4 s.fw.pkgInc.toNat)
  | 0x800005 => some (leBytes 48 ((s.fw.image.map (·.digest)).getD 0))
  | 0x800101 => some ((List.range 7).flatMap fun k => leBytes 4 (s.obj (arrKey 0x800101 k) 0))
  | 0x800103 => some ((List.range 5).flatMap fun k => leBytes 4 (s.obj (arrKey 0x800103 k) 0))
  | 0x800301 => some s.coreBusy
  | 0x800302 => some (leBytes 2 s.queueDepth)
  | 0x900001 => some (s.mgmt.frames.getLast?.getD [])
  | 0x900101 => some s.mgmt.frames.flatten
  | _ => none

/-- The value of an object: its own rule, or the number that the dictionary holds (17, R492). -/
def State.readObj (s : State) (index : Nat) (x : Obj) : List Byte :=
  let key := objKey index x.sub
  let own :=
    match kindIndex index with
    | 0x4000 => s.tpObject (index - 0x4000) x.sub
    | 0x4040 => s.spObject (index - 0x4040 + 64) x.sub
    | 0x5000 => some (s.seatObject (index - 0x5000) x.sub)
    | _ =>
      if index < 0x2000 || 0xA000 ≤ index then s.identityValue key
      else if index < 0x4000 then s.powerValue key
      else if index = 0x4300 then s.errorValue key
      else if index < 0x6000 then s.tableValue key
      else if index < 0x7000 then s.errorValue key
      else s.firmwareValue key
  match own with
  | some bs => if x.type.isDomain then bs else padTo x.type.size bs
  | none => leBytes x.type.size (s.obj key x.dflt)

/-! ## Sessions and associations (17, R499, R501, R502, R505) -/

/-- Sessions close, with what they stage; an association closes with its session (17, R502). -/
def State.closeSessions (s : State) (p : Session → Bool) : State :=
  let gone := s.kdp.sessions.filter p
  let assocs := gone.foldl (fun t x => match x.ch with | .net n => Tbl.set none t n none | _ => t) s.kdp.assocs
  { s with kdp := { s.kdp with
      sessions := s.kdp.sessions.filter fun x => !p x
      staging := s.kdp.staging.filter fun g => !gone.any fun x => x.ch == g.ch && x.id == g.session
      assocs := assocs } }

/-- Associations close, with their sessions. -/
def State.closeAssocs (s : State) (p : Assoc → Bool) : State :=
  let hit := fun (n : Nat) => (Tbl.get none s.kdp.assocs n).any p
  let s := s.closeSessions fun x => match x.ch with | .net n => hit n | _ => false
  { s with kdp := { s.kdp with assocs := s.kdp.assocs.filter fun e => !e.2.any p } }

/-- The value of an anchor: no key while all its bytes are zero (17, Table 17-16). -/
def State.hasAnchor (s : State) (expert : Bool) : Bool := (Tbl.get [] s.kdp.octets (if expert then 0x700080 else 0x700081)).any (· ≠ 0)

/-- DTLS_HANDSHAKE: an association, when the client's chain ends under an anchor that is set; otherwise, or as a ninth, it is refused and
counted (17, R501). The package presents its device certificate (19, R546). A datagram to an address that the port does not have is discarded (17,
R504); SGMII runs on the PLL outputs only (14, R406). -/
def State.ownsAddress (s : State) (a : Fin 3) : Bool :=
  s.mgmt.link ≠ 0 && s.clk.source == 2 && (a = 0 || (a = 1 && (Tbl.get [] s.kdp.octets 0x430080).any (· ≠ 0)) || (a = 2 && s.obj 0x430083 0 ≠ 0))

def execDtlsHandshake (expertChain basicChain : Bool) (peer : Quad) (addr : Fin 3) (s : State) : Res :=
  .next (
    if s.dictOff || !s.ownsAddress addr then s
    else
      let expert := expertChain && s.hasAnchor true
      let basic := basicChain && s.hasAnchor false
      match (List.range 8).find? fun n => (Tbl.get none s.kdp.assocs n).isNone with
      | some n =>
        if (!expert && !basic) || s.obj 0x430086 1 = 0 then s.bump 0x700103 32
        else
          let a : Assoc := { expert := expert, basic := basic, peer := peer, addr := addr }
          ({ s with kdp := { s.kdp with assocs := Tbl.set none s.kdp.assocs n (some a) } }).emit (.dtlsCertificate n s.certificate)
      | none => s.bump 0x700103 32)

/-- The channel can carry a message: its association or secured session stands (17, R501, R507). -/
def State.channelUp (s : State) (ch : Channel) : Bool :=
  match ch with
  | .mailbox f => s.fnEnabled f.val
  | .net n => s.clk.source == 2 && (Tbl.get none s.kdp.assocs n).isSome
  | .mctp vdm eid secured => !secured || s.kdp.secured.any fun x => x.1 == vdm && x.2.1 == eid

/-- The channel allows the expert level (17, Table 17-1a, R501, R507). -/
def State.allowsExpert (s : State) (ch : Channel) : Bool :=
  match ch with
  | .mailbox f => f.val == 0
  | .net n => (Tbl.get none s.kdp.assocs n).any (·.expert)
  | .mctp vdm eid secured => secured && s.kdp.secured.any fun x => x.1 == vdm && x.2.1 == eid && x.2.2

/-! ## Writes (17, R486, R490, R511) -/

/-- The value lies in the object's range; a row that says "act as" refuses nothing (17, R486). -/
def inRange (index sub v : Nat) (x : Obj) : Bool :=
  (x.type ≠ .bool || v ≤ 1) &&
  (match objKey (kindIndex index) sub with
   | 0x200002 => decide (1500 ≤ v) && decide (v ≤ 3000)
   | 0x200180 => decide (70 ≤ v) && decide (v ≤ 100)
   | 0x400081 | 0x404083 | 0x480083 => decide (v ≤ 1)
   | 0x430081 => decide (1 ≤ v) && decide (v ≤ 128)
   | 0x430084 => decide (1 ≤ v) && decide (v ≤ 32)
   | 0x700082 => decide (3600 ≤ v) && decide (v ≤ 2592000)
   | 0x800181 => decide (1 ≤ v) && decide (v ≤ 16)
   | _ => true)

/-- An anchor is written: sessions whose level rested on the old value close, and their associations with them (17, Table 17-16). PF 0's
function is never disabled, so that a write may leave both anchors at zero. -/
def State.writeAnchor (s : State) (expert : Bool) (data : List Byte) : State × Status × Nat :=
  let s := s.closeAssocs fun a => if expert then a.expert else a.basic && !a.expert
  let s := if expert then s.closeSessions fun x => match x.ch with | .mctp _ _ true => x.expert | _ => false else s
  let s := if expert then { s with kdp := { s.kdp with secured := s.kdp.secured.map fun x => (x.1, x.2.1, false) } } else s
  ({ s with kdp := { s.kdp with octets := Tbl.set [] s.kdp.octets (if expert then 0x700080 else 0x700081) data } }, .ok, 0)

/-- kdp_enable: 0 closes every network session at once (17, Table 17-13). -/
def State.writeKdpEnable (s : State) (v : Nat) : State × Status × Nat :=
  let s := s.setObj 0x430086 v
  (if v = 0 then s.closeAssocs fun _ => true else s, .ok, 0)

/-- log_clear: 1 empties the log; errors_reported is kept (17, Table 17-15). -/
def State.clearLog (s : State) (v : Nat) : State × Status × Nat :=
  (if v = 1 then { s with rel := { s.rel with log := [] } } else s, .ok, 0)

/-- session_close (17, Table 17-16). -/
def State.closeById (s : State) (id : Nat) : State × Status × Nat :=
  let p := fun (x : Session) => x.id.toNat == id && x.isOpen
  if s.kdp.sessions.any p then (s.closeSessions p, .ok, 0) else (s, .notFound, 0)

/-- activity_request, 16 bytes (18, R540, Table 18-13). -/
def State.requestActivity (s : State) (b : List Byte) : State × Status × Nat :=
  match field b 0 1 with
  | 0x00 => s.ppr (field b 1 1) (field b 2 1) (field b 3 1) (field b 4 1) (field b 5 4)
  | 0x01 => s.retrain (field b 1 1)
  | 0x06 => s.allowActivity 6 none fun s => (s.sweepAll, .ok, 0)
  | 0x07 => if field b 3 1 ≤ 2 then s.restore (field b 1 2) (field b 3 1) (field b 4 8) else (s, .badArg, 0)
  | 0x08 => s.scrubRequest 8
  | 0x09 => s.scrubRequest 9
  | 0x0A => s.scrubRequest 10
  | 0x10 => if field b 3 1 ≤ 1 then s.shadowSet (field b 1 2) (field b 3 1 == 1) (BitVec.ofNat 16 (field b 4 2)) else (s, .badArg, 0)
  | 0x11 => s.dummyPool (BitVec.ofNat 48 (field b 1 6))
  | _ => (s, .badArg, 0)

/-- spine_directory: whole 136-byte records, at most 18,432 (12, R358; 17, R495). A connection whose peer's record changes closes (R360): the directory
holds no serial, so another package at a (table, position) shows as another record (log 175). -/
def State.writeDirectory (s : State) (data : List Byte) : State × Status × Nat :=
  if data.length % 136 ≠ 0 then (s, .badArg, 0)
  else
    let t := { s with kdp := { s.kdp with spineDir := data } }
    let addrs := fun (s : State) (c : Conn) => (List.range 8).map (s.spineAddr c.table c.position)
    (t.closeConns fun c => decide (c.phase < 2) && addrs s c != addrs t c, .ok, 0)

/-- watchdog_period: written to every PWR_FW_WDT_n (16, Tables 16-2 and 16-9). -/
def State.writeWatchdog (s : State) (v : Nat) : State × Status × Nat :=
  (State.setObj { s with mgmt := { s.mgmt with
    period := (List.range 5).foldl (fun t n => Tbl.set 100000 t n v) s.mgmt.period } } 0x800180 v, .ok, 0)

/-- A management address is written: sessions on an address that has gone close (17, section 17.8). -/
def State.writeAddress (s : State) (key : Nat) (data : List Byte) : State × Status × Nat :=
  if key = 0x430080 then
    let s := if padTo 16 (Tbl.get [] s.kdp.octets key) = data then s else s.closeAssocs (·.addr = 1)
    ({ s with kdp := { s.kdp with octets := Tbl.set [] s.kdp.octets key data } }, .ok, 0)
  else
    let s := if s.obj key 0 = leNat data then s else s.closeAssocs (·.addr = 2)
    (s.setObj key (leNat data), .ok, 0)

/-- A whole value of the right size is written: its range, then its owner's rule (17, Table 17-4). -/
def State.writeObj (s : State) (ch : Channel) (index : Nat) (x : Obj) (data : List Byte) : State × Status × Nat :=
  let key := objKey index x.sub
  let v := leNat data
  let ok := fun (s : State) => (s, Status.ok, 0)
  if !x.type.isDomain && !inRange index x.sub v x then (s, .badArg, 0)
  else match objKey (kindIndex index) x.sub with
    | 0x110080 => s.askReset ch v
    | 0x110081 => s.blockReset v
    | 0x110082 => if v = 1 then ok (s.wake 2) else ok s
    | 0x200580 => if v = 1 then s.doze else ok s
    | 0x300080 => let (t, st) := s.writeBandMode (BitVec.ofNat 64 v); (t, st, 0)
    | 0x400080 => ok (s.writePortEnable (index - 0x4000) v)
    | 0x404080 => ok (s.writePortEnable (index - 0x4040 + 64) v)
    | 0x404081 => ok (s.writeSpine (index - 0x4040) false data)
    | 0x404082 => ok (s.writeSpine (index - 0x4040) true data)
    | 0x409080 => s.writeDirectory data
    | 0x410082 => State.promoteSlot v s
    | 0x430080 | 0x430083 => s.writeAddress key data
    | 0x430082 => ok { s with kdp := { s.kdp with octets := Tbl.set [] s.kdp.octets key data } }
    | 0x430086 => s.writeKdpEnable v
    | 0x600180 => s.clearLog v
    | 0x480081 => ok (if v = 0 then (s.setObj key v).ptpWritten true else s.setObj key v)
    | 0x480082 => ok (if v = s.obj key 0 then s else (s.setObj key v).ptpWritten false)
    | 0x601080 => if v = 1 then ok (s.foldPackage 5) else ok s
    | 0x640080 => s.requestActivity data
    | 0x700080 => s.writeAnchor true data
    | 0x700081 => s.writeAnchor false data
    | 0x700083 => s.installSecret v
    | 0x700084 => s.clearSlot v
    | 0x700085 => s.raiseFloor v
    | 0x700086 => s.takeToken (s.tokenOf data)
    | 0x700087 => s.setBreak (field data 0 2) (field data 2 1) (field data 3 1) (BitVec.ofNat 32 (field data 4 4)) (bit (field data 8 1) 0)
    | 0x700180 => s.closeById v
    | 0x800180 => s.writeWatchdog v
    | 0xA00280 => s.writeRecord data true
    | _ => ok (s.setObj key v)

/-! ## Requests (17, R491 to R500, R503) -/

/-- An answer: status, aux (retry-after, or a value's length), data, the last flag. -/
structure KdpRes where
  st   : Status
  aux  : Nat := 0
  data : List Byte := []
  last : Bool := false

/-- A request is turned away. -/
def refuse (st : Status) (aux : Nat := 0) : KdpRes := { st := st, aux := aux }

/-- Change a session that is still open. -/
def State.modSession (s : State) (ch : Channel) (id : Quad) (f : Session → Session) : State :=
  { s with kdp := { s.kdp with sessions := s.kdp.sessions.map fun x => if x.ch == ch && x.id == id then f x else x } }

/-- The implicit session of a mailbox function never needs opening (17, R499). -/
def State.implicit (s : State) (ch : Channel) : State :=
  match ch with
  | .mailbox f =>
    if s.kdp.sessions.any (·.ch == ch) then s
    else { s with kdp := { s.kdp with sessions := s.kdp.sessions ++ [{ id := 0, ch := ch, expert := f.val == 0 }] } }
  | _ => s

/-- The checks of Table 17-4 from the device state to the level, and the object. -/
def State.findObj (s : State) (x : Session) (index sub : Nat) (isWrite : Bool) : KdpRes ⊕ Obj :=
  match s.stateGate index sub isWrite with
  | some (st, retry) => .inl (refuse st retry)
  | none =>
    if !s.chanReaches x.ch index then .inl (refuse .noAccess)
    else
      let os := if kindIndex index = 0x5000 && s.entries ≤ index - 0x5000 then [] else objectsOf index
      if os.isEmpty then .inl (refuse .notFound)
      else if sub = 0 then .inr countObject
      else match os.find? (·.sub == sub) with
        | none => .inl (refuse .notFound)
        | some ob => if 0x80 ≤ sub && !x.expert then .inl (refuse .noAccess) else .inr ob

/-- The value that a session reads (17, R487, R492). -/
def State.valueFor (s : State) (x : Session) (index : Nat) (ob : Obj) : List Byte :=
  if ob.sub = 0 then leBytes 1 ((objectsOf index).filter fun r => r.sub < 0x80 || x.expert).length else s.readObj index ob

/-- One segment of a value (17, R494, R497): no longer than the request, the message and 1,216 bytes allow. -/
def segment (x : Session) (m : KdpMsg) (v : List Byte) : KdpRes :=
  let want := if m.length = 0 then 1216 else m.length
  let room := min (max 64 (min 1244 x.maxMsg)) 1244 - 28
  let d := (v.drop m.offset).take (min (min want 1216) room)
  { st := .ok, aux := v.length, data := d, last := decide (v.length ≤ m.offset + d.length) }

/-- READ (17, R494). -/
def State.serveRead (s : State) (x : Session) (m : KdpMsg) : State × KdpRes :=
  match s.findObj x m.index m.sub false with
  | .inl r => (s, r)
  | .inr ob =>
    if ob.access = .wo then (s, refuse .noAccess)
    else
      let key := objKey m.index m.sub
      if m.offset = 0 then
        let v := s.valueFor x m.index ob
        (s.modSession x.ch x.id fun y => { y with snapshot := some (key, v) }, segment x m v)
      else match x.snapshot with
        | some (k, v) =>
          if k ≠ key then (s, refuse .conflict)
          else if v.length ≤ m.offset then (s, refuse .badArg)
          else (s, segment x m v)
        | none => (s, refuse .conflict)

/-- The owning rule of a write answers. -/
def applied (r : State × Status × Nat) : State × KdpRes :=
  let (retry, t) := r.1.hinted r.2.1 r.2.2
  (t, refuse r.2.1 (if retryable r.2.1 then retry else 0))

/-- The staging buffer of a session for an object (17, R495). -/
def State.dropStaging (s : State) (ch : Channel) (id : Quad) (key : Nat) : State :=
  { s with kdp := { s.kdp with staging := s.kdp.staging.filter fun g => !(g.ch == ch && g.session == id && g.key == key) } }

/-- WRITE of a segment of a DOMAIN (17, R495). -/
def State.serveSegment (s : State) (x : Session) (m : KdpMsg) (ob : Obj) : State × KdpRes :=
  let key := objKey m.index m.sub
  let mine := fun (g : Staging) => g.ch == x.ch && g.session == x.id
  let have' := s.kdp.staging.find? fun g => mine g && g.key == key
  let other := s.kdp.staging.find? fun g => !mine g && g.key == key
  let t := s.dropStaging x.ch x.id key
  let before := if m.offset = 0 then some [] else have'.map (·.data)
  match (if m.offset = 0 then other else none), before with
  | some g, _ => (s, refuse .conflict ((g.last.toNat + 10000000000 - s.ns) / 1000))
  | none, none => (s, refuse .badArg)
  | none, some b =>
    let v := b ++ m.data
    if m.offset ≠ b.length || ob.type.size < v.length then (t, refuse .badArg)
    else if m.last then applied (t.writeObj x.ch m.index ob v)
    else
      let g : Staging := { ch := x.ch, session := x.id, key := key, data := v, last := s.time.ns }
      ({ t with kdp := { t.kdp with staging := t.kdp.staging ++ [g] } }, refuse .ok)

/-- WRITE (17, R486, R495). -/
def State.serveWrite (s : State) (x : Session) (m : KdpMsg) : State × KdpRes :=
  match s.findObj x m.index m.sub true with
  | .inl r => (s, r)
  | .inr ob =>
    if !ob.access.writable then (s, refuse .noAccess)
    else if ob.type.isDomain then s.serveSegment x m ob
    else if m.offset ≠ 0 || m.data.length ≠ ob.type.size then (s, refuse .badArg)
    else applied (s.writeObj x.ch m.index ob m.data)

/-- WRITE_IF (17, R493): the expected value, then the new one. -/
def State.serveWriteIf (s : State) (x : Session) (m : KdpMsg) : State × KdpRes :=
  match s.findObj x m.index m.sub true with
  | .inl r => (s, r)
  | .inr ob =>
    let n := ob.type.size
    if !ob.access.writable || ob.access = .wo then (s, refuse .noAccess)
    else if ob.type.isDomain then (s, refuse .unsupported)
    else if m.offset ≠ 0 || m.data.length ≠ 2 * n then (s, refuse .badArg)
    else
      let cur := s.readObj m.index ob
      if cur ≠ m.data.take n then (s, { st := .conflict, data := cur })
      else applied (s.writeObj x.ch m.index ob (m.data.drop n))

/-- DESCRIBE (17, R500, Table 17-8). -/
def State.serveDescribe (s : State) (x : Session) (m : KdpMsg) : State × KdpRes :=
  match s.findObj x m.index m.sub false with
  | .inl r => (s, r)
  | .inr ob =>
    (s, { st := .ok, data := leBytes 1 ob.type.code ++ leBytes 1 ob.access.code
            ++ leBytes 1 (b2n (decide (0x80 ≤ ob.sub)) + 2 * ob.persist.code) ++ [0] ++ leBytes 4 ob.type.size ++ zeros 8 ++ str32 ob.name })

/-- OPEN_SESSION (17, R499, R502, Table 17-7). -/
def State.serveOpen (s : State) (ch : Channel) (m : KdpMsg) : State × KdpRes :=
  let level := field m.data 0 1
  let onNet := fun (x : Session) => match x.ch with | .net _ => true | _ => false
  let sameEnd := fun (x : Session) => match x.ch, ch with
    | .mctp v e _, .mctp v' e' _ => v == v' && e == e'
    | _, _ => false
  match ch with
  | .mailbox _ => (s, refuse .unsupported)
  | _ =>
    if m.data.length ≠ 8 || 1 < level then (s, refuse .badArg)
    else if level = 1 && !s.allowsExpert ch then (s, refuse .noAccess)
    else if (match ch with | .net _ => s.kdp.sessions.any (·.ch == ch) | _ => false) then
      let (retry, t) := s.hinted .conflict 0
      (t, refuse .conflict retry)
    else if (match ch with
        | .net _ => decide (8 ≤ (s.kdp.sessions.filter onNet).length)
        | _ => decide (4 ≤ (s.kdp.sessions.filter sameEnd).length)) then (s, refuse .overflow)
    else
      let id := if s.kdp.lastId + 1 = 0 then 1 else s.kdp.lastId + 1
      let x : Session := { id := id, ch := ch, expert := level == 1, maxMsg := max 64 (min 1244 (field m.data 2 2)), last := s.time.ns }
      ({ s with kdp := { s.kdp with sessions := s.kdp.sessions ++ [x], lastId := id } },
       { st := .ok, data := leBytes 4 id.toNat ++ leBytes 1 level ++ [0] ++ leBytes 2 (Config.identity 3) })

/-- CLOSE_SESSION (17, R499). -/
def State.serveClose (s : State) (x : Session) : State × KdpRes :=
  match x.ch with
  | .mailbox _ => (s, refuse .unsupported)
  | _ => (s.closeSessions fun y => y.ch == x.ch && y.id == x.id, refuse .ok)

/-- One operation of an open session (17, Table 17-6). -/
def State.serveOp (s : State) (x : Session) (op : Nat) (m : KdpMsg) : State × KdpRes :=
  match op with
  | 2 => s.serveClose x
  | 3 => s.serveRead x m
  | 4 => s.serveWrite x m
  | 5 => s.serveWriteIf x m
  | 6 => s.serveDescribe x m
  | 7 => (s, refuse .ok)
  | _ => (s, refuse .unsupported)

/-- A reset command is of class 0: the service queue always has room for it (16, R481). -/
def classZero (op : Nat) (m : KdpMsg) : Bool := (op == 4 || op == 5) && m.index == 0x1100 && m.sub == 0x80

/-- What R503 makes of a request's sequence: new, answered before, or neither. -/
def Session.judgeSeq (x : Session) (q : Half) : Option (Option (Status × Nat × List Byte)) :=
  match x.held.find? (·.1 == q) with
  | some h => some (some (h.2.2.1, h.2.2.2.1, h.2.2.2.2))
  | none =>
    match x.highest with
    | none => none
    | some h => let d := (q - h).toNat; if 1 ≤ d && d ≤ 32767 then none else some none

/-- A request is served and its answer held: the last 32 by sequence (17, R503). Mailbox messages are not held (R509). -/
def State.serveIn (s : State) (x : Session) (op : Nat) (m : KdpMsg) : State × KdpRes :=
  let full := x.isOpen && !classZero op m && decide (504 ≤ s.queueDepth)
  let (t, r) :=
    if full then
      let (retry, t) := (s.bump 0x800303 64).queueHint
      (t, refuse .busy retry)
    else s.serveOp x op m
  let t := t.modSession x.ch x.id fun y => { y with last := s.time.ns }
  if x.isOpen then
    (t.modSession x.ch x.id fun y => { y with
      highest := some m.sequence, held := ((m.sequence, op, r.st, r.aux, r.data) :: y.held).take 32 }, r)
  else (t, r)

/-- A KDP request on a channel (17, R491 to R503); no answer where nothing serves the dictionary or the channel does not stand. -/
def State.kdpServe (s : State) (ch : Channel) (op : Nat) (m : KdpMsg) : State × Option KdpRes :=
  if s.dictOff then (s, none)
  else if !s.channelUp ch then (match ch with | .net _ => s.bump 0x430004 32 | _ => s, none)
  else if m.major ≠ 1 then (s, some (refuse .version))
  else if op = 1 then let (t, r) := s.serveOpen ch m; (t, some r)
  else
    let s := s.implicit ch
    match s.kdp.sessions.find? fun x => x.ch == ch && x.id == m.session with
    | none => (s, some (refuse .notFound))
    | some x =>
      match (if x.isOpen then x.judgeSeq m.sequence else none) with
      | some (some (st, aux, data)) => (s.modSession ch x.id fun y => { y with last := s.time.ns }, some { st := st, aux := aux, data := data })
      | some none => (s.modSession ch x.id fun y => { y with last := s.time.ns }, some (refuse .notFound))
      | none => let (t, r) := s.serveIn x op m; (t, some r)

/-- A KDP message arrives and its answer leaves on the same channel. -/
def State.kdpRow (s : State) (ch : Channel) (op : Nat) (m : KdpMsg) : State :=
  match s.kdpServe ch op m with
  | (t, none) => t
  | (t, some r) => t.emit (.kdp ch op r.st r.aux r.data)

def execOpenSession (ch : Channel) (m : KdpMsg) (s : State) : Res := .next (s.kdpRow ch 1 m)
def execCloseSession (ch : Channel) (m : KdpMsg) (s : State) : Res := .next (s.kdpRow ch 2 m)
def execKdpRead (ch : Channel) (m : KdpMsg) (s : State) : Res := .next (s.kdpRow ch 3 m)
def execKdpWrite (ch : Channel) (m : KdpMsg) (s : State) : Res := .next (s.kdpRow ch 4 m)
def execWriteIf (ch : Channel) (m : KdpMsg) (s : State) : Res := .next (s.kdpRow ch 5 m)
def execDescribe (ch : Channel) (m : KdpMsg) (s : State) : Res := .next (s.kdpRow ch 6 m)
def execKeepalive (ch : Channel) (m : KdpMsg) (s : State) : Res := .next (s.kdpRow ch 7 m)

/-! ## OBJECT (16, Table 16-5; 17, R509) -/

/-- The fields of a KDP message (17, Table 17-5). -/
def kdpOf (b : List Byte) : Nat × KdpMsg :=
  (field b 2 1, { major := field b 0 1, sequence := BitVec.ofNat 16 (field b 4 2), last := bit (field b 6 1) 1
                  session := BitVec.ofNat 32 (field b 8 4), index := field b 0xC 2, sub := field b 0xE 1, offset := field b 0x10 4
                  length := field b 0x14 2, data := (b.drop 28).take (field b 0x14 2) })

/-- The bytes of an answer (17, Table 17-5). -/
def kdpBytes (op : Nat) (m : KdpMsg) (r : KdpRes) : List Byte :=
  [1, 0, BitVec.ofNat 8 op, statusCode r.st] ++ leBytes 2 m.sequence.toNat ++ [BitVec.ofNat 8 (1 + 2 * b2n r.last), 0]
    ++ leBytes 4 m.session.toNat ++ leBytes 2 m.index ++ leBytes 1 m.sub ++ [0] ++ leBytes 4 m.offset ++ leBytes 2 r.data.length ++ [0, 0]
    ++ leBytes 4 r.aux ++ r.data

/-- OBJECT: the mailbox's reply has the status and hint of the answer that it carries. A reset command waits for its reply to leave (15,
R435). -/
def execObject (f : Func) (seq : Half) (s : State) : Res :=
  .next (match s.openReq f.val seq 5 with
    | none => s
    | some r =>
      let (op, m) := kdpOf r.payload
      if r.payload.length < 28 || r.payload.length < 28 + (if op = 3 then 0 else m.length) then s.answer r .badArg
      else match s.kdpServe (Channel.mailbox f) op m with
        | (t, none) => t
        | (t, some a) =>
          let t := if classZero op m && a.st = .ok then
              { t with boot := { t.boot with delayed := t.boot.delayed.map fun d => (d.1, d.2.1, s.boot.delayed.any (·.2.2)) } }
            else t
          t.answer r a.st (if retryable a.st then a.aux else 0) (kdpBytes op m a))

/-! ## Timeouts (17, R494, R495, R499) -/

def execSessionIdleTimeout (session : Quad) (s : State) : Res :=
  .next (s.closeSessions fun x => x.id == session && x.isOpen)
def execSnapshotLapse (ch : Channel) (session : Quad) (s : State) : Res :=
  .next (s.modSession ch session fun x => { x with snapshot := none })
def execStagingLapse (ch : Channel) (session : Quad) (s : State) : Res :=
  .next { s with kdp := { s.kdp with staging := s.kdp.staging.filter fun g => !(g.ch == ch && g.session == session) } }

/-! ## Writes that have commands of their own -/

/-- A write of one object in the session that a channel has, whatever that session's id (17, R491). -/
def State.writeCommand (s : State) (ch : Channel) (index sub : Nat) (data : List Byte) : State :=
  if s.dictOff then s
  else
    let s := s.implicit ch
    match s.kdp.sessions.find? (·.ch == ch) with
    | none => s.emit (.kdp ch 4 .notFound 0 [])
    | some x =>
      let (t, r) := s.serveWrite x { index := index, sub := sub, last := true, session := x.id, data := data }
      t.emit (.kdp ch 4 r.st r.aux [])

def execObjectWrite (ch : Channel) (index sub : Nat) (data : List Byte) (s : State) : Res := .next (s.writeCommand ch index sub data)
def execPowerCapWrite (ch : Channel) (v : Quad) (s : State) : Res := .next (s.writeCommand ch 0x2000 0x02 (leBytes 4 v.toNat))
/-- A port's index: table ports 0 to 33, spine ports 64 to 71 (17, Table 17-12). -/
def execTpEnableWrite (ch : Channel) (port : Nat) (v : Byte) (s : State) : Res :=
  .next (s.writeCommand ch (if port < 64 then 0x4000 + port else 0x4040 + (port - 64)) 0x80 [v])
def execSpAddressWrite (ch : Channel) (q : Fin 8) (gateway : Bool) (v : Nat) (s : State) : Res :=
  .next (s.writeCommand ch (0x4040 + q.val) (if gateway then 0x82 else 0x81) (leBytes 16 v).reverse)
def execLogClear (ch : Channel) (v : Byte) (s : State) : Res := .next (s.writeCommand ch 0x6001 0x80 [v])
def execFoldRequest (ch : Channel) (v : Byte) (s : State) : Res := .next (s.writeCommand ch 0x6010 0x80 [v])
def execSessionClose (ch : Channel) (session : Quad) (s : State) : Res := .next (s.writeCommand ch 0x7001 0x80 (leBytes 4 session.toNat))
def execAnchorWrite (ch : Channel) (expert : Bool) (v : Nat) (s : State) : Res :=
  .next (s.writeCommand ch 0x7000 (if expert then 0x80 else 0x81) (leBytes 97 v))
def execKdpEnableWrite (ch : Channel) (v : Byte) (s : State) : Res := .next (s.writeCommand ch 0x4300 0x86 [v])
def execFtBandModeWrite (ch : Channel) (v : Word) (s : State) : Res := .next (s.writeCommand ch 0x3000 0x80 (leBytes 8 v.toNat))

end Sys2Proof.Machine
end

