-- ==== Sys2Proof/Machine/Mctp.lean ====
section
/-! DEFINITION. The MCTP endpoint: control commands and PLDM (17, R506, R508). An answer holds its completion code and the fields that
the spec fixes; the codes are those of DSP0236, DSP0240 and DSP0248 (log 44). -/

namespace Sys2Proof.Machine

/-- The code that the model gives an answer: MCTP message type × 65,536 + PLDM type × 256 + command. -/
def mctpCode (msg ptype cmd : Nat) : Nat := 0x10000 * msg + 0x100 * ptype + cmd

/-- An answer of the endpoint; nothing answers where nothing serves the dictionary. -/
def State.mctpReply (s : State) (vdm : Bool) (code : Nat) (data : List Byte) : State :=
  if s.dictOff then s else s.emit (.mctp vdm code data)

/-- Message types that the endpoint supports besides control (17, Table 17-10). -/
def mctpTypes : List Nat := [0x01, 0x05, 0x06, 0x7E]

/-- Completion code ERROR_INVALID_DATA. -/
def invalidData : Byte := 0x02

/-! ## MCTP control (17, R506) -/

/-- SET_ENDPOINT_ID: the bus owner assigns the binding's endpoint ID; 0x00 and 0xFF are reserved in DSP0236. -/
def execSetEndpointId (vdm : Bool) (eid : Byte) (s : State) : Res :=
  .next (
    if s.dictOff then s
    else if eid = 0 || eid = 0xFF then s.mctpReply vdm (mctpCode 0 0 1) [invalidData]
    else
      State.mctpReply { s with kdp := { s.kdp with eid := Tbl.set 0 s.kdp.eid (b2n vdm) eid.toNat } } vdm (mctpCode 0 0 1) [0, 0, eid])

def State.endpointId (s : State) (vdm : Bool) : Nat := Tbl.get 0 s.kdp.eid (b2n vdm)

def execGetEndpointId (vdm : Bool) (s : State) : Res :=
  .next (s.mctpReply vdm (mctpCode 0 0 2) (0 :: leBytes 1 (s.endpointId vdm)))

/-- GET_MCTP_VERSION_SUPPORT: 0xFF asks for the base specification, which is 1.3 (17, R506). -/
def execGetMctpVersionSupport (vdm : Bool) (msgType : Byte) (s : State) : Res :=
  .next (
    if msgType = 0xFF || msgType = 0 then s.mctpReply vdm (mctpCode 0 0 4) [0, 1, 0xF1, 0xF3, 0xFF, 0]
    else if mctpTypes.contains msgType.toNat then
      s.mctpReply vdm (mctpCode 0 0 4) ([0, 1] ++ leBytes 4 (Config.identity (16 + msgType.toNat)))
    else s.mctpReply vdm (mctpCode 0 0 4) [0x80])

def execGetMessageTypeSupport (vdm : Bool) (s : State) : Res :=
  .next (s.mctpReply vdm (mctpCode 0 0 5) ([0, 4] ++ mctpTypes.map fun t => BitVec.ofNat 8 t))

/-- GET_VENDOR_DEFINED_MESSAGE_SUPPORT: one entry, PCI (17, R507). -/
def execGetVendorDefinedMessageSupport (vdm : Bool) (selector : Byte) (s : State) : Res :=
  .next (
    if selector = 0 then
      s.mctpReply vdm (mctpCode 0 0 6) ([0, 0xFF, 0] ++ (leBytes 2 (Config.identity 7)).reverse ++ leBytes 2 (Config.identity 8))
    else s.mctpReply vdm (mctpCode 0 0 6) [invalidData])

/-! ## PLDM, base (17, Table 17-11) -/

def execGetTid (vdm : Bool) (s : State) : Res := .next (s.mctpReply vdm (mctpCode 1 0 2) [0, s.kdp.tid])

def execSetTid (vdm : Bool) (tid : Byte) (s : State) : Res :=
  .next (
    if s.dictOff then s
    else if tid = 0 || tid = 0xFF then s.mctpReply vdm (mctpCode 1 0 1) [invalidData]
    else State.mctpReply { s with kdp := { s.kdp with tid := tid } } vdm (mctpCode 1 0 1) [0])

/-- Types 0 and 2. -/
def execGetPldmTypes (vdm : Bool) (s : State) : Res := .next (s.mctpReply vdm (mctpCode 1 0 4) (0 :: leBytes 8 5))

/-- Commands of a PLDM type (17, Table 17-11), by their codes in DSP0240 and DSP0248. -/
def pldmCommands : Nat → List Nat
  | 0 => [0x01, 0x02, 0x03, 0x04, 0x05]
  | 2 => [0x11, 0x21, 0x50, 0x51]
  | _ => []

/-- Completion code INVALID_PLDM_TYPE_IN_REQUEST_DATA. -/
def invalidType : Byte := 0x83

def execGetPldmCommands (vdm : Bool) (ptype : Byte) (s : State) : Res :=
  .next (
    match pldmCommands ptype.toNat with
    | [] => s.mctpReply vdm (mctpCode 1 0 5) [invalidType]
    | l => s.mctpReply vdm (mctpCode 1 0 5) (0 :: leBytes 32 (l.foldl (fun m c => m + 2 ^ c) 0)))

def execGetPldmVersion (vdm : Bool) (ptype : Byte) (s : State) : Res :=
  .next (
    if (pldmCommands ptype.toNat).isEmpty then s.mctpReply vdm (mctpCode 1 0 3) [invalidType]
    else s.mctpReply vdm (mctpCode 1 0 3) (0 :: leBytes 4 (Config.identity (9 + ptype.toNat / 2))))

/-! ## PLDM, monitoring (17, Table 17-11) -/

def execGetPdrRepositoryInfo (vdm : Bool) (s : State) : Res :=
  .next (s.mctpReply vdm (mctpCode 1 2 0x50) (0 :: leBytes 40 (Config.identity 6)))

/-- GET_PDR: an unknown handle answers INVALID_RECORD_HANDLE. -/
def execGetPdr (vdm : Bool) (handle : Nat) (s : State) : Res :=
  .next (
    let r := Config.pdr handle
    s.mctpReply vdm (mctpCode 1 2 0x51) (if r.isEmpty then [0x82] else 0 :: r))

/-- The power domain of a sensor: a die's own, the CD that controls a memory stack; ED_W never powers down (14, R415). Sensors are
numbered in the order of Table 17-11: 1 package power, 2 to 11 dies, 12 to 27 memory stacks, 28 device state (log 45). -/
def sensorDomain (n : Nat) : Option Nat :=
  if 2 ≤ n && n < 10 then some (n - 2) else if n = 11 then some 8 else if 12 ≤ n && n < 28 then some ((n - 12) % 8) else none

/-- Operational state: 0 enabled, 2 unavailable while the domain is OFF (17, R508). -/
def State.sensorState (s : State) (n : Nat) : Byte := if (sensorDomain n).any fun d => s.domain d == 2 then 2 else 0

/-- Reading of a numeric sensor: W, or 1/16 °C (17, Table 17-11). -/
def State.sensorValue (s : State) (n : Nat) : List Byte :=
  if n = 1 then leBytes 4 (s.obj 0x200001 0 / 1000)
  else if n < 12 then (s.dieTmax.drop (2 * (n - 2))).take 2
  else (s.memTmax.drop (2 * (n - 12))).take 2

/-- Completion code INVALID_SENSOR_ID. -/
def invalidSensor : Byte := 0x80

/-- GET_SENSOR_READING: completion code, operational state, reading. -/
def execGetSensorReading (vdm : Bool) (sensor : Nat) (s : State) : Res :=
  .next (
    if 1 ≤ sensor && sensor ≤ 27 then s.mctpReply vdm (mctpCode 1 2 0x11) ([0, s.sensorState sensor] ++ s.sensorValue sensor)
    else s.mctpReply vdm (mctpCode 1 2 0x11) [invalidSensor])

/-- GET_STATE_SENSOR_READINGS: the device state (17, Table 17-11). -/
def execGetStateSensorReadings (vdm : Bool) (sensor : Nat) (s : State) : Res :=
  .next (
    if sensor = 28 then s.mctpReply vdm (mctpCode 1 2 0x21) ([0, 0] ++ leBytes 1 (devCode s.dev))
    else s.mctpReply vdm (mctpCode 1 2 0x21) [invalidSensor])

end Sys2Proof.Machine
end

