-- ==== Sys2Proof/Machine/Done.lean ====
section
/-! DEFINITION. Ends that every unit shares: @done signals, wait timeouts, and completions of reads of host memory (03, R63; 09, R279, R280;
08, R241). -/

namespace Sys2Proof.Machine

/-! ## Stalls of units (03, R79; 07, R212) -/

/-- The array lacks a slot that slice `c` needs next: for a stationary tile, its current row, or the end of the operation (03, R79; 05,
R125, R128, R132). -/
def State.sliceStuck (s : State) (c : Nat) : Bool :=
  match s.arrOp with
  | none => (s.headOp 0 .array).any fun op => !s.wldOpen op c
  | some o =>
    let p := o.prod
    let pr := Tbl.get ({} : SliceProg) o.prog c
    o.started && match (p.tilesFor c)[pr.tile]? with
      | some t =>
        if p.k = 0 then !p.toQueue && !s.endOpen o c
        else if pr.toLoad.isSome then !s.sharesOpen (p.bShares t) p.transB c t.col0 t.cols
        else (rowsAt p t pr.row).any fun r => !s.rowSlots p t c r (r == 0) (pr.pass + 1 == s.passes p t && !p.toQueue)
      | none => !s.endOpen o c

/-- A unit of CD `c` is at work and owns no slot in the active phase on a resource that it needs next (03, R79; 08, R237, R250; log 29). -/
def State.unitStuck (s : State) (c : Nat) (u : OpUnit) : Bool :=
  (s.headOp (if u = .array then 0 else c) u).any fun o => !o.fin && match u with
    | .array => s.sliceStuck c
    | .dma _ =>
      let d := dmaDesc o.data
      (match nextPiece d o.vals with
        | some (a, _, n) => !s.ownsQueue c u || (d.op ≠ 1 && routeOf a == 0 && !s.memOpen u a n)
        | none => false)
        || s.memory.bursts.any fun b => b.op == o.id && ((b.stage == 1 && !s.linkOpen b)
          || (b.stage == 2 && routeOf b.dst == 0 && !s.memOpen u b.dst b.len))
    | .vec => s.vecStuck c o
    | .xps => !s.xpsOpen c (xpsDesc o.data)
    | .deal => s.dealStuck c o
    | .coll => s.collStuck o
    | .narrow => !s.ownsPort c (o.vals.getD 0 0) u
    | .mvp => (s.mvpOp c).any fun x =>
      let next := (Tbl.get ({} : MvpProg) s.arr.mvp c).next
      if next < (immOf x.2.n + mvpCols x.2 - 1) / max (mvpCols x.2) 1 * s.mvpTiles c x.2 then !s.mvpOpen c x.2 next
      else !s.mvpEndOpen c x.2

/-- What a unit's stall at the limit leaves behind: the operations that can get no slot, or the MMA that no VRUN pairs with, end without
their remaining effects, so that the halt can complete (03, R79; 07, R212; 09, R280; log 140). -/
def State.dropStuck (s : State) (c : Nat) (k : Stall) : State :=
  if k.kind = 5 then
    match s.arrOp with
    | some o => s.dropArr o.id
    | none => s
  else
    let ids := (s.ops.filter fun o => o.cd == c && o.unit ≠ .array && s.unitStuck c o.unit).map (·.id)
    let s := match s.sliceStuck c, s.arrOp, s.headOp 0 .array with
      | true, some o, _ => s.dropArr o.id
      | true, none, some op => (s.dropOps [op.id]).modArr fun a => { a with loads := a.loads.filter (·.1 ≠ op.id) }
      | _, _, _ => s
    let t := { s.dropOps ids with memory := { s.memory with bursts := s.memory.bursts.filter fun b => !ids.contains b.op } }
    let t := t.modQueue c fun q => ids.foldl TileQ.leave q
    if s.unitStuck c .mvp then t.modArr fun a => { a with mvp := Tbl.set {} a.mvp c {} } else t

/-- The stall of a unit on CD `c`, which began when the operation came to its queue's head or the phase became active, the later of the
two (log 150): the tile queue's when an MMA has no VRUN to pair with, else a unit at work without a slot in
the active phase (03, R79; 07, R212). -/
def State.unitStall (s : State) (c : Nat) : Option Stall :=
  let stallOf := fun (kind : Nat) (o : Op) =>
    let t0 := (s.play.map (·.phaseSince)).getD 0
    ({ kind := kind, objKind := 4, object := 0, threshold := 0, since := if o.since.toNat < t0.toNat then t0 else o.since, pc := o.pc } : Stall)
  let tq := match s.arrOp with
    | some o => match (o.prod.tilesFor c)[(Tbl.get ({} : SliceProg) o.prog c).tile]? with
      | none => false
      | some t => o.started && o.prod.toQueue && (s.pairOf o.id c).isNone && !s.bandRoom o.id c ((t.cols + 127) / 128)
    | none => false
  if tq then (s.headOp 0 .array).map (stallOf 5)
  else if s.sliceStuck c then (s.headOp 0 .array).map (stallOf 4)
  else (s.ops.find? fun o => o.cd == c && o.unit ≠ .array && s.isHead o && s.unitStuck c o.unit).map (stallOf 4)

/-! ## SIGNAL_DONE (03, R60, R63) -/

/-- An operation ends, when its unit has done its work: the operations of a unit leave its queue in order (log 156); a vector or transpose unit without a slot waits for a phase that gives one (R79). Adds that waited for its writes leave, and the units behind it go on. -/
def State.opDone (s : State) (o : Op) : State :=
  if !s.isHead o then s
  else match o.unit with
    | .vec => if s.unitStuck o.cd o.unit then s else s.endVector o
    | .xps => if s.unitStuck o.cd o.unit then s else s.endXps o
    | .deal =>
      let s := s.dealTry o.cd
      match s.opById o.id with
      | some p => if p.fin then (s.retire p).dealBegin o.cd else s
      | none => s
    | .coll =>
      let s := s.payOwed o
      match s.opById o.id with
      | some p => if p.fin then s.retire p else s
      | none => s
    | _ => if o.fin then s.retire o else s

/-- SIGNAL_DONE: the writes of an operation are visible, and its @done signals act (03, R63). -/
def execSignalDone (op : Nat) (s : State) : Res :=
  .next (match s.opById op with
    | none => s
    | some o => ((s.opDone o).sendAdds).pumpColls)

/-! ## Wait timeouts (09, R279, R280) -/

/-- The pending register write that waits for a lock or a remote add takes ST_TIMEOUT. -/
def State.timeoutReg (s : State) (c : Nat) (p : Pend → Bool) : State :=
  let late := fun (x : Pend) => if p x then { x with value := some ((statusCode .timeout).setWidth 64) } else x
  s.modSeq c fun q => { q with pend := q.pend.map late }

/-- A timed stall of a sequencer: a LOCK leaves its queue with ST_TIMEOUT; a wait field that holds by now times out no more; any other
wait halts the seat with cause 0x05 (09, R279, R280). -/
def State.stallTimeout (s : State) (c : Nat) (k : Stall) : State :=
  if k.kind = 2 then
    let s := s.timeoutReport c k 1
    let s := { s with sync := { s.sync with
      locks := Tbl.modify {} s.sync.locks k.object fun l => { l with waiters := l.waiters.filter fun w => !(w.1 == s.playSeat && w.2.2 == c) } } }
    (s.modSeq c fun q => { q with stall := none }).timeoutReg c fun p => p.src == .lock && p.value.isNone
  else if k.kind = 1 && !k.conds.isEmpty && k.conds.all (s.condHolds c) then s.modSeq c fun q => { q with stall := none }
  else
    let k := match k.conds.find? fun x => !s.condHolds c x with
      | some x => { s.condStall c x with since := k.since, pc := k.pc, conds := k.conds }
      | none => k
    (s.timeoutReport c k 3).haltPlay 0x05

/-- The oldest TADD.R of a CD whose status is awaited takes ST_TIMEOUT; a status that returns late is discarded. -/
def State.taddTimeout (s : State) (c : Nat) : State :=
  match s.sync.remotes.find? fun r => r.cd == c && !r.dead with
  | none => s
  | some r =>
    let k : Stall := { kind := 3, objKind := 4, object := 0, threshold := 0, since := r.since, pc := r.pc }
    let s := (s.bump 0x610001 32).report 1 0x0108 1 (some r.seat) [] (some .timeout) c [stallRecord s c k (r.seat, r.inc)]
    let s := { s with sync := { s.sync with remotes := s.sync.remotes.map fun q => if q.tag = r.tag then { q with dead := true } else q } }
    if s.play.any (·.seat == r.seat) && (s.seat r.seat).inc = r.inc then
      s.timeoutReg c fun p => p.src == .taddR && p.dst == r.dst && p.value.isNone
    else s

/-- A deal phase or collective that exceeds the limit: counted and recorded, with the time and pc of its command; its place in the record's
first byte is not in Table 9-7, and reads as a free value (log 3). -/
def State.groupTimeout (s : State) (c : Nat) (o : Op) : State :=
  let (v, s) := s.free
  s.timeoutReport c { kind := v.toNat % 256, objKind := 4, object := 0, threshold := 0, since := o.since, pc := o.pc } 1

/-- The oldest command of the PLAYING seat on the collective engine of CD `c` that has not ended: the one whose limit passes first (12, R372). -/
def State.oldestColl (s : State) (c : Nat) : Option Op :=
  s.ops.find? fun o => o.cd == c && o.unit == .coll && o.seat == s.playSeat && !o.fin
    && s.groups.any fun g => g.creating == some o.id || g.colls.any (·.op == o.id)

/-- That command ends with ST_TIMEOUT: a CREATE, or a collective of its group, whose ABORT goes to every member (12, R363, R372). -/
def State.timeoutColl (s : State) (o : Op) : State :=
  match s.groups.find? fun g => g.creating == some o.id || g.colls.any (·.op == o.id) with
  | none => s
  | some g =>
    let s := s.groupTimeout o.cd o
    if g.creating = some o.id then s.finishCreate g .timeout
    else match g.colls.find? (·.op == o.id) with
      | some k => s.failColl g k .timeout
      | none => s

/-- WAIT_TIMEOUT: a wait has lasted for wait_limit; a limit of 0 disables timeouts (09, R279, R280). Only the clock of a PLAYING seat
runs, or that of a seat reset (18, Table 18-4) or an epoch (18, R535). -/
def execWaitTimeout (cd : Cd) (what : WaitKind) (s : State) : Res :=
  .next (
    let c := cd.val
    if s.obj 0x610080 30000000 = 0 then s
    else match what with
      | .epoch n => if s.rel.epochs.any fun x => x.seat == n && x.waiting.isSome then s.abandonEpoch n .timeout else s
      | .tadd => s.taddTimeout c
      | .stall =>
        match s.play, (s.seq c).stall with
        | some _, some k => s.stallTimeout c k
        | _, _ => s
      | .unit =>
        match s.play, s.unitStall c with
        | some _, some k => ((s.timeoutReport c k 3).dropStuck c k).haltPlay 0x05
        | _, _ => s
      | .deal =>
        match s.play, s.groups.find? fun g => g.seat == s.playSeat && (s.phaseOn g c).isSome, s.headOp c .deal with
        | some _, some g, some o => (s.groupTimeout c o).failPhase g c .timeout
        | _, _, _ => s
      | .coll =>
        match s.play, s.oldestColl c with
        | some _, some o => (s.timeoutColl o).pumpColls
        | _, _ => s)

/-! ## Completions of reads of host memory (08, R241; 02, R45; 15, R453; 16, R475) -/

/-- Bytes of an image that UPDATE_STAGE reads go to the stage area through slot 0, as they come (16, R475). -/
def State.stageData (s : State) (bs : List PByte) : State :=
  match s.mgmt.reading with
  | none => s
  | some (img, stage, got) =>
    let b := bs.take (0x2000000 - got)
    { s.writeSlot 0 (stage + got) b with mgmt := { s.mgmt with reading := some (img, stage, got + b.length) } }

/-- HOST_READ_COMPLETION: the data of a read by its tag; EP marks every byte poisoned (08, R241). An image that LOAD reads goes to the code
store, which LOAD_IMAGE_READ judges as a whole. -/
def execHostReadCompletion (tag : Nat) (data : List Byte) (ep : Bool) (s : State) : Res :=
  .next (
    let bs := data.map fun b => (b, ep)
    if tag = 0x1001 then s.stageData bs
    else if tag = 0x2000 then s.deckData bs
    else if 0x8000 ≤ tag then s.burstData (BitVec.ofNat 16 tag) bs
    else s)

end Sys2Proof.Machine
end

