-- ==== Sys2Proof/Machine/Dispatch.lean ====
section
/-! DEFINITION. One arm per command: what each row of spec/opcode_table.json does to everything but the queue. -/

namespace Sys2Proof.Machine

def exec (i : Instr) (s : State) : Host.Outcome State Fault Refusal :=
  match i with
  | .play p seat => Sys2Proof.Machine.execPlay p seat s
  | .halt p seat => Sys2Proof.Machine.execHalt p seat s
  | .resume p seat => Sys2Proof.Machine.execResume p seat s
  | .reset p seat => Sys2Proof.Machine.execReset p seat s
  | .activate seat facts => Sys2Proof.Machine.execActivate seat facts s
  | .activateComplete => Sys2Proof.Machine.execActivateComplete s
  | .seat seat => Sys2Proof.Machine.execSeat seat s
  | .park seat => Sys2Proof.Machine.execPark seat s
  | .release seat => Sys2Proof.Machine.execRelease seat s
  | .releaseScrubComplete => Sys2Proof.Machine.execReleaseScrubComplete s
  | .pin seat => Sys2Proof.Machine.execPin seat s
  | .unpin seat => Sys2Proof.Machine.execUnpin seat s
  | .seatTableWrite reg v => Sys2Proof.Machine.execSeatTableWrite reg v s
  | .registerWrite f off data => Sys2Proof.Machine.execRegisterWrite f off data s
  | .hifEventPop f => Sys2Proof.Machine.execHifEventPop f s
  | .irqCauseClear f v setAgain => Sys2Proof.Machine.execIrqCauseClear f v setAgain s
  | .irqMaskWrite f v => Sys2Proof.Machine.execIrqMaskWrite f v s
  | .mbxInPost f => Sys2Proof.Machine.execMbxInPost f s
  | .messageAccept f => Sys2Proof.Machine.execMessageAccept f s
  | .mbxOutClear f => Sys2Proof.Machine.execMbxOutClear f s
  | .mbxOutWrite f => Sys2Proof.Machine.execMbxOutWrite f s
  | .functionLevelReset f => Sys2Proof.Machine.execFunctionLevelReset f s
  | .vfDisable numVfs => Sys2Proof.Machine.execVfDisable numVfs s
  | .bar2Access write off len data ep => Sys2Proof.Machine.execBar2Access write off len data ep s
  | .seatChoose => Sys2Proof.Machine.execSeatChoose s
  | .seatLoad seat => Sys2Proof.Machine.execSeatLoad seat s
  | .seatSwitch => Sys2Proof.Machine.execSeatSwitch s
  | .seatFirstIssue => Sys2Proof.Machine.execSeatFirstIssue s
  | .seatResetComplete seat => Sys2Proof.Machine.execSeatResetComplete seat s
  | .add iss d a b => Sys2Proof.Machine.execAdd iss d a b s
  | .sub iss d a b => Sys2Proof.Machine.execSub iss d a b s
  | .mul iss d a b => Sys2Proof.Machine.execMul iss d a b s
  | .and iss d a b => Sys2Proof.Machine.execAnd iss d a b s
  | .or iss d a b => Sys2Proof.Machine.execOr iss d a b s
  | .xor iss d a b => Sys2Proof.Machine.execXor iss d a b s
  | .shl iss d a b => Sys2Proof.Machine.execShl iss d a b s
  | .shr iss d a b => Sys2Proof.Machine.execShr iss d a b s
  | .sra iss d a b => Sys2Proof.Machine.execSra iss d a b s
  | .min iss d a b => Sys2Proof.Machine.execMin iss d a b s
  | .max iss d a b => Sys2Proof.Machine.execMax iss d a b s
  | .minu iss d a b => Sys2Proof.Machine.execMinu iss d a b s
  | .maxu iss d a b => Sys2Proof.Machine.execMaxu iss d a b s
  | .mov iss d a => Sys2Proof.Machine.execMov iss d a s
  | .li iss d v => Sys2Proof.Machine.execLi iss d v s
  | .cmpCc iss cc d a b => Sys2Proof.Machine.execCmpCc iss cc d a b s
  | .ldN iss d off => Sys2Proof.Machine.execLdN iss d off s
  | .stN iss off v => Sys2Proof.Machine.execStN iss off v s
  | .ldC iss d off => Sys2Proof.Machine.execLdC iss d off s
  | .cdid iss d => Sys2Proof.Machine.execCdid iss d s
  | .rdcyc iss d => Sys2Proof.Machine.execRdcyc iss d s
  | .rdtime iss d => Sys2Proof.Machine.execRdtime iss d s
  | .rdtel iss d => Sys2Proof.Machine.execRdtel iss d s
  | .seedHw iss d => Sys2Proof.Machine.execSeedHw iss d s
  | .registerResultLand cd d => Sys2Proof.Machine.execRegisterResultLand cd d s
  | .vlen iss v => Sys2Proof.Machine.execVlen iss v s
  | .vrun iss a => Sys2Proof.Machine.execVrun iss a s
  | .vred iss op d a => Sys2Proof.Machine.execVred iss op d a s
  | .wld iss a => Sys2Proof.Machine.execWld iss a s
  | .mma iss a => Sys2Proof.Machine.execMma iss a s
  | .mmag iss a => Sys2Proof.Machine.execMmag iss a s
  | .mvp iss a => Sys2Proof.Machine.execMvp iss a s
  | .dma iss engine desc => Sys2Proof.Machine.execDma iss engine desc s
  | .xps iss desc => Sys2Proof.Machine.execXps iss desc s
  | .dealCnt iss desc => Sys2Proof.Machine.execDealCnt iss desc s
  | .dealXch iss desc => Sys2Proof.Machine.execDealXch iss desc s
  | .dealCap iss desc => Sys2Proof.Machine.execDealCap iss desc s
  | .dealGth iss desc => Sys2Proof.Machine.execDealGth iss desc s
  | .dealCmb iss desc => Sys2Proof.Machine.execDealCmb iss desc s
  | .allReduce iss desc => Sys2Proof.Machine.execAllReduce iss desc s
  | .reduceScatter iss desc => Sys2Proof.Machine.execReduceScatter iss desc s
  | .allGather iss desc => Sys2Proof.Machine.execAllGather iss desc s
  | .broadcast iss desc => Sys2Proof.Machine.execBroadcast iss desc s
  | .reduce iss desc => Sys2Proof.Machine.execReduce iss desc s
  | .allToAll iss desc => Sys2Proof.Machine.execAllToAll iss desc s
  | .barrier iss desc => Sys2Proof.Machine.execBarrier iss desc s
  | .digest iss desc => Sys2Proof.Machine.execDigest iss desc s
  | .create iss desc => Sys2Proof.Machine.execCreate iss desc s
  | .destroy iss desc => Sys2Proof.Machine.execDestroy iss desc s
  | .nop iss => Sys2Proof.Machine.execNop iss s
  | .tadd iss t amount => Sys2Proof.Machine.execTadd iss t amount s
  | .tld iss d t => Sys2Proof.Machine.execTld iss d t s
  | .fset iss n => Sys2Proof.Machine.execFset iss n s
  | .fclr iss n => Sys2Proof.Machine.execFclr iss n s
  | .lock iss d n => Sys2Proof.Machine.execLock iss d n s
  | .lockStatus cd => Sys2Proof.Machine.execLockStatus cd s
  | .unlock iss n => Sys2Proof.Machine.execUnlock iss n s
  | .unlockRelease cd => Sys2Proof.Machine.execUnlockRelease cd s
  | .loop iss lvl count last lastBytes => Sys2Proof.Machine.execLoop iss lvl count last lastBytes s
  | .b iss target => Sys2Proof.Machine.execB iss target s
  | .bCc iss cc a b target => Sys2Proof.Machine.execBCc iss cc a b target s
  | .bgCc iss cc a b target => Sys2Proof.Machine.execBgCc iss cc a b target s
  | .rdx iss tag op g a => Sys2Proof.Machine.execRdx iss tag op g a s
  | .setph iss tag n => Sys2Proof.Machine.execSetph iss tag n s
  | .swpt iss tag k => Sys2Proof.Machine.execSwpt iss tag k s
  | .swptDrainEnd => Sys2Proof.Machine.execSwptDrainEnd s
  | .end_ iss tag => Sys2Proof.Machine.execEnd iss tag s
  | .endComplete => Sys2Proof.Machine.execEndComplete s
  | .taddR iss d group rank n amount => Sys2Proof.Machine.execTaddR iss d group rank n amount s
  | .fetchFault cd => Sys2Proof.Machine.execFetchFault cd s
  | .gangPoint => Sys2Proof.Machine.execGangPoint s
  | .haltComplete => Sys2Proof.Machine.execHaltComplete s
  | .signalDone op => Sys2Proof.Machine.execSignalDone op s
  | .tallyAddApply unit => Sys2Proof.Machine.execTallyAddApply unit s
  | .waitTimeout cd what => Sys2Proof.Machine.execWaitTimeout cd what s
  | .phaseChange => Sys2Proof.Machine.execPhaseChange s
  | .arrayOperationStart => Sys2Proof.Machine.execArrayOperationStart s
  | .checkColumnCompare cd tile row bad => Sys2Proof.Machine.execCheckColumnCompare cd tile row bad s
  | .checkRowReadd cd tile bad => Sys2Proof.Machine.execCheckRowReadd cd tile bad s
  | .arrayOperationEnd => Sys2Proof.Machine.execArrayOperationEnd s
  | .softJokerAssign cd row index => Sys2Proof.Machine.execSoftJokerAssign cd row index s
  | .mvpCompare cd tile differ => Sys2Proof.Machine.execMvpCompare cd tile differ s
  | .mvpEnd cd => Sys2Proof.Machine.execMvpEnd cd s
  | .tileBandClaim cd => Sys2Proof.Machine.execTileBandClaim cd s
  | .tileEntryAvailable cd => Sys2Proof.Machine.execTileEntryAvailable cd s
  | .tileEntryConsume cd => Sys2Proof.Machine.execTileEntryConsume cd s
  | .dmaBurstStart cd engine => Sys2Proof.Machine.execDmaBurstStart cd engine s
  | .stagingForward burst => Sys2Proof.Machine.execStagingForward burst s
  | .burstCommit burst => Sys2Proof.Machine.execBurstCommit burst s
  | .correctedWriteback m sector => Sys2Proof.Machine.execCorrectedWriteback m sector s
  | .scrubStep m errs => Sys2Proof.Machine.execScrubStep m errs s
  | .refresh m channel => Sys2Proof.Machine.execRefresh m channel s
  | .refreshMultiplierChange m temp => Sys2Proof.Machine.execRefreshMultiplierChange m temp s
  | .ftBandModeWrite ch v => Sys2Proof.Machine.execFtBandModeWrite ch v s
  | .tallyRegionWrite off v => Sys2Proof.Machine.execTallyRegionWrite off v s
  | .dbgSyncSelWrite v => Sys2Proof.Machine.execDbgSyncSelWrite v s
  | .frameSend sl payload => Sys2Proof.Machine.execFrameSend sl payload s
  | .frameReceive sl beats spares => Sys2Proof.Machine.execFrameReceive sl beats spares s
  | .linkLock sl beats spares => Sys2Proof.Machine.execLinkLock sl beats spares s
  | .acceptanceCount sl accepted ringRows => Sys2Proof.Machine.execAcceptanceCount sl accepted ringRows s
  | .controlMessageRelease sl beat => Sys2Proof.Machine.execControlMessageRelease sl beat s
  | .linkFail link slice dir => Sys2Proof.Machine.execLinkFail link slice dir s
  | .wireRepair sl wire => Sys2Proof.Machine.execWireRepair sl wire s
  | .flitSend tp => Sys2Proof.Machine.execFlitSend tp s
  | .flitReceive tp got => Sys2Proof.Machine.execFlitReceive tp got s
  | .nakRepeatTimer tp => Sys2Proof.Machine.execNakRepeatTimer tp s
  | .ackTimeout tp => Sys2Proof.Machine.execAckTimeout tp s
  | .creditPartialReturn tp bulk => Sys2Proof.Machine.execCreditPartialReturn tp bulk s
  | .portTraining port => Sys2Proof.Machine.execPortTraining port s
  | .trainingTimeout port => Sys2Proof.Machine.execTrainingTimeout port s
  | .failedRetry port => Sys2Proof.Machine.execFailedRetry port s
  | .helloSend tp => Sys2Proof.Machine.execHelloSend tp s
  | .hello tp m => Sys2Proof.Machine.execHello tp m s
  | .closingFlit tp => Sys2Proof.Machine.execClosingFlit tp s
  | .keyReady tp generation confirm nonce => Sys2Proof.Machine.execKeyReady tp generation confirm nonce s
  | .write p => Sys2Proof.Machine.execWrite p s
  | .writeAck p => Sys2Proof.Machine.execWriteAck p s
  | .readReq p => Sys2Proof.Machine.execReadReq p s
  | .readData p => Sys2Proof.Machine.execReadData p s
  | .taddPacket p => Sys2Proof.Machine.execTaddPacket p s
  | .taddStatus p => Sys2Proof.Machine.execTaddStatus p s
  | .collData p => Sys2Proof.Machine.execCollData p s
  | .createRecord r => Sys2Proof.Machine.execCreateRecord r s
  | .ready r => Sys2Proof.Machine.execReady r s
  | .credit r => Sys2Proof.Machine.execCredit r s
  | .doneRecord r => Sys2Proof.Machine.execDoneRecord r s
  | .abort r => Sys2Proof.Machine.execAbort r s
  | .digestRecord r => Sys2Proof.Machine.execDigestRecord r s
  | .dealCount p => Sys2Proof.Machine.execDealCount p s
  | .dealRow p => Sys2Proof.Machine.execDealRow p s
  | .mbxPacket m => Sys2Proof.Machine.execMbxPacket m s
  | .notice p => Sys2Proof.Machine.execNotice p s
  | .packetUnknownOp p => Sys2Proof.Machine.execPacketUnknownOp p s
  | .spineDataFrame port fr => Sys2Proof.Machine.execSpineDataFrame port fr s
  | .spineAckFrame port fr => Sys2Proof.Machine.execSpineAckFrame port fr s
  | .spineAckTimer conn bulk => Sys2Proof.Machine.execSpineAckTimer conn bulk s
  | .retransmitTimeout conn bulk psn => Sys2Proof.Machine.execRetransmitTimeout conn bulk psn s
  | .ctrlOpen m => Sys2Proof.Machine.execCtrlOpen m s
  | .openAck m => Sys2Proof.Machine.execOpenAck m s
  | .redirect m => Sys2Proof.Machine.execRedirect m s
  | .close m => Sys2Proof.Machine.execClose m s
  | .closeAck m => Sys2Proof.Machine.execCloseAck m s
  | .ctrlResendTimer conn => Sys2Proof.Machine.execCtrlResendTimer conn s
  | .neighborDiscovery port dstAddr echo => Sys2Proof.Machine.execNeighborDiscovery port dstAddr echo s
  | .reportSendTimer => Sys2Proof.Machine.execReportSendTimer s
  | .rosterSendTimer => Sys2Proof.Machine.execRosterSendTimer s
  | .report m => Sys2Proof.Machine.execReport m s
  | .roster m => Sys2Proof.Machine.execRoster m s
  | .claim m => Sys2Proof.Machine.execClaim m s
  | .reportTimeout pos => Sys2Proof.Machine.execReportTimeout pos s
  | .claimTimer => Sys2Proof.Machine.execClaimTimer s
  | .promoteSlot ch n => Sys2Proof.Machine.execPromoteSlot ch n s
  | .syncIntervalTimer => Sys2Proof.Machine.execSyncIntervalTimer s
  | .sync m => Sys2Proof.Machine.execSync m s
  | .followUp m => Sys2Proof.Machine.execFollowUp m s
  | .delayReq m => Sys2Proof.Machine.execDelayReq m s
  | .delayResp m => Sys2Proof.Machine.execDelayResp m s
  | .exchangeTimeout => Sys2Proof.Machine.execExchangeTimeout s
  | .slewEnd => Sys2Proof.Machine.execSlewEnd s
  | .holdoverEntry => Sys2Proof.Machine.execHoldoverEntry s
  | .ptpSync seq twoStep seconds nanos ingress => Sys2Proof.Machine.execPtpSync seq twoStep seconds nanos ingress s
  | .ptpFollowUp seq seconds nanos => Sys2Proof.Machine.execPtpFollowUp seq seconds nanos s
  | .ptpDelayResp seq seconds nanos => Sys2Proof.Machine.execPtpDelayResp seq seconds nanos s
  | .ptpAnnounce grandmaster rank arb domain => Sys2Proof.Machine.execPtpAnnounce grandmaster rank arb domain s
  | .crystalStable => Sys2Proof.Machine.execCrystalStable s
  | .crystalTimeout => Sys2Proof.Machine.execCrystalTimeout s
  | .referenceLoss => Sys2Proof.Machine.execReferenceLoss s
  | .clkCclkDivWrite v => Sys2Proof.Machine.execClkCclkDivWrite v s
  | .dividerChange => Sys2Proof.Machine.execDividerChange s
  | .powerBrakeAssert => Sys2Proof.Machine.execPowerBrakeAssert s
  | .powerBrakeRelease => Sys2Proof.Machine.execPowerBrakeRelease s
  | .thermalThrottle memory temp => Sys2Proof.Machine.execThermalThrottle memory temp s
  | .thermalThrottleEnd memory temp => Sys2Proof.Machine.execThermalThrottleEnd memory temp s
  | .thermtrip temp => Sys2Proof.Machine.execThermtrip temp s
  | .ledgerIntervalEnd rs => Sys2Proof.Machine.execLedgerIntervalEnd rs s
  | .budgetReport => Sys2Proof.Machine.execBudgetReport s
  | .budgetGrant die => Sys2Proof.Machine.execBudgetGrant die s
  | .grantMissFallback die => Sys2Proof.Machine.execGrantMissFallback die s
  | .reportMiss die => Sys2Proof.Machine.execReportMiss die s
  | .avsStepDone rail readMv => Sys2Proof.Machine.execAvsStepDone rail readMv s
  | .avsStepTimeout rail => Sys2Proof.Machine.execAvsStepTimeout rail s
  | .pmbusPoll rail faultBit tel answered => Sys2Proof.Machine.execPmbusPoll rail faultBit tel answered s
  | .clockGate dom => Sys2Proof.Machine.execClockGate dom s
  | .domainClose dom => Sys2Proof.Machine.execDomainClose dom s
  | .domainOff dom => Sys2Proof.Machine.execDomainOff dom s
  | .closeTimeout dom => Sys2Proof.Machine.execCloseTimeout dom s
  | .domainOpen dom => Sys2Proof.Machine.execDomainOpen dom s
  | .dozeRequest ch => Sys2Proof.Machine.execDozeRequest ch s
  | .wakeNLow => Sys2Proof.Machine.execWakeNLow s
  | .wakeRequest ch => Sys2Proof.Machine.execWakeRequest ch s
  | .dozeTimerExpiry => Sys2Proof.Machine.execDozeTimerExpiry s
  | .powerOn => Sys2Proof.Machine.execPowerOn s
  | .supplyFault rail => Sys2Proof.Machine.execSupplyFault rail s
  | .resetNAssert => Sys2Proof.Machine.execResetNAssert s
  | .resetNRelease => Sys2Proof.Machine.execResetNRelease s
  | .perstNAssert => Sys2Proof.Machine.execPerstNAssert s
  | .perstNRelease => Sys2Proof.Machine.execPerstNRelease s
  | .pcieLinkDown => Sys2Proof.Machine.execPcieLinkDown s
  | .resetRequestWarm ch seq => Sys2Proof.Machine.execResetRequestWarm ch seq s
  | .resetRequestCold ch seq => Sys2Proof.Machine.execResetRequestCold ch seq s
  | .pwrResetReqWarm => Sys2Proof.Machine.execPwrResetReqWarm s
  | .pwrResetReqCold => Sys2Proof.Machine.execPwrResetReqCold s
  | .pwrResetReqRecovery reason => Sys2Proof.Machine.execPwrResetReqRecovery reason s
  | .jtagReset => Sys2Proof.Machine.execJtagReset s
  | .blockReset block => Sys2Proof.Machine.execBlockReset block s
  | .boardRecordWrite ch data readBackOk => Sys2Proof.Machine.execBoardRecordWrite ch data readBackOk s
  | .load f seq => Sys2Proof.Machine.execLoad f seq s
  | .loadImageRead r facts => Sys2Proof.Machine.execLoadImageRead r facts s
  | .fwWatchdogExpiry core => Sys2Proof.Machine.execFwWatchdogExpiry core s
  | .watchdogKick core v => Sys2Proof.Machine.execWatchdogKick core v s
  | .componentFault comp ownReport crcOk => Sys2Proof.Machine.execComponentFault comp ownReport crcOk s
  | .open_ f seq => Sys2Proof.Machine.execOpen f seq s
  | .tallyAdd f seq => Sys2Proof.Machine.execTallyAdd f seq s
  | .object f seq => Sys2Proof.Machine.execObject f seq s
  | .updateStage f seq => Sys2Proof.Machine.execUpdateStage f seq s
  | .updateCommit f seq => Sys2Proof.Machine.execUpdateCommit f seq s
  | .componentHandover => Sys2Proof.Machine.execComponentHandover s
  | .updateCancel f seq => Sys2Proof.Machine.execUpdateCancel f seq s
  | .telemetrySample inTime => Sys2Proof.Machine.execTelemetrySample inTime s
  | .coreBusyWindow busy => Sys2Proof.Machine.execCoreBusyWindow busy s
  | .openSession ch m => Sys2Proof.Machine.execOpenSession ch m s
  | .closeSession ch m => Sys2Proof.Machine.execCloseSession ch m s
  | .kdpRead ch m => Sys2Proof.Machine.execKdpRead ch m s
  | .kdpWrite ch m => Sys2Proof.Machine.execKdpWrite ch m s
  | .writeIf ch m => Sys2Proof.Machine.execWriteIf ch m s
  | .describe ch m => Sys2Proof.Machine.execDescribe ch m s
  | .keepalive ch m => Sys2Proof.Machine.execKeepalive ch m s
  | .sessionIdleTimeout session => Sys2Proof.Machine.execSessionIdleTimeout session s
  | .snapshotLapse ch session => Sys2Proof.Machine.execSnapshotLapse ch session s
  | .stagingLapse ch session => Sys2Proof.Machine.execStagingLapse ch session s
  | .dtlsHandshake expertChain basicChain peer addr => Sys2Proof.Machine.execDtlsHandshake expertChain basicChain peer addr s
  | .objectWrite ch index sub data => Sys2Proof.Machine.execObjectWrite ch index sub data s
  | .powerCapWrite ch v => Sys2Proof.Machine.execPowerCapWrite ch v s
  | .tpEnableWrite ch port v => Sys2Proof.Machine.execTpEnableWrite ch port v s
  | .spAddressWrite ch q gateway v => Sys2Proof.Machine.execSpAddressWrite ch q gateway v s
  | .logClear ch v => Sys2Proof.Machine.execLogClear ch v s
  | .foldRequest ch v => Sys2Proof.Machine.execFoldRequest ch v s
  | .sessionClose ch session => Sys2Proof.Machine.execSessionClose ch session s
  | .anchorWrite ch expert v => Sys2Proof.Machine.execAnchorWrite ch expert v s
  | .kdpEnableWrite ch v => Sys2Proof.Machine.execKdpEnableWrite ch v s
  | .fabricSecret ch v => Sys2Proof.Machine.execFabricSecret ch v s
  | .keySlotClear ch slot => Sys2Proof.Machine.execKeySlotClear ch slot s
  | .floorRaise ch v => Sys2Proof.Machine.execFloorRaise ch v s
  | .debugToken ch m => Sys2Proof.Machine.execDebugToken ch m s
  | .seatBreakpoint ch seat entry mask pc enable => Sys2Proof.Machine.execSeatBreakpoint ch seat entry mask pc enable s
  | .breakpointHit cd => Sys2Proof.Machine.execBreakpointHit cd s
  | .setEndpointId vdm eid => Sys2Proof.Machine.execSetEndpointId vdm eid s
  | .getEndpointId vdm => Sys2Proof.Machine.execGetEndpointId vdm s
  | .getMctpVersionSupport vdm msgType => Sys2Proof.Machine.execGetMctpVersionSupport vdm msgType s
  | .getMessageTypeSupport vdm => Sys2Proof.Machine.execGetMessageTypeSupport vdm s
  | .getVendorDefinedMessageSupport vdm selector => Sys2Proof.Machine.execGetVendorDefinedMessageSupport vdm selector s
  | .getTid vdm => Sys2Proof.Machine.execGetTid vdm s
  | .setTid vdm tid => Sys2Proof.Machine.execSetTid vdm tid s
  | .getPldmTypes vdm => Sys2Proof.Machine.execGetPldmTypes vdm s
  | .getPldmCommands vdm ptype => Sys2Proof.Machine.execGetPldmCommands vdm ptype s
  | .getPldmVersion vdm ptype => Sys2Proof.Machine.execGetPldmVersion vdm ptype s
  | .getPdrRepositoryInfo vdm => Sys2Proof.Machine.execGetPdrRepositoryInfo vdm s
  | .getPdr vdm handle => Sys2Proof.Machine.execGetPdr vdm handle s
  | .getSensorReading vdm sensor => Sys2Proof.Machine.execGetSensorReading vdm sensor s
  | .getStateSensorReadings vdm sensor => Sys2Proof.Machine.execGetStateSensorReadings vdm sensor s
  | .getMeasurements vdm index => Sys2Proof.Machine.execGetMeasurements vdm index s
  | .ppr ch stack channel pseudo bank row => Sys2Proof.Machine.execPpr ch stack channel pseudo bank row s
  | .repairStepEnd good spareLeft => Sys2Proof.Machine.execRepairStepEnd good spareLeft s
  | .retrain ch port => Sys2Proof.Machine.execRetrain ch port s
  | .sweep ch => Sys2Proof.Machine.execSweep ch s
  | .restoreByEpoch ch seat epoch => Sys2Proof.Machine.execRestoreByEpoch ch seat epoch s
  | .restoreByHeartbeat ch seat heartbeat => Sys2Proof.Machine.execRestoreByHeartbeat ch seat heartbeat s
  | .restoreQuery ch seat => Sys2Proof.Machine.execRestoreQuery ch seat s
  | .restoreComplete seat => Sys2Proof.Machine.execRestoreComplete seat s
  | .scrubFar ch => Sys2Proof.Machine.execScrubFar ch s
  | .scrubNear ch => Sys2Proof.Machine.execScrubNear ch s
  | .scrubSlab ch => Sys2Proof.Machine.execScrubSlab ch s
  | .shadowSet ch seat all mask => Sys2Proof.Machine.execShadowSet ch seat all mask s
  | .dummyPool ch mask => Sys2Proof.Machine.execDummyPool ch mask s
  | .epochOpen => Sys2Proof.Machine.execEpochOpen s
  | .dummyOpen m => Sys2Proof.Machine.execDummyOpen m s
  | .dummyClose m => Sys2Proof.Machine.execDummyClose m s
  | .dummyNotice m => Sys2Proof.Machine.execDummyNotice m s
  | .dummyScrubEnd base => Sys2Proof.Machine.execDummyScrubEnd base s
  | .rekeyDue port => Sys2Proof.Machine.execRekeyDue port s
  | .blockResetComplete => Sys2Proof.Machine.execBlockResetComplete s
  | .railGood rail => Sys2Proof.Machine.execRailGood rail s
  | .portTrainingComplete port => Sys2Proof.Machine.execPortTrainingComplete port s
  | .fecAlignmentLoss port => Sys2Proof.Machine.execFecAlignmentLoss port s
  | .pmbAlertNChange low => Sys2Proof.Machine.execPmbAlertNChange low s
  | .watchdogRestartTimeout core => Sys2Proof.Machine.execWatchdogRestartTimeout core s
  | .clockUngate dom => Sys2Proof.Machine.execClockUngate dom s
  | .hostReadCompletion tag data ep => Sys2Proof.Machine.execHostReadCompletion tag data ep s
  | .vfEnable numVfs => Sys2Proof.Machine.execVfEnable numVfs s
  | .updateStaged r facts => Sys2Proof.Machine.execUpdateStaged r facts s
  | .ptpMasterLoss => Sys2Proof.Machine.execPtpMasterLoss s
  | .mgmtLinkChange state => Sys2Proof.Machine.execMgmtLinkChange state s
  | .keyExchange vdm eid mutualAuth expertChain => Sys2Proof.Machine.execKeyExchange vdm eid mutualAuth expertChain s
  | .resetDelayExpiry => Sys2Proof.Machine.execResetDelayExpiry s
  | .msiXTableWrite f vector masked => Sys2Proof.Machine.execMsiXTableWrite f vector masked s

end Sys2Proof.Machine
end

