-- ==== Sys2Proof/Machine/Tick.lean ====
section
/-! DEFINITION. One TCLK cycle: the timebase advances (13, R386, R393), and cyc of the PLAYING seat's sequencers counts the
CCLK cycles that pass (03, Table 3-1; 14, Table 14-2). -/

namespace Sys2Proof.Machine

/-- The 32-bit fraction units that one TCLK cycle adds to the timebase: 4 ns × (1 + f + s), f in parts per 10⁹ and s in
parts per 10⁶ (13, R386). -/
def tickUnits (freq slew : Int) : Int := 4 * 2 ^ 32 + 4 * 2 ^ 32 * (freq + 1000 * slew) / 1000000000

/-- The timebase after one TCLK cycle; a slew acts while a correction remains (13, R386, R393). -/
def Time.tick (t : Time) : Time :=
  let total := t.ns.toNat * 2 ^ 32 + t.frac.toNat + (tickUnits t.freq (if t.remaining = 0 then 0 else t.slew)).toNat
  -- one cycle of slew removes 4 ns × 500 ppm = 2 ps; the remaining correction is kept in ps
  let left := if t.slew = 0 then t.remaining else if t.remaining < 0 then min 0 (t.remaining + 2) else max 0 (t.remaining - 2)
  { t with ns := BitVec.ofNat 64 (total / 2 ^ 32), frac := BitVec.ofNat 32 (total % 2 ^ 32)
           remaining := left }

/-- The step that is due takes effect: the timebase moves by −offset, a slew in progress ends, and exchanges whose stamps straddle the step are
invalid (13, R389, R394, R396). -/
def Time.edge (t : Time) : Time :=
  match t.stepDue with
  | none => t
  | some (off, e) => { t with
      ns := BitVec.ofInt 64 (t.ns.toNat - off), epoch := e, slew := 0, remaining := 0, stepDue := none
      exchs := t.exchs.map fun x => { x with ok := false } }

/-- TCLK is stopped, and the keeper domain counts the crystal: in DOZE, in a held reset and in device recovery (13, R388; 14,
R406; log 177). -/
def State.keeperCounts (s : State) : Bool :=
  s.dev == .doze || s.dev == .recovering || (s.clk.source == 2 && s.boot.held.isSome)

/-- CCLK cycles of one TCLK cycle at divider `d`: 32 root cycles, with the rest carried (14, Table 14-2). -/
def cclkCycles (phase d : Nat) : Nat × Nat := ((phase + 32) / d, (phase + 32) % d)

/-- One step on an empty queue: a TCLK cycle, with the step that is due at its edge; while TCLK is stopped, a crystal period of 20 ns (log 1, log 177).
A lock of the root PLL in progress ends (14, Table 14-1 step 4).
Before the crystal is stable nothing advances (14, R406), and after THERMTRIP_N every clock has stopped (14, R428). -/
def tick (s : State) : State :=
  if s.clk.source = 0 || s.power.tripLow then s
  else if s.clk.source = 1 then State.pllLocked { s with time := { s.time with ns := s.time.ns + 20 }.edge }
  else if s.keeperCounts then { s with time := { s.time with ns := s.time.ns + 20 }.edge }
  else
  let t := s.time.tick.edge
  if s.play.isNone then { s with time := t }
  else
    let (n, ph) := cclkCycles t.cclkPhase (max s.clk.div 1)
    { s with
      time := { t with cclkPhase := ph }
      seqs := (List.range 8).foldl (fun q c => Tbl.modify {} q c fun x =>
        { x with ctx := { x.ctx with cyc := x.ctx.cyc + BitVec.ofNat 64 n } }) s.seqs }

end Sys2Proof.Machine
end

