-- ==== Sys2Proof/WellFormed.lean ====
section
/-! DEFINITION. Well-formed commands: the operand ranges that the chapters fix and that the operand types do not. A command
that is not well-formed names something that does not exist, so no sender can send it. -/

namespace Sys2Proof

/-! ## Ranges -/

/-- A seat index, 0 to 4,095 (02, R38). -/
def seatOk (n : Nat) : Bool := decide (n < 4096)
/-- A table port, 0 to 33 (18, Table 18-3). -/
def tablePortOk (n : Nat) : Bool := decide (n < 34)
/-- A spine port, 64 to 71 (18, Table 18-3). -/
def spinePortOk (n : Nat) : Bool := decide (64 ≤ n) && decide (n < 72)
/-- A port of either kind. -/
def portOk (n : Nat) : Bool := tablePortOk n || spinePortOk n
/-- A spine connection, 0 to 2,047 (11, R336). -/
def connOk (n : Nat) : Bool := decide (n < 2048)
/-- A position, 0 to 17 (12, R341). -/
def positionOk (n : Nat) : Bool := decide (n < 18)
/-- A sector of a memory: slab 0x0A00_0000 bytes, near tier 8 GiB, far-tier stack 48 GiB, in sectors of 64 bytes (08, Table 8-1). -/
def sectorOk : MemUnit → Nat → Bool
  | .slab _, n => decide (n * 64 < 0x0A000000)
  | .near _, n => decide (n * 64 < 0x200000000)
  | .far _, n => decide (n * 64 < 0xC00000000)
/-- A value of `w` bits. -/
def fits (w n : Nat) : Bool := decide (n < 2 ^ w)

/-! ## Fields that several commands carry -/

/-- The immediate amount of TADD and TADD.R is 1 to 255 (09, R258). -/
def addAmountOk : Src → Bool
  | .imm v => decide (1 ≤ v.toNat) && decide (v.toNat ≤ 255)
  | _ => true

/-- A signal adds 1 to 255 to a tally (03, Table 3-2). -/
def targetOk : Target → Bool
  | .cdTally _ _ a | .pkgTally _ a => decide (a ≠ 0)
  | .flag _ _ | .host _ => true

/-- What every instruction carries: at least one byte, at most two conditions, a signal of Table 3-2 (03, R62, R63). -/
def Issue.wellFormed (i : Issue) : Bool :=
  decide (0 < i.bytes) && decide (i.waits.length ≤ 2) && i.signal.all fun g => targetOk g.target

/-- VRUN and VRED name at most four parameter registers (07, section 7.2). -/
def VrunArgs.wellFormed (a : VrunArgs) : Bool := decide (a.params.length ≤ 4)

/-- A packet: a status field of 8 bits is a type; positions of 8 bits, and at most 4,096 bytes of data (11, Table 11-5). -/
def Packet.wellFormed (p : Packet) : Bool :=
  fits 8 p.srcPos && fits 8 p.dstPos && decide (p.data.length ≤ 4096) && decide (p.reqLen ≤ 4096)

/-- What arrives in a flit time: at most seven blocks before a flit, and its eight (11, R309). -/
def FlitGot.wellFormed (f : FlitGot) : Bool := decide (f.blocks.length ≤ 15)

/-- A channel's MCTP endpoint ID has 8 bits (17, R506). -/
def Channel.wellFormed : Channel → Bool
  | .mailbox _ => true
  | .net a => decide (a < 8)
  | .mctp _ eid _ => fits 8 eid

/-- A KDP request: index 16 bits, sub-index 8, offset 32, length 16, at most 1,216 bytes of data (17, Table 17-5, R497). -/
def KdpMsg.wellFormed (m : KdpMsg) : Bool :=
  fits 16 m.index && fits 8 m.sub && fits 32 m.offset && fits 16 m.length && decide (m.data.length ≤ 1216)

/-- A record of a collective: a rank of 10 bits, a seat of 12 (12, R361, Table 12-6). -/
def CollRec.wellFormed (r : CollRec) : Bool := fits 16 r.rank && fits 32 r.sequence

/-- A spine CTRL payload names a connection of 0 to 2,047 (12, Table 12-3; 11, R336). -/
def CtrlMsg.wellFormed (m : CtrlMsg) : Bool := connOk m.connection

/-- A REPORT, ROSTER or CLAIM comes from a position of the table and holds 18 entries at most (12, Table 12-2). -/
def RosterMsg.wellFormed (m : RosterMsg) : Bool := positionOk m.sender && decide (m.entries.length ≤ 18) && decide (m.records.length ≤ 16)

/-- The operands of a command lie in the ranges that the chapters give. -/
def Instr.wellFormed : Instr → Bool
  | .play _ k => seatOk k
  | .halt _ k => seatOk k
  | .resume _ k => seatOk k
  | .reset _ k => seatOk k
  | .activate k _ => seatOk k
  | .seat k => seatOk k
  | .park k => seatOk k
  | .release k => seatOk k
  | .pin k => seatOk k
  | .unpin k => seatOk k
  | .registerWrite f off data => fits (if f.val = 0 then 26 else 12) off && (data.length == 4 || data.length == 8)
  | .vfDisable n => decide (n < 64)
  | .bar2Access wr _ len data _ => decide (0 < len) && (!wr || data.length == len)
  | .seatLoad k => seatOk k
  | .seatResetComplete k => seatOk k
  | .add i _ _ _ => i.wellFormed
  | .sub i _ _ _ => i.wellFormed
  | .mul i _ _ _ => i.wellFormed
  | .and i _ _ _ => i.wellFormed
  | .or i _ _ _ => i.wellFormed
  | .xor i _ _ _ => i.wellFormed
  | .shl i _ _ _ => i.wellFormed
  | .shr i _ _ _ => i.wellFormed
  | .sra i _ _ _ => i.wellFormed
  | .min i _ _ _ => i.wellFormed
  | .max i _ _ _ => i.wellFormed
  | .minu i _ _ _ => i.wellFormed
  | .maxu i _ _ _ => i.wellFormed
  | .mov i _ _ => i.wellFormed
  | .li i _ _ => i.wellFormed
  | .cmpCc i _ _ _ _ => i.wellFormed
  | .ldN i _ _ => i.wellFormed
  | .stN i _ _ => i.wellFormed
  | .ldC i _ _ => i.wellFormed
  | .cdid i _ => i.wellFormed
  | .rdcyc i _ => i.wellFormed
  | .rdtime i _ => i.wellFormed
  | .rdtel i _ => i.wellFormed
  | .seedHw i _ => i.wellFormed
  | .vlen i _ => i.wellFormed
  | .vrun i a => i.wellFormed && a.wellFormed
  | .vred i _ _ a => i.wellFormed && a.wellFormed
  | .wld i _ => i.wellFormed
  | .mma i _ => i.wellFormed
  | .mmag i _ => i.wellFormed
  | .mvp i _ => i.wellFormed
  | .dma i _ _ => i.wellFormed
  | .xps i _ => i.wellFormed
  | .dealCnt i _ => i.wellFormed
  | .dealXch i _ => i.wellFormed
  | .dealCap i _ => i.wellFormed
  | .dealGth i _ => i.wellFormed
  | .dealCmb i _ => i.wellFormed
  | .allReduce i _ => i.wellFormed
  | .reduceScatter i _ => i.wellFormed
  | .allGather i _ => i.wellFormed
  | .broadcast i _ => i.wellFormed
  | .reduce i _ => i.wellFormed
  | .allToAll i _ => i.wellFormed
  | .barrier i _ => i.wellFormed
  | .digest i _ => i.wellFormed
  | .create i _ => i.wellFormed
  | .destroy i _ => i.wellFormed
  | .nop i  => i.wellFormed
  | .tadd i _ a => i.wellFormed && addAmountOk a
  | .tld i _ _ => i.wellFormed
  | .fset i _ => i.wellFormed
  | .fclr i _ => i.wellFormed
  | .lock i _ _ => i.wellFormed
  | .unlock i _ => i.wellFormed
  | .loop i _ _ _ lastBytes => i.wellFormed && decide (0 < lastBytes)
  | .b i _ => i.wellFormed
  | .bCc i _ _ _ _ => i.wellFormed
  | .bgCc i _ _ _ _ => i.wellFormed
  | .rdx i _ _ _ _ => i.wellFormed
  | .setph i _ _ => i.wellFormed
  | .swpt i _ _ => i.wellFormed
  | .end_ i _ => i.wellFormed
  | .taddR i _ _ _ _ a => i.wellFormed && addAmountOk a
  | .waitTimeout _ what => match what with | .epoch k => seatOk k | .stall | .tadd | .unit | .deal | .coll => true
  | .checkColumnCompare _ _ row bad => decide (row < 1024) && bad.all fun b => decide (b ≤ 512)
  | .checkRowReadd _ _ bad => bad.all fun b => decide (b ≤ 512)
  | .softJokerAssign _ _ index => decide (index ≤ 512)
  | .correctedWriteback m sector => sectorOk m sector
  | .scrubStep m errs => decide (errs.length ≤ (match m with | .slab _ => 8 | _ => 1)) && errs.all fun e => decide (e ≤ 2)
  | .refresh _ channel => decide (channel < 32)
  | .ftBandModeWrite _ v => fits 48 v.toNat
  | .tallyRegionWrite off _ => fits 20 off
  | .frameSend _ payload => payload.length == 255
  | .frameReceive _ beats spares => beats.length == 256 && spares.length == 256
  | .linkFail _ slice _ => decide (slice < 129)
  | .wireRepair _ wire => decide (wire < 128)
  | .flitSend tp => tablePortOk tp
  | .flitReceive tp got => tablePortOk tp && got.wellFormed
  | .nakRepeatTimer tp => tablePortOk tp
  | .ackTimeout tp => tablePortOk tp
  | .creditPartialReturn tp _ => tablePortOk tp
  | .portTraining port => portOk port
  | .trainingTimeout port => portOk port
  | .failedRetry port => portOk port
  | .helloSend tp => tablePortOk tp
  | .hello tp m => tablePortOk tp && fits 8 m.position
  | .closingFlit tp => tablePortOk tp
  | .keyReady tp _ _ _ => tablePortOk tp
  | .write p => p.wellFormed
  | .writeAck p => p.wellFormed
  | .readReq p => p.wellFormed
  | .readData p => p.wellFormed
  | .taddPacket p => p.wellFormed
  | .taddStatus p => p.wellFormed
  | .collData p => p.wellFormed
  | .createRecord r => r.wellFormed
  | .ready r => r.wellFormed
  | .credit r => r.wellFormed
  | .doneRecord r => r.wellFormed
  | .abort r => r.wellFormed
  | .digestRecord r => r.wellFormed
  | .dealCount p => p.wellFormed
  | .dealRow p => p.wellFormed
  | .mbxPacket m => positionOk m.srcPos
  | .notice p => p.wellFormed
  | .packetUnknownOp p => p.wellFormed
  | .spineDataFrame port fr => spinePortOk port && connOk fr.conn
  | .spineAckFrame port fr => spinePortOk port && connOk fr.conn
  | .spineAckTimer conn _ => connOk conn
  | .retransmitTimeout conn _ psn => connOk conn && fits 32 psn
  | .ctrlOpen m => m.wellFormed
  | .openAck m => m.wellFormed
  | .redirect m => m.wellFormed
  | .close m => m.wellFormed
  | .closeAck m => m.wellFormed
  | .ctrlResendTimer conn => connOk conn
  | .neighborDiscovery port dst _ => spinePortOk port && fits 128 dst
  | .report m => m.wellFormed
  | .roster m => m.wellFormed
  | .claim m => m.wellFormed
  | .reportTimeout pos => positionOk pos
  | .promoteSlot ch _ => ch.wellFormed
  | .ptpSync _ _ _ nanos _ => decide (nanos < 1000000000)
  | .ptpFollowUp _ _ nanos => decide (nanos < 1000000000)
  | .ptpDelayResp _ _ nanos => decide (nanos < 1000000000)
  | .ptpAnnounce _ _ _ domain => fits 8 domain
  | .ledgerIntervalEnd rs => decide (rs.length ≤ 10) && rs.all fun r => r.sensors.length == (if r.die.val < 8 then 16 else 4)
  | .pmbusPoll rail _ _ _ => decide (rail < 19)
  | .dozeRequest ch => ch.wellFormed
  | .wakeRequest ch => ch.wellFormed
  | .supplyFault rail => decide (rail < 19)
  | .resetRequestWarm ch _ => ch.wellFormed
  | .resetRequestCold ch _ => ch.wellFormed
  | .pwrResetReqRecovery reason => fits 8 reason
  | .blockReset block => fits 8 block
  | .boardRecordWrite ch _ _ => ch.wellFormed
  | .componentFault comp _ _ => decide (comp < 7)
  | .coreBusyWindow busy => busy.length == 5 && busy.all fun b => decide (b ≤ 10000)
  | .openSession ch m => ch.wellFormed && m.wellFormed
  | .closeSession ch m => ch.wellFormed && m.wellFormed
  | .kdpRead ch m => ch.wellFormed && m.wellFormed
  | .kdpWrite ch m => ch.wellFormed && m.wellFormed
  | .writeIf ch m => ch.wellFormed && m.wellFormed
  | .describe ch m => ch.wellFormed && m.wellFormed
  | .keepalive ch m => ch.wellFormed && m.wellFormed
  | .snapshotLapse ch _ => ch.wellFormed
  | .stagingLapse ch _ => ch.wellFormed
  | .objectWrite ch index sb _ => ch.wellFormed && fits 16 index && fits 8 sb
  | .powerCapWrite ch _ => ch.wellFormed
  | .tpEnableWrite ch port _ => ch.wellFormed && tablePortOk port
  | .spAddressWrite ch _ _ v => ch.wellFormed && fits 128 v
  | .logClear ch _ => ch.wellFormed
  | .foldRequest ch _ => ch.wellFormed
  | .sessionClose ch _ => ch.wellFormed
  | .anchorWrite ch _ v => ch.wellFormed && fits 384 v
  | .kdpEnableWrite ch _ => ch.wellFormed
  | .fabricSecret ch v => ch.wellFormed && fits 256 v
  | .keySlotClear ch _ => ch.wellFormed
  | .floorRaise ch _ => ch.wellFormed
  | .debugToken ch _ => ch.wellFormed
  | .seatBreakpoint ch k _ _ _ _ => ch.wellFormed && seatOk k
  | .getPdr _ handle => fits 32 handle
  | .getSensorReading _ sensor => fits 16 sensor
  | .getStateSensorReadings _ sensor => fits 16 sensor
  | .ppr ch stack channel pseudo bank _ => ch.wellFormed && fits 8 stack && fits 8 channel && fits 8 pseudo && fits 8 bank
  | .retrain ch port => ch.wellFormed && fits 8 port
  | .sweep ch => ch.all Channel.wellFormed
  | .restoreByEpoch ch k _ => ch.wellFormed && seatOk k
  | .restoreByHeartbeat ch k _ => ch.wellFormed && seatOk k
  | .restoreQuery ch k => ch.wellFormed && seatOk k
  | .restoreComplete k => seatOk k
  | .scrubFar ch => ch.wellFormed
  | .scrubNear ch => ch.wellFormed
  | .scrubSlab ch => ch.wellFormed
  | .shadowSet ch k _ _ => ch.wellFormed && seatOk k
  | .dummyPool ch _ => ch.wellFormed
  | .dummyOpen m => positionOk m.srcPos && seatOk m.seat
  | .dummyClose m => positionOk m.srcPos && seatOk m.seat
  | .dummyNotice m => positionOk m.srcPos && seatOk m.seat
  | .rekeyDue port => portOk port
  | .railGood rail => decide (rail < 19)
  | .portTrainingComplete port => portOk port
  | .fecAlignmentLoss port => portOk port
  | .hostReadCompletion tag _ _ => fits 10 tag
  | .vfEnable n => decide (n < 64)
  | .keyExchange _ eid _ _ => fits 8 eid
  | .activateComplete | .releaseScrubComplete | .seatTableWrite .. | .hifEventPop .. | .irqCauseClear ..
  | .irqMaskWrite .. | .mbxInPost .. | .messageAccept .. | .mbxOutClear .. | .mbxOutWrite .. | .functionLevelReset ..
  | .seatChoose | .seatSwitch | .seatFirstIssue | .registerResultLand .. | .lockStatus .. | .unlockRelease ..
  | .swptDrainEnd | .endComplete | .fetchFault .. | .gangPoint | .haltComplete | .signalDone .. | .tallyAddApply ..
  | .phaseChange | .arrayOperationStart | .arrayOperationEnd | .mvpCompare .. | .mvpEnd .. | .tileBandClaim ..
  | .tileEntryAvailable .. | .tileEntryConsume .. | .dmaBurstStart .. | .stagingForward .. | .burstCommit ..
  | .refreshMultiplierChange .. | .dbgSyncSelWrite .. | .linkLock .. | .acceptanceCount ..
  | .controlMessageRelease .. | .reportSendTimer | .rosterSendTimer | .claimTimer | .syncIntervalTimer | .sync ..
  | .followUp .. | .delayReq .. | .delayResp .. | .exchangeTimeout | .slewEnd | .holdoverEntry | .crystalStable
  | .crystalTimeout | .referenceLoss | .clkCclkDivWrite .. | .dividerChange | .powerBrakeAssert | .powerBrakeRelease
  | .thermalThrottle .. | .thermalThrottleEnd .. | .thermtrip .. | .budgetReport | .budgetGrant ..
  | .grantMissFallback .. | .reportMiss .. | .avsStepDone .. | .avsStepTimeout .. | .clockGate .. | .domainClose ..
  | .domainOff .. | .closeTimeout .. | .domainOpen .. | .wakeNLow | .dozeTimerExpiry | .powerOn | .resetNAssert
  | .resetNRelease | .perstNAssert | .perstNRelease | .pcieLinkDown | .pwrResetReqWarm | .pwrResetReqCold
  | .jtagReset | .load .. | .loadImageRead .. | .fwWatchdogExpiry .. | .watchdogKick .. | .open_ .. | .tallyAdd ..
  | .object .. | .updateStage .. | .updateCommit .. | .componentHandover | .updateCancel .. | .telemetrySample ..
  | .sessionIdleTimeout .. | .dtlsHandshake .. | .breakpointHit .. | .setEndpointId .. | .getEndpointId ..
  | .getMctpVersionSupport .. | .getMessageTypeSupport .. | .getVendorDefinedMessageSupport .. | .getTid ..
  | .setTid .. | .getPldmTypes .. | .getPldmCommands .. | .getPldmVersion .. | .getPdrRepositoryInfo ..
  | .getMeasurements .. | .repairStepEnd .. | .epochOpen | .dummyScrubEnd .. | .blockResetComplete
  | .pmbAlertNChange .. | .watchdogRestartTimeout .. | .clockUngate .. | .updateStaged .. | .ptpMasterLoss
  | .mgmtLinkChange .. | .resetDelayExpiry | .msiXTableWrite .. => true

end Sys2Proof
end

