-- ==== Sys2Proof/Safety.lean ====
section
/-! DEFINITION. What counts as a safe run, in the terms that claims use: no step stops the machine, every command that waits is
well formed, and the data that every memory and table is held in keeps its one canonical form. -/

namespace Sys2Proof.Machine

/-- The canonical form of the byte memory: addresses strictly rising, and no entry equal to 0, what an unlisted address reads as. -/
abbrev Memory.wf (m : Memory) : Prop := Tbl.wf 0 m.mem = true

/-- Every command that waits is one that a sender can send. -/
def State.queueOk (s : State) : Bool := s.pending.all Instr.wellFormed

/-- A step that answers a next state. -/
def State.steps (s : State) : Prop := ∃ t, step s = .next t

/-- The invariant that every step keeps: the memory's canonical form. -/
def State.Inv (s : State) : Prop := s.memory.wf

/-! ## Answers to seat commands (02, Tables 2-5, 2-10 and 2-15) -/

/-- `t` reports, in the register of port `p`, the outcome of a command that state `s` took: status, command code, seat, and the
sequence raised by 1 (02, Tables 2-5 and 2-10). -/
def State.reports (s t : State) (p : CmdPort) (op : SeatOp) (n : Nat) (st : Status) : Prop :=
  match p with
  | .doorbell f =>
    (t.fn f.val).dbStatus = statusCode st ∧ (t.fn f.val).dbCommand = BitVec.ofNat 4 (opCode op)
      ∧ (t.fn f.val).dbSeat = BitVec.ofNat 12 n ∧ (t.fn f.val).dbSeq = (s.fn f.val).dbSeq + 1
  | .seatCmd =>
    t.host.cmdStatus = statusCode st ∧ t.host.cmdCommand = BitVec.ofNat 4 (opCode op) ∧ t.host.cmdSeat = BitVec.ofNat 12 n
      ∧ t.host.cmdSeq = s.host.cmdSeq + 1 ∧ t.host.cmdBusy = none

/-- An access of the host reaches the registers of function `f`: the link carries it, the function exists, and it is in D0 (02, R27, Table
2-1). -/
abbrev State.hostReaches (s : State) (f : Nat) : Prop := s.bar0Open = true ∧ s.fnEnabled f = true ∧ s.host.d3hot = false

/-- The package judges a command for seat `n` at port `p` at once: it is LIVE and not going to DOZE, the write reaches the port, which is free,
the seat exists, the port's function may command it, and nothing of the seat is in progress (02, R32, R44, R49). -/
def State.judges (s : State) (p : CmdPort) (n : Nat) : Prop :=
  s.dev = .live ∧ s.power.dozing ≠ 1 ∧ (p = .seatCmd → s.cmdTaken = false) ∧ s.hostReaches (portFn p) ∧ n < s.entries
    ∧ (portFn p = 0 ∨ ((s.seat n).entry.owner = portFn p ∧ s.flrBusy (portFn p) = false))
    ∧ (s.seat n).releasing = none ∧ s.stepping n = false

/-- The package judges a command for seat `n` at once, and the seat is not folded (18, R520). -/
def State.takes (s : State) (p : CmdPort) (n : Nat) : Prop := s.judges p n ∧ (s.seat n).folded = false

/-- Only the seats, the order stamps, the host interface and outputs differ, and of the seats only `n`. -/
def State.onlySeat (s t : State) (n : Nat) : Prop :=
  t = { s with seats := t.seats, stamp := t.stamp, host := t.host, out := t.out, memory := t.memory }
    ∧ ∀ k, k ≠ n → t.seat k = s.seat k

/-! ## Issue of an instruction (03, R59, R62, R64, R66) -/

/-- Sequencer instruction `i` can issue: its seat is issuing and no breakpoint stands at its pc, its bytes lie in the stream and in an executable window and carry no poison, its wait and
signal fields lie in the seat's ranges, its waits hold, none of its registers is pending, no destination is a gang register, and its
unit's queue has room (03, R58, R59, R62, R64, R66; 19, R564). -/
def State.canIssue (s : State) (i : Issue) (dsts regs : List Dst) (unit : Option OpUnit := none) : Prop :=
  s.issuing i.cd.val = true ∧ s.breakAt i.cd.val = false ∧ s.pc i.cd.val < (s.stream i.cd.val).len
    ∧ s.fetchHalt i.cd.val i.bytes = none ∧ indexFault s.playEntry i = none ∧ (waitRegs i).any (s.isPending i.cd.val) = false ∧ i.waits.all (s.condHolds i.cd.val) = true ∧ namesGang dsts = false
    ∧ (dsts ++ regs).any (s.isPending i.cd.val) = false ∧ unit.any (fun u => 8 ≤ s.queued i.cd.val u) = false

/-- The state after an instruction whose one effect is `v` in register `d`: its signal acts and the pc moves on (03, R59, R63, R66). -/
def State.withResult (s : State) (i : Issue) (d : Dst) (v : Word) : State :=
  ((s.put i.cd.val d v).signalNow i).advance i.cd.val i.bytes

/-- No active loop of the sequencer ends with the instruction at its pc. -/
def State.noLoopEnds (s : State) (c : Nat) : Prop :=
  ∀ e ∈ (s.seq c).ctx.lc, e.2.active = true → e.2.last.toNat ≠ s.pc c

/-- All eight streams stand at a gang instruction, and `g c` is stream `c`'s (03, R68). -/
def State.gangAt (s : State) (g : Nat → Instr) : Prop :=
  s.play.any (fun p => p.phase = .issuing) = true ∧ ∀ c, c < 8 → (s.seq c).gang = some (g c)

/-- Every group of every stationary tile that slice `c` loads for product `o` has ascending positions (06, R153). -/
def State.loadsClean (s : State) (o : ArrOp) (c : Nat) : Prop :=
  ∀ tl ∈ o.prod.tilesFor c, ∀ q, s.badGroup (o.prod.bShares tl) o.prod.transB c tl.col0 tl.cols
    (indicesOf o.prod.k (s.passBlocks o.prod tl q)) = none

/-! ## Requests of the dictionary (17, R488, R491, R496) -/

/-- A writer on channel `ch` with an expert session, in LIVE, reaches object index `index` (17, R488, R491, R496). -/
def State.expertOn (s : State) (ch : Channel) (index : Nat) : Prop :=
  s.dev = .live ∧ s.chanReaches ch index = true ∧ ∃ x, s.kdp.sessions.find? (·.ch == ch) = some x ∧ x.expert = true

/-- A writer on channel `ch` with a session of either level, in LIVE, reaches object index `index` (17, R488, R491, R496). -/
def State.writerOn (s : State) (ch : Channel) (index : Nat) : Prop :=
  s.dev = .live ∧ s.chanReaches ch index = true ∧ (s.kdp.sessions.find? (·.ch == ch)).isSome = true

/-- A new request `m` comes in session `x` of a network or MCTP channel in LIVE, and the service queue has room (17, R491, R499, R503;
16, R481). -/
def State.asks (s : State) (ch : Channel) (m : KdpMsg) (x : Session) : Prop :=
  s.dev = .live ∧ s.channelUp ch = true ∧ m.major = 1 ∧ (∀ f, ch ≠ .mailbox f)
    ∧ s.kdp.sessions.find? (fun y => y.ch == ch && y.id == m.session) = some x ∧ x.judgeSeq m.sequence = none ∧ s.queueDepth < 504

/-- The object that `m` names is `ob`, and session `x` may reach it (17, R487, R488, R491). -/
def State.names (s : State) (m : KdpMsg) (x : Session) (ob : Obj) : Prop :=
  s.chanReaches x.ch m.index = true ∧ kindIndex m.index ≠ 0x5000 ∧ m.sub ≠ 0 ∧ (objectsOf m.index).find? (·.sub == m.sub) = some ob
    ∧ (m.sub < 0x80 ∨ x.expert = true)

/-! ## Requests in the mailboxes (16, R465 to R468) -/

/-- Request `r` is answered with a status, a retry-after and a payload: it is no longer open, and the reply joins its function's queue,
or waits with its component when 16 messages are in the queue (16, R465, R470, Table 16-4). -/
def State.answered (s t : State) (r : Req) (st : Status) (retry : Nat) (payload : List Byte) : Prop :=
  t.fw.reqs = s.fw.reqs.filter (fun q => !(q.f == r.f && q.seq == r.seq && q.type == r.type))
    ∧ t.fn r.f =
      if (s.fn r.f).outQ.length < 16 then
        { s.fn r.f with outQ := (s.fn r.f).outQ ++ [msgBytes r.type r.seq st 1 s.fw.pkgInc r.hostInc r.seat retry s.now payload] }
      else { s.fn r.f with outHeld := (s.fn r.f).outHeld ++ [msgBytes r.type r.seq st 1 s.fw.pkgInc r.hostInc r.seat retry s.now payload] }

/-! ## Groups (12, R365, R370) -/

/-- The package takes packets, `g` is its one group, and rank `rank` is another member whose seat has incarnation `inc` (12, R365). -/
def State.hearsFrom (s : State) (g : Group) (rank : Nat) (inc : Quad) : Prop :=
  s.takesPackets = true ∧ s.groups = [g] ∧ rank < g.members.length ∧ rank ≠ g.rank
    ∧ ((g.members[rank]?).bind (·.inc)).all (· == inc) = true

/-- A collective of `g` that has nothing left to do alone, and to which no READY has come yet (12, R370). -/
def Coll.waits (c : Coll) (g : Group) : Prop :=
  c.stage = 3 ∧ c.ready = [] ∧ c.peers ≠ []
    ∧ (c.count = 0 ∨ c.opcode = 7 ∨ (if c.opcode = 8 then (Tbl.get none c.digests g.rank).isSome = true else c.copied = true))

/-- Memory once a command of the collective engine has ended: its record is written where the engine owns the slots, and else later (12, R373; 03,
R79). -/
def State.collRecord (s : State) (seat cd record : Nat) (bs : List Byte) : Memory :=
  if s.collParts seat cd [(record, bs.length)] = true then s.memory.write (s.keyOf 0) (slabAddr cd record) (good bs) else s.memory

/-! ## The table (12) -/

/-- Nothing is under way that a new roster would end: no group, no epoch in copy, no restore, no spine connection. -/
def State.calm (s : State) : Prop := s.groups = [] ∧ s.rel.epochs = [] ∧ s.maint.restores = [] ∧ s.fab.conns = []

end Sys2Proof.Machine
end

