-- ==== Sys2Proof/Certificates/Slice0/Obligations.lean ====
section
/-! DEFINITION. The statements for the provers: what the commands of each family do, what they leave alone, and the invariants that
every step keeps. Each docstring names the rules of spec/ that the statement rests on. -/

open Sys2Proof Sys2Proof.Machine

/-! ## The machine -/

/-- A step takes the command at the front of the queue and runs it with the queue's rest. On an empty queue one TCLK cycle passes: the
model's choice (log 1); the timebase then gains 4 ns at the nominal rate, or 20 ns while TCLK is stopped and the keeper domain counts the
crystal (log 177), and nothing moves before the crystal is stable or after THERMTRIP_N (13, R386, R388; 14, R406, R428). -/
def Obligations.StepRunsTheFrontCommand : Prop :=
  (∀ (c : Instr) (q : List Instr) (s : State), step { s with pending := c :: q } = exec c { s with pending := q })
    ∧ ∀ s : State, s.pending = [] →
        (s.clk.source = 0 ∨ s.power.tripLow = true → step s = .next s)
        ∧ (2 ≤ s.clk.source → s.power.tripLow = false → s.time.stepDue = none →
            (s.keeperCounts = true → step s = .next { s with time := { s.time with ns := s.time.ns + 20 } })
            ∧ (s.keeperCounts = false → s.play = none → s.time.freq = 0 → s.time.slew = 0 →
                step s = .next { s with time := { s.time with ns := s.time.ns + 4 } }))

/-! ## Host interface and seats (02) -/

/-- What the commands of Table 2-15 do to a seat that no other step of the seat engine holds: the seat's new state, the answer in the
port's register, and the frame. SEAT, PIN of an uncached seat and RELEASE stay busy and are answered later. -/
def Obligations.SeatCommandsTakeEffect : Prop :=
  ∀ (s : State) (p : CmdPort) (n : Nat), s.takes p n →
    ((s.seat n).state = .seated → ∃ t, exec (.play p n) s = .next t ∧ (t.seat n).pending.isSome = true
      ∧ (t.seat n).state = .seated ∧ s.reports t p .play n .ok ∧ s.onlySeat t n ∧ t.memory = s.memory)
    ∧ ((s.seat n).state = .seated → ∃ t, exec (.halt p n) s = .next t ∧ (t.seat n).state = .halted
      ∧ (t.seat n).haltCause = 0x01 ∧ (t.seat n).pending = none ∧ s.reports t p .halt n .ok ∧ s.onlySeat t n)
    ∧ ((s.seat n).state = .halted → ((s.seat n).fromPlaying = true → (s.seat n).slabIntact = true) →
        ∃ t, exec (.resume p n) s = .next t ∧ (t.seat n).state = .seated ∧ (t.seat n).pending.isSome = true
          ∧ s.reports t p .resume n .ok ∧ s.onlySeat t n)
    ∧ ((s.seat n).state = .seated ∨ (s.seat n).state = .halted ∨ (s.seat n).state = .playing →
        ∃ t, exec (.reset p n) s = .next t ∧ (t.seat n).state = .resetting ∧ (t.seat n).resetting = some (s.now, 1)
          ∧ (t.seat n).pending = none ∧ t.play.any (·.seat == n) = false ∧ t.ops.any (·.seat == n) = false)
    ∧ (p = .seatCmd → (s.seat n).state = .parked → (s.seat n).cached = false →
        s.fnEnabled (s.ownerNow n) = true → s.mapOk n = true →
        ∃ t, exec (.seat n) s = .next t ∧ (t.seat n).loading = some (s.now, .seat)
          ∧ t.host.cmdBusy = some ⟨.seat, .seatCmd, n⟩ ∧ s.onlySeat t n ∧ t.memory = s.memory)
    ∧ (p = .seatCmd → (s.seat n).state = .seated ∨ (s.seat n).state = .halted →
        ∃ t, exec (.park n) s = .next t ∧ (t.seat n).state = .parked ∧ (t.seat n).pending = none ∧ (t.seat n).cached = false
          ∧ (t.seat n).pinned = false ∧ s.reports t p .park n .ok ∧ s.onlySeat t n)
    ∧ (p = .seatCmd → (s.seat n).state = .seated ∨ (s.seat n).state = .halted ∨ (s.seat n).state = .parked →
        ∃ t, exec (.release n) s = .next t ∧ (t.seat n).releasing.isSome = true ∧ (t.seat n).pending = none
          ∧ (t.seat n).pinned = false ∧ (t.seat n).state = (s.seat n).state ∧ t.host.cmdBusy = some ⟨.release, .seatCmd, n⟩)
    ∧ (p = .seatCmd → (s.seat n).state = .seated → (s.seat n).cached = true → (s.seat n).pinned = false →
        s.pinnedCount < s.pinMax →
        ∃ t, exec (.pin n) s = .next t ∧ (t.seat n).pinned = true ∧ s.reports t p .pin n .ok ∧ s.onlySeat t n ∧ t.memory = s.memory)
    ∧ (p = .seatCmd → (s.seat n).state = .seated ∨ (s.seat n).state = .halted →
        ∃ t, exec (.unpin n) s = .next t ∧ (t.seat n).pinned = false ∧ s.reports t p .unpin n .ok ∧ s.onlySeat t n
          ∧ t.memory = s.memory)

/-- Writes of the seat-table registers, of the function page and of the interrupt registers, and the read that pops an event: each
field's new value, what a read-only field keeps, and the frame; R37 whole; a write that the link does not carry has no effect, and one in
D3hot is an Unsupported Request (02, R33, R34, R37, Tables 2-1, 2-3 to 2-7; the error's place is log 143). -/
def Obligations.HostRegistersTakeWrites : Prop :=
  ∀ (s : State) (f : Func),
    (∀ (off : Nat) (data : List Byte), s.bar0Open = false ∨ s.fnEnabled f.val = false →
        exec (.registerWrite f off data) s = .next s)
    ∧ (∀ (off : Nat) (data : List Byte), s.bar0Open = true → s.fnEnabled f.val = true → s.host.d3hot = true →
        exec (.registerWrite f off data) s = .next (s.aer 20))
    ∧ (s.hostReaches f.val → (∀ v : Word, s.liveSeats = [] → exec (.seatTableWrite .base v) s
        = .next { s with host := { s.host with tableBase := BitVec.ofNat 40 (v.toNat / 2 ^ 16) } })
    ∧ (∀ v : Word, s.liveSeats = [] → v.toNat % 2 ^ 13 ≤ 4096 → exec (.seatTableWrite .size v) s
        = .next { s with host := { s.host with tableSize := BitVec.ofNat 13 v.toNat } })
    ∧ (∀ v : Word, 4096 < v.toNat % 2 ^ 13 → exec (.seatTableWrite .size v) s = .next s)
    ∧ (∀ (r : SeatTableReg) (v : Word), s.liveSeats ≠ [] → exec (.seatTableWrite r v) s = .next s)
    ∧ (∀ data : List Byte, data.length = 8 →
        (∃ t, exec (.registerWrite f 0x010 data) s = .next t ∧ (t.fn f.val).hostUpper = BitVec.ofNat 16 (leNat data)
          ∧ t = { s with host := { s.host with fns := t.host.fns } } ∧ ∀ k, k ≠ f.val → t.fn k = s.fn k)
        ∧ exec (.registerWrite f 0x008 data) s = .next s
        ∧ (f.val = 0 → ∃ t, exec (.registerWrite f 0x2020 data) s = .next t
          ∧ t = { s with host := { s.host with pinLimit := BitVec.ofNat 6 (leNat data)
                                               evictHalted := bit (leNat data) 8, holdHalted := bit (leNat data) 9 } }))
    ∧ (∀ (e : Event) (es : List Event), (s.fn f.val).events = e :: es → ∃ t, exec (.hifEventPop f) s = .next t
        ∧ (t.fn f.val).events = es ∧ (t.fn f.val).eventsLost = false
        ∧ t.out = .eventPop f.val (BitVec.ofNat 64 (eventWord (s.fn f.val))) :: s.out
        ∧ t = { s with host := { s.host with fns := t.host.fns }, out := t.out } ∧ ∀ k, k ≠ f.val → t.fn k = s.fn k)
    ∧ ((s.fn f.val).events = [] → exec (.hifEventPop f) s = .next (s.emit (.eventPop f.val 0)))
    ∧ (∀ v again : Quad, ∃ t, exec (.irqCauseClear f v again) s = .next t
        ∧ (t.fn f.val).cause = ((s.fn f.val).cause &&& ~~~v) ||| (again &&& 0xFFFFFF1F)
        ∧ t = { s with host := { s.host with fns := t.host.fns }, out := t.out } ∧ ∀ k, k ≠ f.val → t.fn k = s.fn k)
    ∧ (∀ v : Quad, ∃ t, exec (.irqMaskWrite f v) s = .next t ∧ (t.fn f.val).mask = v &&& 0xFFFFFF1F
        ∧ (t.fn f.val).cause = (s.fn f.val).cause
        ∧ t = { s with host := { s.host with fns := t.host.fns }, out := t.out } ∧ ∀ k, k ≠ f.val → t.fn k = s.fn k)
    ∧ (∀ (v : Fin 32) (m : Bool), ∃ t, exec (.msiXTableWrite f v m) s = .next t
        ∧ (Tbl.get {} (t.fn f.val).msix v.val).masked = m
        ∧ (m = false → (s.fn f.val).pba.getLsbD v.val = true → (t.fn f.val).pba.getLsbD v.val = false
            ∧ t.out = .msix f.val v.val (Tbl.get {} (s.fn f.val).msix v.val).addr (Tbl.get {} (s.fn f.val).msix v.val).data :: s.out)
        ∧ t = { s with host := { s.host with fns := t.host.fns }, out := t.out } ∧ ∀ k, k ≠ f.val → t.fn k = s.fn k))

/-- The mailbox windows: posting, taking a message, freeing and filling the outbound window; R35 whole (02, R35, R36; 16, R466, R470,
R473). -/
def Obligations.MailboxWindowsCarryMessages : Prop :=
  ∀ (s : State) (f : Func), s.hostReaches f.val →
    ((s.fn f.val).inPost = false → (s.fn f.val).inLen.toNat ≤ 1280 →
        exec (.mbxInPost f) s = .next (s.modFn f.val fun q => { q with inPost := true }))
    ∧ ((s.fn f.val).inPost = false → 1280 < (s.fn f.val).inLen.toNat →
        exec (.mbxInPost f) s = .next (s.modFn f.val fun q => { q with accept := 0x02 }))
    ∧ ((s.fn f.val).inPost = true → exec (.mbxInPost f) s = .next s
        ∧ (∀ (off : Nat) (data : List Byte), 0x600 ≤ off → off + data.length ≤ 0xB00 → exec (.registerWrite f off data) s = .next s)
        ∧ ∀ (off : Nat) (data : List Byte), 0x200 ≤ off → off + data.length ≤ 0x208 → exec (.registerWrite f off data) s = .next s)
    ∧ ((s.fn f.val).outFull = true → exec (.mbxOutWrite f) s = .next s)
    ∧ ((s.fn f.val).inPost = true → s.dev = .live → (s.fw.reqs.filter (·.f == f.val)).length < 8 →
        ∃ t, exec (.messageAccept f) s = .next t ∧ (t.fn f.val).inPost = false ∧ (t.fn f.val).cause.getLsbD 1 = true
          ∧ ((s.fn f.val).inLen = 0 → (t.fn f.val).accept = 0x00 ∧ t.fw = s.fw)
          ∧ (∀ (m : List Byte) (r : Req), m = winBytes (s.fn f.val).inWin (s.fn f.val).inLen.toNat → 32 ≤ m.length →
              m.length = 32 + field m 0x12 2 → field m 0 1 = 1 → field m 7 1 % 4 = 0 →
              r = { f := f.val, type := field m 2 2, seq := BitVec.ofNat 16 (field m 4 2), seat := field m 0x10 2
                    hostInc := (s.fn f.val).hostInc, minor := field m 1 1, recvInc := BitVec.ofNat 32 (field m 0xC 4)
                    sendInc := BitVec.ofNat 32 (field m 8 4), payload := m.drop 32 } →
              s.reqCheck r = none → (t.fn f.val).accept = 0x00 ∧ t.fw = { s.fw with reqs := s.fw.reqs ++ [r] })
          ∧ t = { s with host := { s.host with fns := t.host.fns }, out := t.out, fw := t.fw, objs := t.objs, freeCtr := t.freeCtr }
          ∧ ∀ k, k ≠ f.val → t.fn k = s.fn k)
    ∧ exec (.mbxOutClear f) s = .next (s.modFn f.val fun q => { q with outFull := false })
    ∧ (∀ (m : List Byte) (ms : List (List Byte)), (s.fn f.val).outFull = false → (s.fn f.val).outQ = m :: ms →
        field m 0xC 4 = (s.fn f.val).hostInc.toNat →
        ∃ t, exec (.mbxOutWrite f) s = .next t ∧ (t.fn f.val).outFull = true ∧ (t.fn f.val).outLen = BitVec.ofNat 11 m.length
          ∧ (∀ i, i < m.length → Tbl.get 0 (t.fn f.val).outWin i = m.getD i 0)
          ∧ (t.fn f.val).outQ = ms ++ (s.fn f.val).outHeld.take 1 ∧ (t.fn f.val).cause.getLsbD 0 = true
          ∧ t = { s with host := { s.host with fns := t.host.fns }, out := t.out, boot := t.boot })
    ∧ (∀ (m : List Byte) (ms : List (List Byte)), (s.fn f.val).outFull = false → (s.fn f.val).outQ = m :: ms →
        field m 0xC 4 ≠ (s.fn f.val).hostInc.toNat →
        ∃ t, exec (.mbxOutWrite f) s = .next t ∧ (t.fn f.val).outFull = false ∧ (t.fn f.val).outWin = (s.fn f.val).outWin
          ∧ t.obj 0x800305 0 = min (s.obj 0x800305 0 + 1) (2 ^ 64 - 1))

/-- Function Level Reset, VF Enable and accesses of the BAR2 window, which wait for the package's links (02, R25, R26, R28 to R30; 10, R297,
R299). -/
def Obligations.FunctionsAndWindowAnswerTheHost : Prop :=
  ∀ s : State,
    (∀ f : Func, f.val ≠ 0 → s.fnEnabled f.val = true → ∃ t, exec (.functionLevelReset f) s = .next t
        ∧ t.fn f.val = {} ∧ (∀ n, (s.seat n).state ≠ .free → (s.seat n).entry.owner = f.val → (t.seat n).state = .resetting)
        ∧ t.host.tableBase = s.host.tableBase ∧ t.host.tableSize = s.host.tableSize ∧ t.time = s.time ∧ t.sec = s.sec)
    ∧ (∃ t, exec (.functionLevelReset 0) s = .next t ∧ (∀ k, t.fn k = {}) ∧ t.host.pinLimit = 56
        ∧ (∀ n, (s.seat n).state ≠ .free → (t.seat n).state = .resetting)
        ∧ t.host.tableBase = s.host.tableBase ∧ t.host.tableSize = s.host.tableSize ∧ t.time = s.time ∧ t.sec = s.sec)
    ∧ (∀ n, n < s.host.numVfs → ∃ t, exec (.vfDisable n) s = .next t ∧ t.host.numVfs = n
        ∧ (∀ k, n < k → k ≤ s.host.numVfs → t.fn k = {})
        ∧ ∀ m, (s.seat m).state ≠ .free → n < (s.seat m).entry.owner → (s.seat m).entry.owner ≤ s.host.numVfs →
            (t.seat m).state = .resetting ∧ (t.seat m).parkAfter = true)
    ∧ (∀ n, s.host.numVfs < n → n ≤ 63 → exec (.vfEnable n) s = .next { s with host := { s.host with numVfs := n } })
    ∧ (∀ (off len : Nat) (data : List Byte) (ep : Bool), s.bar2Open = true → off + data.length ≤ s.bar2Size →
        s.host.bar2Offset.toNat * 0x40000000 + off + data.length ≤ farEnd →
        s.pathClear 8 (memCd s.memory.bandMode (s.host.bar2Offset.toNat * 0x40000000 + off)) = true →
        exec (.bar2Access true off len data ep) s
          = .next (s.writeSlot 0 (s.host.bar2Offset.toNat * 0x40000000 + off) (data.map fun b => (b, ep))))
    ∧ (∀ (off len : Nat) (data : List Byte) (ep : Bool), s.bar2Open = true → off + len ≤ s.bar2Size →
        s.host.bar2Offset.toNat * 0x40000000 + off + len ≤ farEnd →
        s.pathClear 8 (memCd s.memory.bandMode (s.host.bar2Offset.toNat * 0x40000000 + off)) = true →
        s.pathClear (memCd s.memory.bandMode (s.host.bar2Offset.toNat * 0x40000000 + off)) 8 = true →
        exec (.bar2Access false off len data ep) s = .next (s.emit (.bar2Data
          (plain (s.readSlot 0 (s.host.bar2Offset.toNat * 0x40000000 + off) len))
          (anyPoison (s.readSlot 0 (s.host.bar2Offset.toNat * 0x40000000 + off) len)))))
    ∧ (∀ (w : Bool) (off len : Nat) (data : List Byte) (ep : Bool), s.bar2Open = true →
        s.host.bar2Offset.toNat * 0x40000000 + off + (if w then data.length else len) ≤ farEnd →
        s.pathClear 8 (memCd s.memory.bandMode (s.host.bar2Offset.toNat * 0x40000000 + off)) = false →
        exec (.bar2Access w off len data ep) s = .next s)
    ∧ (∀ (w : Bool) (off len : Nat) (data : List Byte) (ep : Bool), s.bar2Open = false → s.dozes = false →
        off + (if w then data.length else len) ≤ s.bar2Size →
        exec (.bar2Access w off len data ep) s = .next ((s.aer 20).emit .unsupportedRequest))
    ∧ (∀ (w : Bool) (off len : Nat) (data : List Byte) (ep : Bool), s.bar2Size < off + (if w then data.length else len) →
        exec (.bar2Access w off len data ep) s = .next s)

/-- ACTIVATE and its completion, and the end of RELEASE (02, R43, R45; 03, R84; 19, R551, R553). -/
def Obligations.SeatsAreActivatedAndReleased : Prop :=
  ∀ (s : State) (n : Nat),
    (∀ (facts : DeckFacts) (dev : Nat) (k : Bool) (e : Entry), e = parseEntry (plain (s.tableRaw n)) →
        s.takes .seatCmd n → (s.seat n).state = .free → s.chosen ≠ some n → s.entryRead n (s.tableRaw n) = none →
        s.entryOk n e = true → s.entryClash n e = false → translate e e.deckHandle 512 .x = some (dev, k) → routeOf dev = 0 →
        anyPoison (s.readSlot (slotOf e k) dev 512) = false →
        s.deckFirst e (parseDeck (plain (s.readSlot (slotOf e k) dev 512))) facts.eprogBytes = .ok →
        ∃ t, exec (.activate n facts) s = .next t ∧ t.host.cmdBusy = some ⟨.activate, .seatCmd, n⟩ ∧ t.deckFacts = facts
          ∧ (t.seat n).entry = e ∧ (t.seat n).state = .free
          ∧ t = { s with seats := t.seats, host := t.host, deckFacts := facts, deckBuf := none } ∧ ∀ m, m ≠ n → t.seat m = s.seat m)
    ∧ (∀ (b : List PByte) (p : CmdPort) (e : Entry) (d : Deck), e = (s.seat n).entry → d = parseDeck (plain b) →
        s.host.cmdBusy = some ⟨.activate, p, n⟩ → s.deckBytes e = some b → anyPoison b = false →
        s.deckFirst e d s.deckFacts.eprogBytes = .ok → s.deckRest e d (plain b) = .ok →
        s.dozes = false → factsOk s.deckFacts = true → s.stageClash e = false → s.bindOk e = true →
        ∃ t, exec .activateComplete s = .next t ∧ (t.seat n).state = .parked ∧ (t.seat n).inc = (s.seat n).inc + 1
          ∧ (t.seat n).resetCount = 0 ∧ (t.seat n).haltCause = 0 ∧ (t.seat n).deck = some d ∧ (t.seat n).ctx = startCtx (some d)
          ∧ Tbl.get none t.keyBind e.keySlot = some e.tenant ∧ s.reports t .seatCmd .activate n .ok
          ∧ ∀ m, m ≠ n → t.seat m = s.seat m)
    ∧ (∀ p : CmdPort, s.host.cmdBusy = some ⟨.release, p, n⟩ → (s.seat n).releasing.isSome = true →
        ∃ t, exec .releaseScrubComplete s = .next t ∧ t.seat n = {}
          ∧ (∀ m, m ≠ n → t.seat m = s.seat m) ∧ s.reports t p .release n .ok
          ∧ (s.slotNamed n (s.seat n).entry.keySlot = false → Tbl.get none t.keyBind (s.seat n).entry.keySlot = none
              ∧ Tbl.get 0 t.keyGen (s.seat n).entry.keySlot = Tbl.get 0 s.keyGen (s.seat n).entry.keySlot + 1))

/-- The seat engine: choice, load, switch, first issue, and the ends of drains, decks, halts and seat resets; the fold of a seat, and the
commands that a folded seat refuses (02, R46, R47, R50 to R54; 03, R71, R81; 18, R516, R519, R520). -/
def Obligations.SeatEngineMovesSeats : Prop :=
  ∀ (s : State) (n : Nat),
    (s.dev = .live → s.dozes = false → s.chosen = none → s.play = none → s.host.holdHalted = false → s.boot.blockBusy = false →
        s.mapOk n = true → (s.seat n).cached = true → ready (s.seat n) = true →
        (∀ e ∈ s.seats, e.1 ≠ n → ready e.2 = true → e.2.entry.prio < (s.seat n).entry.prio
          ∨ (e.2.entry.prio = (s.seat n).entry.prio ∧ (s.seat n).pending.getD 0 < e.2.pending.getD 0)) →
        ∃ t, exec .seatChoose s = .next t ∧ t.chosen = some n ∧ t = { s with chosen := some n, clk := t.clk })
    ∧ (∀ (t0 : Word) (op : SeatOp) (e : Entry), e = parseEntry (plain (s.tableRaw n)) → (s.seat n).loading = some (t0, op) →
        (s.seat n).state = .parked → s.dev = .live → s.dozes = false → s.occupied < 64 → s.loadStatus n (s.tableRaw n) = .ok →
        (s.seat n).deferred = [] → op ≠ .pin →
        ∃ t, exec (.seatLoad n) s = .next t ∧ (t.seat n).state = .seated ∧ (t.seat n).cached = true
          ∧ (t.seat n).loading = none ∧ (t.seat n).entry = e ∧ (∀ m, m ≠ n → t.seat m = s.seat m)
          ∧ (∀ p : CmdPort, s.host.cmdBusy = some ⟨.seat, p, n⟩ → s.reports t p .seat n .ok))
    ∧ (s.chosen = some n → (s.seat n).state = .seated → (s.seat n).cached = true → ready (s.seat n) = true → s.dev = .live →
        s.play = none → (s.seat n).deferred = [] →
        ∃ t, exec .seatSwitch s = .next t ∧ (t.seat n).state = .playing ∧ (t.seat n).pending = none
          ∧ (t.seat n).plays = (s.seat n).plays + 1 ∧ t.chosen = none ∧ t.play.map (·.seat) = some n
          ∧ t.play.map (·.phase) = some .ready ∧ (∀ c, c < 8 → (t.seq c).ctx = Tbl.get {} (s.seat n).ctx c)
          ∧ ((s.seat n).slabIntact = false → t.arr.bind = none))
    ∧ (∀ p : Play, s.play = some p → p.phase = .ready → s.clk.gated &&& s.seatDomains = 0 →
        exec .seatFirstIssue s = .next { s with play := some { p with phase := .issuing } })
    ∧ (∀ (t0 : Word) (src : Nat), (s.seat n).resetting = some (t0, src) → s.taddPending n = false →
        (s.seat n).parkAfter = false → ((s.seat n).resetParked = false ∨ (s.seat n).cached = true) →
        (src = 1 → (countReset (s.seat n) s.now s.time.epoch).2 = false) →
        ∃ t, exec (.seatResetComplete n) s = .next t ∧ (t.seat n).state = .seated ∧ (t.seat n).inc = (s.seat n).inc + 1
          ∧ (t.seat n).resetting = none ∧ (t.seat n).haltCause = 0 ∧ (t.seat n).pending = none
          ∧ (t.seat n).ctx = startCtx (s.seat n).deck ∧ ∀ m, m ≠ n → t.seat m = s.seat m)
    ∧ (∀ (p : Play) (k : Nat), s.play = some p → p.phase = .draining k → s.busyUnits p.seat = false →
        (s.best fun m => m ≠ p.seat) = none →
        ∃ t, exec .swptDrainEnd s = .next t ∧ t.play.map (·.phase) = some .ready ∧ t.play.map (·.seat) = some p.seat
          ∧ t = { s with play := t.play, seqs := t.seqs, sync := t.sync, host := t.host, out := t.out })
    ∧ (∀ p : Play, s.play = some p → p.phase = .ending → s.busyUnits p.seat = false →
        ∃ t, exec .endComplete s = .next t ∧ t.play = none ∧ (t.seat p.seat).state = .seated
          ∧ (t.seat p.seat).haltCause = 0x07 ∧ (t.seat p.seat).pending = (s.seat p.seat).pending)
    ∧ (∀ (p : Play) (cause : Byte), s.play = some p → p.phase = .halting cause → s.busyUnits p.seat = false →
        ∃ t, exec .haltComplete s = .next t ∧ t.play = none ∧ (t.seat p.seat).state = .halted
          ∧ (t.seat p.seat).haltCause = cause ∧ (t.seat p.seat).slabIntact = true ∧ (t.seat p.seat).fromPlaying = true
          ∧ (s.phaseNext = none → ∀ c, c < 8 → Tbl.get {} (t.seat p.seat).ctx c = (s.seq c).ctx))
    ∧ (∀ t0 : Word, (s.seat n).resetting = some (t0, 1) → s.taddPending n = false → (s.seat n).parkAfter = false →
        ((s.seat n).resetParked = false ∨ (s.seat n).cached = true) → (countReset (s.seat n) s.now s.time.epoch).2 = true →
        ∃ t, exec (.seatResetComplete n) s = .next t ∧ (t.seat n).state = .halted ∧ (t.seat n).haltCause = 0x08
          ∧ (t.seat n).folded = true ∧ (t.seat n).inc = (s.seat n).inc + 1 ∧ (∀ m, m ≠ n → t.seat m = s.seat m)
          ∧ t.rel.lastError.map (fun r => (r.cls, r.code, r.seat)) = some (1, 0x010A, n))
    ∧ (∀ p : CmdPort, s.judges p n → (s.seat n).folded = true → (s.seat n).state ≠ .free →
        (∃ t, exec (.play p n) s = .next t ∧ s.reports t p .play n .folded ∧ t = { s with host := t.host })
        ∧ (∃ t, exec (.resume p n) s = .next t ∧ s.reports t p .resume n .folded ∧ t = { s with host := t.host })
        ∧ (∃ t, exec (.reset p n) s = .next t ∧ s.reports t p .reset n .folded ∧ t = { s with host := t.host })
        ∧ (p = .seatCmd → (∃ t, exec (.seat n) s = .next t ∧ s.reports t p .seat n .folded ∧ t = { s with host := t.host })
            ∧ ∃ t, exec (.pin n) s = .next t ∧ s.reports t p .pin n .folded ∧ t = { s with host := t.host }))

/-! ## Sequencers (03, 09) -/

/-- The results of the scalar instructions: sums, differences and products modulo 2⁶⁴, shifts with the count mod 64, signed and unsigned
minima and maxima, moves and comparisons (03, Table 3-3, R588). The register write, the signal and the next pc are those of
`withResult`, which the two statements after this one describe. -/
def Obligations.ScalarInstructionsComputeResults : Prop :=
  ∀ (s : State) (i : Issue) (d : Dst) (a b : Src) (x y : Word), x = s.src i.cd.val a → y = s.src i.cd.val b →
    (s.canIssue i [d] (srcReg a ++ srcReg b) →
      exec (.add i d a b) s = .next (s.withResult i d (x + y))
      ∧ exec (.sub i d a b) s = .next (s.withResult i d (x - y))
      ∧ exec (.mul i d a b) s = .next (s.withResult i d (BitVec.ofNat 64 (x.toNat * y.toNat)))
      ∧ exec (.and i d a b) s = .next (s.withResult i d (x &&& y))
      ∧ exec (.or i d a b) s = .next (s.withResult i d (x ||| y))
      ∧ exec (.xor i d a b) s = .next (s.withResult i d (x ^^^ y))
      ∧ exec (.shl i d a b) s = .next (s.withResult i d (x <<< (y.toNat % 64)))
      ∧ exec (.shr i d a b) s = .next (s.withResult i d (x >>> (y.toNat % 64)))
      ∧ exec (.sra i d a b) s = .next (s.withResult i d (x.sshiftRight (y.toNat % 64)))
      ∧ exec (.min i d a b) s = .next (s.withResult i d (if x.toInt ≤ y.toInt then x else y))
      ∧ exec (.max i d a b) s = .next (s.withResult i d (if x.toInt ≤ y.toInt then y else x))
      ∧ exec (.minu i d a b) s = .next (s.withResult i d (if x.toNat ≤ y.toNat then x else y))
      ∧ exec (.maxu i d a b) s = .next (s.withResult i d (if x.toNat ≤ y.toNat then y else x))
      ∧ ∀ cc : Cc, exec (.cmpCc i cc d a b) s = .next (s.withResult i d (match cc with
          | .eq => if x.toNat = y.toNat then 1 else 0
          | .ne => if x.toNat ≠ y.toNat then 1 else 0
          | .lt => if x.toInt < y.toInt then 1 else 0
          | .le => if x.toInt ≤ y.toInt then 1 else 0
          | .gt => if y.toInt < x.toInt then 1 else 0
          | .ge => if y.toInt ≤ x.toInt then 1 else 0
          | .ltu => if x.toNat < y.toNat then 1 else 0
          | .leu => if x.toNat ≤ y.toNat then 1 else 0
          | .gtu => if y.toNat < x.toNat then 1 else 0
          | .geu => if y.toNat ≤ x.toNat then 1 else 0)))
    ∧ (s.canIssue i [d] (srcReg a) → exec (.mov i d a) s = .next (s.withResult i d x))
    ∧ (s.canIssue i [d] [] → ∀ v : Word, exec (.li i d v) s = .next (s.withResult i d v))

/-- Registers s0 to s31 and g0 to g15: a write is read back, s0 reads 0 and ignores writes, and every other register, flag and
sequencer is left alone (03, Table 3-1). -/
def Obligations.RegistersHoldWhatIsWritten : Prop :=
  ∀ (s : State) (c : Nat) (d : Dst) (v : Word),
    (∀ r : Fin 32, (s.put c d v).src c (.s r) = if r.val = 0 then 0 else if d = .s r then v else s.src c (.s r))
    ∧ (∀ r : Fin 16, (s.put c d v).src c (.g r) = if d = .g r then v else s.src c (.g r))
    ∧ (d = .s 0 → s.put c d v = s)
    ∧ s.put c d v = { s with seqs := (s.put c d v).seqs }
    ∧ (∀ k, k ≠ c → (s.put c d v).seq k = s.seq k)
    ∧ (s.put c d v).seq c = { s.seq c with
        ctx := { (s.seq c).ctx with s := ((s.put c d v).seq c).ctx.s, g := ((s.put c d v).seq c).ctx.g } }

/-- What a signal does when its instruction issues, shown on NOP, which carries nothing else: an add enters the target's tally unit, a
flag changes, a host signal sets its cause bit of the owner function only; without a signal nothing but the sequencer's pc
moves (03, R63, R65, Table 3-2; 09, R258, R264). -/
def Obligations.SignalsActAtIssue : Prop :=
  ∀ (s : State) (i : Issue), s.canIssue i [] [] →
    (i.signal = none → s.noLoopEnds i.cd.val → ∃ t, exec (.nop i) s = .next t ∧ t.pc i.cd.val = (s.pc i.cd.val + i.bytes) % 2 ^ 32
        ∧ t = { s with seqs := t.seqs } ∧ ∀ c, c ≠ i.cd.val → t.seq c = s.seq c)
    ∧ (∀ (n : Nat) (v at' : Bool), i.signal = some ⟨.flag n v, at'⟩ → ∃ t, exec (.nop i) s = .next t
        ∧ t.flag i.cd.val n = v ∧ (∀ m, m ≠ n → t.flag i.cd.val m = s.flag i.cd.val m) ∧ t = { s with seqs := t.seqs }
        ∧ ∀ c, c ≠ i.cd.val → t.seq c = s.seq c)
    ∧ (∀ (k : Option Cd) (n : Nat) (m : Byte) (at' : Bool), i.signal = some ⟨.cdTally k n m, at'⟩ →
        ∃ (t : State) (x : Add), exec (.nop i) s = .next t ∧ x.tally = s.playEntry.cdBase + n ∧ x.amount = m.toNat
          ∧ Tbl.get [] t.sync.inbox ((k.map (·.val)).getD i.cd.val)
            = Tbl.get [] s.sync.inbox ((k.map (·.val)).getD i.cd.val) ++ [x]
          ∧ t = { s with seqs := t.seqs, sync := { s.sync with inbox := t.sync.inbox } })
    ∧ (∀ (n : Nat) (m : Byte) (at' : Bool), i.signal = some ⟨.pkgTally n m, at'⟩ →
        ∃ (t : State) (x : Add), exec (.nop i) s = .next t ∧ x.tally = s.playEntry.pkgBase + n ∧ x.amount = m.toNat
          ∧ Tbl.get [] t.sync.inbox 8 = Tbl.get [] s.sync.inbox 8 ++ [x]
          ∧ t = { s with seqs := t.seqs, sync := { s.sync with inbox := t.sync.inbox } })
    ∧ (∀ (h : Fin 24) (at' : Bool), i.signal = some ⟨.host h, at'⟩ → ∃ t, exec (.nop i) s = .next t
        ∧ (t.fn s.playEntry.owner).cause.getLsbD (8 + h.val) = true
        ∧ (∀ f, f ≠ s.playEntry.owner → t.fn f = s.fn f)
        ∧ t = { s with seqs := t.seqs, host := { s.host with fns := t.host.fns }, out := t.out })

/-- An instruction whose wait field is not met does not issue: nothing changes but the stall that the sequencer notes, and nothing at all
while a threshold register has a write pending; a tally or flag index outside the seat's range halts the seat before anything else (03,
R62, R64, R66). Shown on NOP, LI and TADD. -/
def Obligations.UnmetWaitsStall : Prop :=
  ∀ (s : State) (i : Issue) (d : Dst) (v : Word) (t : TallyRef) (x : Instr),
    x = .nop i ∨ x = .li i d v ∨ x = .tadd i t (.imm v) →
    s.issuing i.cd.val = true → s.breakAt i.cd.val = false → s.pc i.cd.val < (s.stream i.cd.val).len →
    s.fetchHalt i.cd.val i.bytes = none →
    (indexFault s.playEntry i = none → (waitRegs i).any (s.isPending i.cd.val) = false → i.waits.all (s.condHolds i.cd.val) = false →
      ∃ u, exec x s = .next u ∧ (∃ k, (u.seq i.cd.val).stall = some k ∧ k.pc = (s.seq i.cd.val).ctx.pc)
        ∧ (u.seq i.cd.val).ctx = (s.seq i.cd.val).ctx ∧ (u.seq i.cd.val).pend = (s.seq i.cd.val).pend
        ∧ u = { s with seqs := u.seqs } ∧ ∀ c, c ≠ i.cd.val → u.seq c = s.seq c)
    ∧ (indexFault s.playEntry i = none → (waitRegs i).any (s.isPending i.cd.val) = true → exec x s = .next s)
    ∧ (∀ (kind n : Nat), indexFault s.playEntry i = some (kind, n) →
      ∃ u, exec x s = .next u ∧ u.play.map (·.phase) = some (.halting 0x03)
        ∧ (u.seq i.cd.val).ctx = (s.seq i.cd.val).ctx
        ∧ u.rel.lastError.map (fun r => (r.cls, r.code, r.d)) = some (1, 0x0101, [n, 0, kind, s.pc i.cd.val]))

/-- Scalar loads and stores, special reads, VLEN, and the landing of results (03, R66, R67, R79, R89, R591; 07, R192). LD.N and ST.N without
a slot on their bank's port, or behind another request there, wait as operations of the narrow view. What LD.N, LD.C and TLD read at
issue lands later, when REGISTER_RESULT_LAND takes it off the pending writes (log 23, 24, 29); a package tally's value needs its IPS link both
ways (10, R299). -/
def Obligations.ScalarMemoryAndSpecialReads : Prop :=
  ∀ (s : State) (i : Issue) (d : Dst) (a b : Src),
    (s.canIssue i [d] (srcReg a) → i.signal = none → (s.src i.cd.val a).toNat % 8 = 0 →
        (s.src i.cd.val a).toNat + 8 ≤ slabSize → s.narrowServes i.cd.val (s.src i.cd.val a).toNat = true →
        anyPoison (s.readSlot 0 (slabAddr i.cd.val (s.src i.cd.val a).toNat) 8) = false →
        ∃ t, exec (.ldN i d a) s = .next t
          ∧ (t.seq i.cd.val).pend = (s.seq i.cd.val).pend ++ [{ dst := d, src := .ldn, value := some (BitVec.ofNat 64
              (leNat (plain (s.readSlot 0 (slabAddr i.cd.val (s.src i.cd.val a).toNat) 8)))) }]
          ∧ t = { s with seqs := t.seqs })
    ∧ (s.canIssue i [] (srcReg a ++ srcReg b) → i.signal = none → (s.src i.cd.val a).toNat % 8 = 0 →
        (s.src i.cd.val a).toNat + 8 ≤ slabSize → s.narrowServes i.cd.val (s.src i.cd.val a).toNat = true →
        ∃ t, exec (.stN i a b) s = .next t
          ∧ t.memory = (s.writeSlot 0 (slabAddr i.cd.val (s.src i.cd.val a).toNat)
              (good (leBytes 8 (s.src i.cd.val b).toNat))).memory
          ∧ t = { s with seqs := t.seqs, memory := t.memory })
    ∧ (s.canIssue i [d] (srcReg a) → i.signal = none → (s.src i.cd.val a).toNat % 8 = 0 →
        (s.src i.cd.val a).toNat + 8 ≤ slabSize → s.narrowServes i.cd.val (s.src i.cd.val a).toNat = false →
        ∃ (t : State) (o : Op), exec (.ldN i d a) s = .next t ∧ t.ops = s.ops ++ [o] ∧ o.id = s.nextOp ∧ o.cd = i.cd.val
          ∧ o.unit = .narrow ∧ o.vals = [(s.src i.cd.val a).toNat]
          ∧ (t.seq i.cd.val).pend = (s.seq i.cd.val).pend ++ [{ dst := d, src := .ldn, op := some s.nextOp }]
          ∧ t = { s with seqs := t.seqs, ops := t.ops, nextOp := s.nextOp + 1 })
    ∧ (s.canIssue i [] (srcReg a ++ srcReg b) → i.signal = none → (s.src i.cd.val a).toNat % 8 = 0 →
        (s.src i.cd.val a).toNat + 8 ≤ slabSize → s.narrowServes i.cd.val (s.src i.cd.val a).toNat = false →
        ∃ (t : State) (o : Op), exec (.stN i a b) s = .next t ∧ t.ops = s.ops ++ [o] ∧ o.id = s.nextOp ∧ o.cd = i.cd.val
          ∧ o.unit = .narrow ∧ o.vals = [(s.src i.cd.val a).toNat, (s.src i.cd.val b).toNat]
          ∧ t = { s with seqs := t.seqs, ops := t.ops, nextOp := s.nextOp + 1 })
    ∧ (∀ (o dev : Nat) (k : Bool), o = (s.src i.cd.val a).toNat → s.canIssue i [d] (srcReg a) → i.signal = none → o % 8 = 0 →
        o + 8 ≤ s.playDeck.constSize →
        translate s.playEntry (s.playEntry.deckHandle + s.playDeck.constOff + o) 8 .x = some (dev, k) → routeOf dev = 0 →
        anyPoison (s.readSlot (slotOf s.playEntry k) dev 8) = false →
        ∃ t, exec (.ldC i d a) s = .next t
          ∧ (t.seq i.cd.val).pend = (s.seq i.cd.val).pend ++ [{ dst := d, src := .ldc, value := some (BitVec.ofNat 64
              (leNat (plain (s.readSlot (slotOf s.playEntry k) dev 8)))) }]
          ∧ t = { s with seqs := t.seqs })
    ∧ (s.canIssue i [d] [] →
        exec (.cdid i d) s = .next (s.withResult i d (BitVec.ofNat 64 i.cd.val))
        ∧ exec (.rdcyc i d) s = .next (s.withResult i d (s.seq i.cd.val).ctx.cyc)
        ∧ exec (.rdtime i d) s = .next (s.withResult i d s.time.ns)
        ∧ exec (.rdtel i d) s = .next (s.free.2.withResult i d s.free.1)
        ∧ exec (.seedHw i d) s = .next (s.free.2.withResult i d s.free.1))
    ∧ (s.canIssue i [] (srcReg a) → (s.src i.cd.val a).toNat ≤ 1024 → i.signal = none →
        ∃ t, exec (.vlen i a) s = .next t ∧ (t.seq i.cd.val).ctx.vl.toNat = (s.src i.cd.val a).toNat
          ∧ t = { s with seqs := t.seqs })
    ∧ (s.canIssue i [] (srcReg a) → 1024 < (s.src i.cd.val a).toNat →
        ∃ t, exec (.vlen i a) s = .next t ∧ t.play.map (·.phase) = some (.halting 0x08)
          ∧ (t.seq i.cd.val).ctx = (s.seq i.cd.val).ctx)
    ∧ (∀ (c : Cd) (p : Pend) (v : Word),
        ((s.seq c.val).pend.find? fun q => q.dst == d && q.value.isSome && q.src != .lock) = some p →
        p.value = some v → p.done = none →
        p.tally.any (·.1 == 8) = false ∨ (s.messageClear c.val 8 = true ∧ s.messageClear 8 c.val = true) →
        ∃ t, exec (.registerResultLand c d) s = .next t ∧ (∀ r : Fin 32, d = .s r → r.val ≠ 0 → t.src c.val (.s r) = v)
          ∧ (∀ r : Fin 16, d = .g r → t.src c.val (.g r) = v)
          ∧ (t.seq c.val).pend.length + 1 = (s.seq c.val).pend.length ∧ t = { s with seqs := t.seqs })

/-- LOOP, B, B.cc and BG.cc, and the end of a loop's body (03, R72, R73, R588). -/
def Obligations.LoopsAndBranchesMoveThePc : Prop :=
  ∀ (s : State) (i : Issue) (c : Nat), c = i.cd.val → i.signal = none → s.noLoopEnds c →
    (∀ (lvl : Fin 4) (count : Src) (last : Quad) (len : Nat), s.canIssue i [] (srcReg count) → 0 < i.bytes →
        (Tbl.get {} (s.seq c).ctx.lc lvl.val).active = false → s.pc c + i.bytes ≤ last.toNat → last.toNat < (s.stream c).len →
        ((s.seq c).ctx.lc.all fun e => !e.2.active || (e.2.start.toNat ≤ s.pc c + i.bytes && last.toNat + len ≤ lvlEnd e.2)) = true →
        (s.src c count).toNat % 2 ^ 32 ≠ 0 →
        ∃ t, exec (.loop i lvl count last len) s = .next t ∧ t.pc c = s.pc c + i.bytes
          ∧ Tbl.get {} (t.seq c).ctx.lc lvl.val = { active := true, count := BitVec.ofNat 32 (s.src c count).toNat
                                                    start := BitVec.ofNat 32 (s.pc c + i.bytes), last := last, lastLen := len }
          ∧ t = { s with seqs := t.seqs } ∧ ∀ k, k ≠ c → t.seq k = s.seq k)
    ∧ (∀ (lvl : Fin 4) (count : Src) (last : Quad) (len : Nat), s.canIssue i [] (srcReg count) →
        (Tbl.get {} (s.seq c).ctx.lc lvl.val).active = false → s.pc c + i.bytes ≤ last.toNat → last.toNat < (s.stream c).len →
        ((s.seq c).ctx.lc.all fun e => !e.2.active || (e.2.start.toNat ≤ s.pc c + i.bytes && last.toNat + len < lvlEnd e.2)) = true →
        (s.src c count).toNat % 2 ^ 32 = 0 → (∀ e ∈ (s.seq c).ctx.lc, e.2.active = true → e.2.last ≠ last) →
        ∃ t, exec (.loop i lvl count last len) s = .next t ∧ t.pc c = (last.toNat + len) % 2 ^ 32
          ∧ (t.seq c).ctx.lc = (s.seq c).ctx.lc ∧ t = { s with seqs := t.seqs })
    ∧ (∀ target : Quad, s.canIssue i [] [] → ∃ t, exec (.b i target) s = .next t ∧ (t.seq c).ctx.pc = target
        ∧ t = { s with seqs := t.seqs } ∧ ∀ k, k ≠ c → t.seq k = s.seq k)
    ∧ (∀ (cc : Cc) (a b : Src) (target : Quad), s.canIssue i [] (srcReg a ++ srcReg b) →
        (∃ t, exec (.bCc i cc a b target) s = .next t
          ∧ t.pc c = (if ccHolds cc (s.src c a) (s.src c b) then target.toNat else (s.pc c + i.bytes) % 2 ^ 32)
          ∧ t = { s with seqs := t.seqs } ∧ ∀ k, k ≠ c → t.seq k = s.seq k)
        ∧ (∃ t, exec (.bgCc i cc a b target) s = .next t
          ∧ t.pc c = (if ccHolds cc (s.src c a) (s.src c b) then target.toNat else (s.pc c + i.bytes) % 2 ^ 32)
          ∧ t = { s with seqs := t.seqs } ∧ ∀ k, k ≠ c → t.seq k = s.seq k))

/-- A loop whose body ends with the instruction at the pc runs again while its count is above 1, and ends with its last pass; an outer
loop that ends at the same instruction is looked at then (03, R72). Shown on NOP. -/
def Obligations.LoopsCountDown : Prop :=
  ∀ (s : State) (i : Issue) (c : Nat) (n : Nat) (l : LoopLvl), c = i.cd.val → i.signal = none → s.canIssue i [] [] →
    (s.seq c).ctx.lc = [(n, l)] → l.active = true → l.last.toNat = s.pc c →
    (1 < l.count.toNat → ∃ t, exec (.nop i) s = .next t ∧ t.pc c = l.start.toNat
        ∧ Tbl.get {} (t.seq c).ctx.lc n = { l with count := l.count - 1 } ∧ t = { s with seqs := t.seqs })
    ∧ (l.count.toNat ≤ 1 → ∃ t, exec (.nop i) s = .next t ∧ t.pc c = (s.pc c + i.bytes) % 2 ^ 32
        ∧ Tbl.get {} (t.seq c).ctx.lc n = {} ∧ t = { s with seqs := t.seqs })

/-- TADD, TLD, FSET, FCLR, TADD.R and the fetch that finds no instruction (03, R590; 09, R258, R262, R264, R270). -/
def Obligations.SynchronisationInstructionsAct : Prop :=
  ∀ (s : State) (i : Issue) (c : Nat), c = i.cd.val →
    (∀ (r : TallyRef) (a : Src), s.canIssue i [] (srcReg a) → i.signal = none → tallyFault s.playEntry r = none →
        ∃ (t : State) (x : Add), exec (.tadd i r a) s = .next t
          ∧ x.tally = (refUnit c s.playEntry r).2 ∧ x.amount = (s.src c a).toNat % 2 ^ 32 ∧ x.reply = none
          ∧ Tbl.get [] t.sync.inbox (refUnit c s.playEntry r).1 = Tbl.get [] s.sync.inbox (refUnit c s.playEntry r).1 ++ [x]
          ∧ t = { s with seqs := t.seqs, sync := { s.sync with inbox := t.sync.inbox } })
    ∧ (∀ (d : Dst) (r : TallyRef) (u : Nat × Nat), s.canIssue i [d] [] → i.signal = none → tallyFault s.playEntry r = none →
        u = refUnit c s.playEntry r →
        ∃ t, exec (.tld i d r) s = .next t ∧ t = { s with seqs := t.seqs }
          ∧ (t.seq c).pend = (s.seq c).pend ++ [{ dst := d, src := .tld, value := some (s.tallyAt u.1 u.2), tally := some u }])
    ∧ (∀ n : Nat, n < 64 → s.canIssue i [] [] → i.signal = none →
        (∃ t, exec (.fset i n) s = .next t ∧ t.flag c n = true ∧ (∀ m, m ≠ n → t.flag c m = s.flag c m) ∧ t = { s with seqs := t.seqs })
        ∧ (∃ t, exec (.fclr i n) s = .next t ∧ t.flag c n = false ∧ (∀ m, m ≠ n → t.flag c m = s.flag c m)
          ∧ t = { s with seqs := t.seqs }))
    ∧ (∀ (d : Dst) (gr : Half) (rank : Src) (n : Nat) (a : Src) (g : Group) (m : Member),
        s.canIssue i [d] (srcReg rank ++ srcReg a) → i.signal = none →
        (s.groups.find? fun g => g.seat == s.playSeat && g.id == gr) = some g → g.members[(s.src c rank).toNat]? = some m →
        m.table ≠ s.table.id → s.sync.remotes = [] →
        ∃ (t : State) (x : RemoteAdd), exec (.taddR i d gr rank n a) s = .next t ∧ t.sync.remotes = [x] ∧ x.dst = d ∧ x.cd = c
          ∧ x.seat = s.playSeat ∧ x.table = m.table ∧ x.slot = m.slot
          ∧ x.pkt.arg = BitVec.ofNat 64 ((s.src c a).toNat % 2 ^ 32 * 2 ^ 32 + n % 2 ^ 14) ∧ t.isPending c d = true)
    ∧ (s.issuing c = true → (s.stream c).len ≤ s.pc c →
        ∃ t, exec (.fetchFault i.cd) s = .next t ∧ t.play.map (·.phase) = some (.halting 0x08)
          ∧ ∀ k, (t.seq k).ctx = (s.seq k).ctx)

/-- LOCK, its status, UNLOCK and the release: who holds the lock afterwards, who waits, and the status that lands (09, R274 to R277). -/
def Obligations.LocksPassInOrder : Prop :=
  ∀ (s : State) (i : Issue) (c : Nat) (me : Nat × Quad × Nat), c = i.cd.val → me = (s.playSeat, (s.seat s.playSeat).inc, c) →
    (∀ (d : Dst) (n l : Nat), s.canIssue i [d] [] → i.signal = none → n < s.playEntry.lockCount → l = s.playEntry.lockBase + n →
        ((s.lockAt l).state = 0 ∨ (s.lockAt l).state = 2 →
          ∃ t, exec (.lock i d n) s = .next t ∧ (t.lockAt l).state = 1 ∧ (t.lockAt l).owner = some me ∧ (t.seq c).lock = some l
            ∧ (t.seq c).pend = (s.seq c).pend ++ [{ dst := d, src := .lock
                                                    value := some (if (s.lockAt l).state = 0 then 0x00 else 0x0B) }]
            ∧ t = { s with seqs := t.seqs, sync := { s.sync with locks := t.sync.locks } })
        ∧ ((s.lockAt l).state = 1 → ((s.lockAt l).owner.any fun o => o.1 == me.1 && o.2.2 == c) = false →
          ∃ t, exec (.lock i d n) s = .next t ∧ t.lockAt l = { s.lockAt l with waiters := (s.lockAt l).waiters ++ [me] }
            ∧ (t.seq c).pend = (s.seq c).pend ++ [{ dst := d, src := .lock }] ∧ (t.seq c).lock = some l))
    ∧ (∀ (d : Dst) (v : Word), (s.seq c).pend = [{ dst := d, src := .lock, value := some v }] →
        ∃ t, exec (.lockStatus i.cd) s = .next t ∧ (t.seq c).pend = [] ∧ (t.seq c).lock = none ∧ (t.seq c).stall = none
          ∧ (∀ r : Fin 32, d = .s r → r.val ≠ 0 → t.src c (.s r) = v) ∧ t = { s with seqs := t.seqs })
    ∧ (∀ n l : Nat, s.canIssue i [] [] → i.signal = none → n < s.playEntry.lockCount → l = s.playEntry.lockBase + n →
        (s.lockAt l).state = 1 → ((s.lockAt l).owner.any fun o => o.1 == s.playSeat && o.2.2 == c) = true →
        (s.sync.unlocks.any fun u => u.cd == c && u.lock == l) = false →
        ∃ (t : State) (u : Unlock), exec (.unlock i n) s = .next t ∧ t.sync.unlocks = s.sync.unlocks ++ [u] ∧ u.cd = c ∧ u.lock = l
          ∧ u.seat = s.playSeat ∧ u.after = (s.ops.filter fun o => o.cd == c || o.unit == .array).map (·.id) ∧ t.sync.locks = s.sync.locks
          ∧ t = { s with seqs := t.seqs, sync := t.sync })
    ∧ (∀ u : Unlock, s.sync.unlocks.find? (·.cd == c) = some u → (u.after.any fun id => (s.opById id).isSome) = false → u.done = none →
        (s.lockAt u.lock).state = 1 → ((s.lockAt u.lock).owner.any fun o => o.1 == u.seat && o.2.2 == u.cd) = true →
        ∃ t, exec (.unlockRelease i.cd) s = .next t ∧ t.sync.unlocks = s.sync.unlocks.erase u
          ∧ ((s.lockAt u.lock).waiters = [] → t.lockAt u.lock = {})
          ∧ (∀ w ws, (s.lockAt u.lock).waiters = w :: ws → t.lockAt u.lock = { state := 1, owner := some w, waiters := ws })
          ∧ (∀ k, k ≠ u.lock → t.lockAt k = s.lockAt k) ∧ t = { s with seqs := t.seqs, sync := t.sync })

/-- Tally units: an add that fits raises its tally by the amount, a deck's add past 2⁶⁴ − 1 leaves the maximum and halts its seat; the
firmware's region and the debug window (09, R256, R258 to R260, R282). -/
def Obligations.TallyUnitsApplyAdds : Prop :=
  ∀ (s : State) (u : Option Cd) (k : Nat) (a : Add), k = (match u with | some c => c.val | none => 8) →
    (Tbl.get [] s.sync.inbox k = [a] → (k = 8 → s.addArrived a = true) → (k ≠ 8 → s.power.tallies = none) → a.reply = none →
        (s.tallyAt k a.tally).toNat + a.amount < 2 ^ 64 →
        ∃ t, exec (.tallyAddApply u) s = .next t ∧ (t.tallyAt k a.tally).toNat = (s.tallyAt k a.tally).toNat + a.amount
          ∧ Tbl.get [] t.sync.inbox k = [] ∧ (∀ n, n ≠ a.tally → t.tallyAt k n = s.tallyAt k n)
          ∧ (∀ j n, j ≤ 8 → j ≠ k → n < 4096 → a.tally < 4096 → t.tallyAt j n = s.tallyAt j n)
          ∧ (∀ c, (t.seq c).ctx = (s.seq c).ctx)
          ∧ t = { s with seqs := t.seqs, freeCtr := t.freeCtr, sync := { s.sync with
                    inbox := t.sync.inbox, cdTally := t.sync.cdTally, pkgTally := t.sync.pkgTally } })
    ∧ (∀ n : Nat, Tbl.get [] s.sync.inbox k = [a] → (k ≠ 8 → s.power.tallies = none) → a.src = .own n →
        a.seat = s.play.map (·.seat) → s.play.map (·.phase) = some .issuing → 2 ^ 64 ≤ (s.tallyAt k a.tally).toNat + a.amount →
        ∃ t, exec (.tallyAddApply u) s = .next t ∧ (t.tallyAt k a.tally).toNat = 2 ^ 64 - 1
          ∧ t.play.map (·.phase) = some (.halting 0x08))
    ∧ (∀ (off : Nat) (v : Word), off < 0x20000 → off % 8 = 0 →
        ∃ (t : State) (x : Add), exec (.tallyRegionWrite off v) s = .next t ∧ x.tally = off / 8 ∧ x.amount = v.toNat % 2 ^ 32
          ∧ Tbl.get [] t.sync.inbox 8 = Tbl.get [] s.sync.inbox 8 ++ [x]
          ∧ t = { s with sync := { s.sync with inbox := t.sync.inbox } })
    ∧ (∀ (off : Nat) (v : Word), 0x20000 ≤ off ∨ off % 8 ≠ 0 → exec (.tallyRegionWrite off v) s = .next s)
    ∧ (∀ n, n < 0x4000 → s.tallyRegionRead (8 * n) = s.pkgTally n)
    ∧ (∀ n, n < 0x100 → s.tallyRegionRead (0x20000 + 8 * n) = BitVec.ofNat 64 (s.lockAt n).state)
    ∧ (∀ v : Word, s.sec.level = 2 → bits v.toNat 0 2 = 2 →
        ∃ t, exec (.dbgSyncSelWrite v) s = .next t
          ∧ t.sync.dbgVal = BitVec.ofNat 64 (b2n (s.flag (bits v.toNat 2 3) (bits v.toNat 16 6)))
          ∧ t = { s with sync := { s.sync with dbgSel := t.sync.dbgSel, dbgVal := t.sync.dbgVal } })
    ∧ (∀ v : Word, s.sec.level = 2 → bits v.toNat 0 2 = 1 →
        ∃ t, exec (.dbgSyncSelWrite v) s = .next t ∧ t.sync.dbgVal = s.pkgTally (bits v.toNat 16 14)
          ∧ t.sync.dbgSel = BitVec.ofNat 30 (v.toNat &&& 0x3FFF001F)
          ∧ t = { s with sync := { s.sync with dbgSel := t.sync.dbgSel, dbgVal := t.sync.dbgVal } })
    ∧ (∀ v : Word, s.sec.level = 0 → exec (.dbgSyncSelWrite v) s = .next s)

/-- RDX, SETPH, SWPT and END: each stands at its gang point until all eight streams have come, and then acts; streams that disagree
halt the seat; and the phase change with the narrow request that it serves, the wait timeouts of a sequencer and of a unit, and the end of
a unit operation (03, R60, R63, R68 to R71, R78, R79, R81; 09, R280). -/
def Obligations.GangInstructionsMeet : Prop :=
  ∀ (s : State) (i : Issue) (tag : Byte) (n : Nat),
    (s.canIssue i [] [] → ∀ x : Instr, x = .setph i tag n ∨ x = .swpt i tag n ∨ x = .end_ i tag →
        ∃ t, exec x s = .next t ∧ (t.seq i.cd.val).gang = some x ∧ (t.seq i.cd.val).ctx = (s.seq i.cd.val).ctx
          ∧ t = { s with seqs := t.seqs } ∧ ∀ c, c ≠ i.cd.val → t.seq c = s.seq c)
    ∧ (∀ (op : RdxOp) (g : Fin 16) (a : Src), s.canIssue i [] (.g g :: srcReg a) →
        ∃ t, exec (.rdx i tag op g a) s = .next t ∧ (t.seq i.cd.val).gang = some (.rdx i tag op g a)
          ∧ (t.seq i.cd.val).ctx = (s.seq i.cd.val).ctx ∧ t = { s with seqs := t.seqs } ∧ ∀ c, c ≠ i.cd.val → t.seq c = s.seq c)
    ∧ (∀ (is : Nat → Issue) (op : RdxOp) (g : Fin 16) (as : Nat → Src), s.gangAt (fun c => .rdx (is c) tag op g (as c)) →
        (∀ c, c < 8 → (is c).cd.val = c ∧ (is c).signal = none) →
        ∃ t, exec .gangPoint s = .next t ∧ ∀ c, c < 8 → (t.seq c).gang = none
          ∧ (t.seq c).pend = (s.seq c).pend ++ [{ dst := .g g, src := .rdx
                                                  value := some (rdxOf op ((List.range 8).map fun k => s.src k (as k))) }])
    ∧ (∀ is : Nat → Issue, s.gangAt (fun c => .setph (is c) tag n) → (∀ c, c < 8 → (is c).signal = none) → n < s.playDeck.phaseCount →
        ∃ t, exec .gangPoint s = .next t ∧ t.phaseNext.map (·.1) = some n ∧ ∀ c, c < 8 → (t.seq c).gang = none)
    ∧ (∀ is : Nat → Issue, s.gangAt (fun c => .swpt (is c) tag n) → (∀ c, c < 8 → (is c).signal = none) →
        ∃ t, exec .gangPoint s = .next t ∧ t.play.map (·.phase) = some (.draining n) ∧ t = { s with play := t.play })
    ∧ (∀ is : Nat → Issue, s.gangAt (fun c => .end_ (is c) tag) → (∀ c, c < 8 → (is c).signal = none) →
        ∃ t, exec .gangPoint s = .next t ∧ t.play.map (·.phase) = some .ending ∧ t = { s with play := t.play })
    ∧ (∀ (g : Nat → Instr) (c : Nat), s.gangAt g → c < 8 → s.gangKey c ≠ s.gangKey 0 →
        ∃ t, exec .gangPoint s = .next t ∧ t.play.map (·.phase) = some (.halting 0x08)
          ∧ t.rel.lastError.map (fun r => (r.cls, r.code)) = some (1, 0x0102))
    ∧ (∀ (p : Play) (done : List (Nat × Target)), s.phaseNext = some (n, done) → s.play = some p → (∀ o ∈ s.ops, o.unit ≠ .narrow) →
        ∃ t, exec .phaseChange s = .next t ∧ t.phaseNext = none ∧ ∀ c, c < 8 → (t.seq c).ctx.phase = BitVec.ofNat 6 n)
    ∧ (∀ (p : Play) (o : Op) (a : Nat) (d : Dst), s.phaseNext = some (n, []) → s.play = some p → s.ops = [o] → o.unit = .narrow →
        o.cd < 8 → o.vals = [a] → (s.seq o.cd).pend = [{ dst := d, src := .ldn, op := some o.id }] →
        (s.enterPhase n).ownsPort o.cd a .narrow = true → anyPoison (s.readSlot 0 (slabAddr o.cd a) 8) = false →
        ∃ t, exec .phaseChange s = .next t ∧ t.phaseNext = none ∧ t.ops = [] ∧ t.memory = s.memory
          ∧ (t.seq o.cd).pend = [{ dst := d, src := .ldn
                                   value := some (BitVec.ofNat 64 (leNat (plain (s.readSlot 0 (slabAddr o.cd a) 8)))) }])
    ∧ (∀ (cd : Cd) (k : Stall) (p : Play), s.obj 0x610080 30000000 ≠ 0 → s.play = some p → p.phase = .issuing →
        s.unitStall cd.val = some k →
        ∃ t, exec (.waitTimeout cd .unit) s = .next t ∧ t.play.map (·.phase) = some (.halting 0x05)
          ∧ t.obj 0x610001 0 = min (s.obj 0x610001 0 + 1) (2 ^ 32 - 1))
    ∧ (∀ (cd : Cd) (k : Stall) (p : Play), s.obj 0x610080 30000000 ≠ 0 → s.play = some p → p.phase = .issuing →
        (s.seq cd.val).stall = some k → k.kind ≠ 2 →
        (k.kind = 1 && !k.conds.isEmpty && k.conds.all (s.condHolds cd.val)) = false →
        ∃ t, exec (.waitTimeout cd .stall) s = .next t ∧ t.play.map (·.phase) = some (.halting 0x05)
          ∧ t.obj 0x610001 0 = min (s.obj 0x610001 0 + 1) (2 ^ 32 - 1))
    ∧ (∀ (cd : Cd) (k : Stall) (p : Play), s.obj 0x610080 30000000 ≠ 0 → s.play = some p → (s.seq cd.val).stall = some k →
        k.kind = 1 → k.conds ≠ [] → k.conds.all (s.condHolds cd.val) = true →
        exec (.waitTimeout cd .stall) s = .next (s.modSeq cd.val fun q => { q with stall := none }))
    ∧ (∀ (id : Nat) (o : Op), s.opById id = some o → s.isHead o = true → o.fin = true → o.unit = .mvp ∨ o.unit = .array →
        s.sync.remotes = [] → s.groups = [] →
        ∃ t, exec (.signalDone id) s = .next t ∧ t.ops.map (·.id) = (s.ops.filter (·.id ≠ o.id)).map (·.id)
          ∧ t = { s with ops := t.ops, seqs := t.seqs, sync := { s.sync with inbox := t.sync.inbox }, host := { s.host with fns := t.host.fns }
                         out := t.out })

/-! ## The matrix array and the MVP (05, 06) -/

/-- WLD, MMA and MMAG are issued and wait at their gang point, the pc unmoved; a size above its limit, or a format that the array does
not take, halts the seat (03, R68; 05, R123, R125; 06, R165). -/
def Obligations.ArrayInstructionsIssue : Prop :=
  ∀ (s : State) (i : Issue) (c : Nat), c = i.cd.val →
    (∀ a : WldArgs, s.canIssue i [] [] → a.n ≤ 1048576 → a.k ≤ 1048576 → keepOk a.b.keep = true → rateOf a.b.format ≠ 0 →
        shareFits a.b (keptRows a.b a.b.rows) = true →
        ∃ t, exec (.wld i a) s = .next t ∧ (t.seq c).gang = some (.wld i a) ∧ (t.seq c).ctx = (s.seq c).ctx
          ∧ t = { s with seqs := t.seqs } ∧ ∀ k, k ≠ c → t.seq k = s.seq k)
    ∧ (∀ a : MmaArgs, s.canIssue i [] (srcReg a.seed) → s.mmaCheck c a = none →
        ∃ t, exec (.mma i a) s = .next t ∧ (t.seq c).gang = some (.mma i a) ∧ (t.seq c).ctx = (s.seq c).ctx
          ∧ t = { s with seqs := t.seqs } ∧ ∀ k, k ≠ c → t.seq k = s.seq k)
    ∧ (∀ a : MmagArgs, s.canIssue i [] [] → s.mmagCheck c a = none →
        ∃ t, exec (.mmag i a) s = .next t ∧ (t.seq c).gang = some (.mmag i a) ∧ (t.seq c).gangDesc = plain (s.descBytes c a.desc)
          ∧ (t.seq c).ctx = (s.seq c).ctx ∧ t = { s with seqs := t.seqs } ∧ ∀ k, k ≠ c → t.seq k = s.seq k)
    ∧ (∀ a : WldArgs, s.canIssue i [] [] → 1048576 < a.n ∨ 1048576 < a.k ∨ rateOf a.b.format = 0 →
        ∃ t, exec (.wld i a) s = .next t ∧ t.play.map (·.phase) = some (.halting 0x08) ∧ t.memory = s.memory ∧ t.arr = s.arr)
    ∧ (∀ a : MmaArgs, s.canIssue i [] (srcReg a.seed) → 1048576 < a.m ∨ 1048576 < a.n ∨ 1048576 < a.k →
        ∃ t, exec (.mma i a) s = .next t ∧ t.play.map (·.phase) = some (.halting 0x08) ∧ t.memory = s.memory ∧ t.arr = s.arr)

/-- At the gang point WLD binds the shares of the eight CDs, and MMA and MMAG put their product with its tiles into the array's queue;
the streams go on (05, R123, R125, R130; 06, R165 to R168). -/
def Obligations.GangPointStartsArrayOperations : Prop :=
  ∀ (s : State) (is : Nat → Issue), (∀ c, c < 8 → (is c).signal = none ∧ s.gangKey c = s.gangKey 0) → s.queued 0 .array < 8 →
    (∀ as : Nat → WldArgs, s.gangAt (fun c => .wld (is c) (as c)) →
        ∃ (t : State) (o : Op), exec .gangPoint s = .next t ∧ t.arr = { s.arr with
              bind := some ((List.range 8).map as), boundBy := some s.nextOp, loads := s.arr.loads ++ [(s.nextOp, (List.range 8).map as)] }
          ∧ t.ops = s.ops ++ [o] ∧ o.id = s.nextOp ∧ o.unit = .array ∧ o.fin = true ∧ o.done = [] ∧ (∀ c, c < 8 → (t.seq c).gang = none)
          ∧ t = { s with seqs := t.seqs, ops := t.ops, nextOp := s.nextOp + 1, arr := t.arr })
    ∧ (∀ (as : Nat → MmaArgs) (p : Prod) (ts : List Tile), s.gangAt (fun c => .mma (is c) (as c)) →
        p = mmaProd (as 0) (s.src 0 (as 0).seed) ((List.range 8).map fun c => s.bOf c (as c)) ((List.range 8).map fun c => (as c).a)
              ((List.range 8).map fun c => (as c).c) ((List.range 8).map fun c => (as c).zmap) ((List.range 8).map fun c => (as c).record) →
        s.mapTiles p (as 0).tileMap = some ts → Prod.uncovered { p with tiles := ts } (as 0).m = false →
        (as 0).m ≠ 0 → (as 0).n ≠ 0 → (as 0).k ≠ 0 → (as 0).toQueue = false →
        ∃ (t : State) (o : Op), exec .gangPoint s = .next t ∧ t.ops = s.ops ++ [o] ∧ o.id = s.nextOp ∧ o.unit = .array ∧ o.fin = false
          ∧ t.arr = { s.arr with prods := s.arr.prods
              ++ [{ id := s.nextOp, prod := { p with tiles := ts, wld := if p.outStat then none else s.arr.boundBy } }] }
          ∧ (∀ c, c < 8 → (t.seq c).gang = none) ∧ t = { s with seqs := t.seqs, ops := t.ops, nextOp := s.nextOp + 1, arr := t.arr })
    ∧ (∀ (as : Nat → MmagArgs) (d : List Byte) (l : List SegEntry) (p : Prod) (ts : List Tile), s.gangAt (fun c => .mmag (is c) (as c)) →
        d = (s.seq 0).gangDesc → l = s.segRows 0 d → s.segPoison 0 d = false → (∀ c, c < 8 → mmagRows d (as c).bs l = true) → p = mmagProd d (runOrder d l) ((List.range 8).map as) →
        s.mapTiles p (as 0).tileMap = some ts → s.gangBFault d l = none → p.segs ≠ [] → p.n ≠ 0 → p.k ≠ 0 →
        ∃ (t : State) (o : Op), exec .gangPoint s = .next t ∧ t.ops = s.ops ++ [o] ∧ o.id = s.nextOp ∧ o.unit = .array ∧ o.fin = false
          ∧ t.arr = { s.arr with prods := s.arr.prods ++ [{ id := s.nextOp, prod := { p with tiles := ts } }] }
          ∧ (∀ c, c < 8 → (t.seq c).gang = none) ∧ t = { s with seqs := t.seqs, ops := t.ops, nextOp := s.nextOp + 1, arr := t.arr })

/-- The operation at the head of the array's queue starts, its rows pass the column comparison, and it ends (01, R13; 05, R127, R134, R142):
a row of an earlier pass leaves its running sums in the accumulator file, a row of the last pass is written to C, and a row for which the
array lacks a slot or its ring room stalls its slice (03, R79; 05, R132, R133). Each slice's first stationary tile is read as the operation
starts where no WLD has loaded it, or waits for the slots of its load, and its rows with it (05, R125; 03, R79; log 66). -/
def Obligations.ArrayOperationsRun : Prop :=
  ∀ (s : State) (o : ArrOp), s.arrOp = some o →
    ((∀ c, c < 8 → s.loadsClean o c) → ∃ (t : State) (x : ArrOp), exec .arrayOperationStart s = .next t ∧ t.arrOp = some x
        ∧ x = { o with started := true, prog := x.prog }
        ∧ (∀ (c : Nat) (tl : Tile), c < 8 → o.started = false → Tbl.get {} o.prog c = {} → (o.prod.tilesFor c).head? = some tl →
            o.prod.outStat = false → o.prod.k ≠ 0 → o.prod.wld = none →
            (s.sharesOpen (o.prod.bShares tl) o.prod.transB c tl.col0 tl.cols = true → Tbl.get {} x.prog c = {}
              ∧ Tbl.get {} t.arr.planes c = s.readPlane none (o.prod.bShares tl) o.prod.transB c tl.col0 tl.cols
                (indicesOf o.prod.k (s.passBlocks o.prod tl 0)))
            ∧ (s.sharesOpen (o.prod.bShares tl) o.prod.transB c tl.col0 tl.cols = false →
              Tbl.get {} x.prog c = { toLoad := some false } ∧ Tbl.get {} t.arr.planes c = Tbl.get {} s.arr.planes c))
        ∧ t = { s with arr := t.arr })
    ∧ (∀ (cd : Cd) (row : Nat) (pr : SliceProg) (tl : Tile), pr = Tbl.get {} o.prog cd.val → o.started = true → o.prod.k ≠ 0 →
        o.prod.outStat = false → o.prod.toQueue = false → o.prod.accumulate = false → row = pr.row → pr.written ≤ row → pr.fail = [] →
        pr.toLoad = none →
        (o.prod.tilesFor cd.val)[pr.tile]? = some tl → s.rowOpen o cd.val tl row = true →
        s.rowPoison o.prod tl row (if pr.pass = 0 then 0 else s.segsBy o.prod tl (pr.pass - 1)) (s.segsBy o.prod tl pr.pass) = false →
        (pr.pass + 1 < s.passes o.prod tl → row + 1 < tl.rows ∨ s.loadsClean o cd.val →
          ∃ t, exec (.checkColumnCompare cd pr.tile row none) s = .next t
            ∧ t.arr.acc = Tbl.set [] s.arr.acc (1024 * cd.val + row) (s.rowPass o.prod tl row pr.pass) ∧ t = { s with arr := t.arr })
        ∧ (pr.pass + 1 = s.passes o.prod tl → row + 1 < tl.rows
            ∨ State.loadsClean { s with memory := (s.writeRow o.prod tl row (s.rowPass o.prod tl row pr.pass)).1.memory } o cd.val →
          ∃ t, exec (.checkColumnCompare cd pr.tile row none) s = .next t
            ∧ t.memory = (s.writeRow o.prod tl row (s.rowPass o.prod tl row pr.pass)).1.memory ∧ t.arr.acc = s.arr.acc
            ∧ t = { s with arr := t.arr, memory := t.memory, seqs := t.seqs }))
    ∧ (∀ op : Op, s.headOp 0 .array = some op → o.started = true → o.ended = true → o.prod.k ≠ 0 →
        (∀ c, c < 8 → o.prod.records.getD c none = none) → op.done = [] →
        ∃ t, exec .arrayOperationEnd s = .next t ∧ t.ops.map (·.id) = (s.ops.filter (·.id ≠ op.id)).map (·.id)
          ∧ t = { s with ops := t.ops, arr := { s.arr with prods := s.arr.prods.filter (·.id ≠ o.id), queues := t.arr.queues } }
          ∧ ∀ c, c < 8 → Tbl.get {} t.arr.queues c
              = { Tbl.get {} s.arr.queues c with lost := (Tbl.get {} s.arr.queues c).lost.filter (· ≠ o.id) })
    ∧ (∀ (cd : Cd) (row : Nat) (pr : SliceProg) (tl : Tile), pr = Tbl.get {} o.prog cd.val → o.started = true → o.prod.k ≠ 0 →
        o.prod.outStat = false → row = pr.row → (o.prod.tilesFor cd.val)[pr.tile]? = some tl →
        (pr.toLoad = none → s.rowOpen o cd.val tl row = false →
          exec (.checkColumnCompare cd pr.tile row none) s = .next (s.stallSlice o.id cd.val))
        ∧ (∀ again : Bool, pr.toLoad = some again → again = true ∨ pr.pass ≠ 0 ∨ o.prod.wld = none →
          s.sharesOpen (o.prod.bShares tl) o.prod.transB cd.val tl.col0 tl.cols = false →
          ∃ t, exec (.checkColumnCompare cd pr.tile row none) s = .next t ∧ t.arr.planes = s.arr.planes ∧ t.arr.acc = s.arr.acc
            ∧ t = { s with arr := t.arr }))

/-- The array's checks (05, R140 to R144): a first failure restarts the tile on every slice and is counted; a further one in the same
cycle, of another slice or of the slice's other check, joins that retry; a second, or haltAtOnce, halts the seat with cause 0x04; a failing re-add after WLD's load reads the tile again
(05, R140; log 66); three indications within a day make a row or column a soft joker. -/
def Obligations.ArrayChecksRetryOnce : Prop :=
  ∀ s : State,
    (∀ (o : ArrOp) (cd : Cd) (row j col : Nat) (pr : SliceProg) (tl : Tile), s.arrOp = some o → pr = Tbl.get {} o.prog cd.val →
        o.started = true → o.prod.k ≠ 0 → (o.prod.tilesFor cd.val)[pr.tile]? = some tl → o.prod.outStat = true ∨ row = pr.row →
        s.rowOpen o cd.val tl row = true → pr.toLoad = none →
        (∀ r : Nat, pr.stopped = some (r, s.now) → o.prod.outStat = true ∨ r = row → s.loadsClean o cd.val → ∃ t, exec (.checkColumnCompare cd pr.tile row (some j)) s = .next t
            ∧ Tbl.get 0 t.arr.failCol cd.val = min (Tbl.get 0 s.arr.failCol cd.val + 1) (2 ^ 32 - 1)
            ∧ t.arr.retries = s.arr.retries ∧ t.arr.halts = s.arr.halts ∧ t = { s with arr := t.arr })
        ∧ (pr.stopped.map (·.2) ≠ some s.now → o.prod.haltAtOnce = false → pr.retried = false → s.loadsClean o cd.val →
          (∃ (t : State) (x : ArrOp), exec (.checkColumnCompare cd pr.tile row (some j)) s = .next t ∧ t.arrOp = some x
            ∧ (∀ k, k < 8 → (Tbl.get {} x.prog k).row = 0 ∧ (Tbl.get {} x.prog k).retried = true)
            ∧ Tbl.get 0 t.arr.failCol cd.val = min (Tbl.get 0 s.arr.failCol cd.val + 1) (2 ^ 32 - 1)
            ∧ Tbl.get 0 t.arr.retries cd.val = min (Tbl.get 0 s.arr.retries cd.val + 1) (2 ^ 32 - 1) ∧ t = { s with arr := t.arr })
          ∧ (∃ (t : State) (x : ArrOp), exec (.checkRowReadd cd pr.tile (some col)) s = .next t ∧ t.arrOp = some x
            ∧ (∀ k, k < 8 → (Tbl.get {} x.prog k).row = 0 ∧ (Tbl.get {} x.prog k).retried = true)
            ∧ Tbl.get 0 t.arr.failRow cd.val = min (Tbl.get 0 s.arr.failRow cd.val + 1) (2 ^ 32 - 1)
            ∧ Tbl.get 0 t.arr.retries cd.val = min (Tbl.get 0 s.arr.retries cd.val + 1) (2 ^ 32 - 1) ∧ t = { s with arr := t.arr }))
        ∧ (pr.stopped.map (·.2) ≠ some s.now → o.prod.haltAtOnce = true ∨ pr.retried = true → s.play.map (·.phase) = some .issuing →
          (∃ t, exec (.checkColumnCompare cd pr.tile row (some j)) s = .next t ∧ t.play.map (·.phase) = some (.halting 0x04)
            ∧ (o.prod.toQueue = false → t.ops = s.ops.filter (·.id ≠ o.id)) ∧ t.ops.any (·.id == o.id) = false
            ∧ Tbl.get 0 t.arr.halts cd.val = min (Tbl.get 0 s.arr.halts cd.val + 1) (2 ^ 16 - 1)
            ∧ t.memory = s.memory)
          ∧ (∃ t, exec (.checkRowReadd cd pr.tile (some col)) s = .next t ∧ t.play.map (·.phase) = some (.halting 0x04)
            ∧ (o.prod.toQueue = false → t.ops = s.ops.filter (·.id ≠ o.id)) ∧ t.ops.any (·.id == o.id) = false ∧ t.memory = s.memory)))
    ∧ (∀ (cd : Cd) (tile : Nat), exec (.checkRowReadd cd tile none) s = .next s)
    ∧ (∀ (cd : Cd) (col : Nat) (x : Plane) (l : List WldArgs) (p : Play), s.arrOp = none → x = Tbl.get {} s.arr.planes cd.val →
        s.arr.bind = some l → x.ks ≠ [] → x.wld = s.arr.boundBy → x.again = false → s.play = some p →
        s.badGroup (l.map (·.b)) x.transB cd.val x.col0 x.cols x.ks = none →
        ∃ t, exec (.checkRowReadd cd 0 (some col)) s = .next t ∧ (Tbl.get {} t.arr.planes cd.val).again = true
          ∧ (s.sharesOpen (l.map (·.b)) x.transB cd.val x.col0 x.cols = true → Tbl.get {} t.arr.planes cd.val
              = { s.readPlane x.wld (l.map (·.b)) x.transB cd.val x.col0 x.cols x.ks with again := true })
          ∧ (s.sharesOpen (l.map (·.b)) x.transB cd.val x.col0 x.cols = false → (Tbl.get {} t.arr.planes cd.val).ks = [])
          ∧ Tbl.get 0 t.arr.failRow cd.val = min (Tbl.get 0 s.arr.failRow cd.val + 1) (2 ^ 32 - 1)
          ∧ Tbl.get 0 t.arr.retries cd.val = min (Tbl.get 0 s.arr.retries cd.val + 1) (2 ^ 32 - 1) ∧ t = { s with arr := t.arr })
    ∧ (∀ (cd : Cd) (row : Bool) (index : Nat) (a b d : Indic), s.arr.indics = [a, b, d] →
        (∀ k : Indic, k = a ∨ k = b ∨ k = d → k.cd = cd.val ∧ k.row = row ∧ k.index = index
          ∧ s.now.toNat % 2 ^ 60 ≤ k.time.toNat % 2 ^ 60 + 86400 * 1000000000) →
        (cd.val, row, index) ∉ s.arr.soft →
        exec (.softJokerAssign cd row index) s = .next { s with arr := { s.arr with soft := s.arr.soft ++ [(cd.val, row, index)] } })
    ∧ (∀ (cd : Cd) (row : Bool) (index : Nat), s.arr.indics.length < 3 → exec (.softJokerAssign cd row index) s = .next s)

/-- The MVP (05, R147 to R150, R589): issue, the comparison of weight tiles with its one restart, which waits while the active phase gives
the MVP no slot (03, R79; log 29), and the end. -/
def Obligations.MvpComparesAndEnds : Prop :=
  ∀ s : State,
    (∀ (i : Issue) (a : MvpArgs) (c : Nat), c = i.cd.val → s.canIssue i [] (srcReg a.n ++ srcReg a.k ++ srcReg a.seed) (some .mvp) →
        i.signal = none → s.mvpCheck c a = none →
        ∃ (t : State) (o : Op), exec (.mvp i a) s = .next t ∧ t.ops = s.ops ++ [o] ∧ o.id = s.nextOp ∧ o.cd = c ∧ o.unit = .mvp
          ∧ o.seat = s.playSeat
          ∧ o.instr = .mvp i { a with n := .imm (s.src c a.n), k := .imm (s.src c a.k), seed := .imm (s.src c a.seed) }
          ∧ t = { s with seqs := t.seqs, ops := t.ops, nextOp := s.nextOp + 1 })
    ∧ (∀ (cd : Cd) (o : Op) (a : MvpArgs) (pr : MvpProg) (per : Nat), s.mvpOp cd.val = some (o, a) → pr = Tbl.get {} s.arr.mvp cd.val →
        per = s.mvpTiles cd.val a → o.fin = false → pr.next < (immOf a.n + mvpCols a - 1) / max (mvpCols a) 1 * per →
        (∀ differ : Bool, s.mvpOpen cd.val a pr.next = false → exec (.mvpCompare cd pr.next differ) s = .next s)
        ∧ (s.mvpOpen cd.val a pr.next = true →
        ((pr.next + 1) % per ≠ 0 → exec (.mvpCompare cd pr.next false) s
            = .next { s with arr := { s.arr with mvp := Tbl.set {} s.arr.mvp cd.val { pr with next := pr.next + 1 } } })
        ∧ (pr.restarted = false → ∃ t, exec (.mvpCompare cd pr.next true) s = .next t
            ∧ Tbl.get {} t.arr.mvp cd.val = { pr with next := 0, restarted := true }
            ∧ Tbl.get 0 t.arr.retries cd.val = min (Tbl.get 0 s.arr.retries cd.val + 1) (2 ^ 32 - 1) ∧ t.memory = s.memory ∧ t.ops = s.ops)
        ∧ (pr.restarted = true → s.play.map (·.phase) = some .issuing → ∃ t, exec (.mvpCompare cd pr.next true) s = .next t
            ∧ t.play.map (·.phase) = some (.halting 0x04) ∧ t.ops = s.ops.filter (·.id ≠ o.id) ∧ t.memory = s.memory)))
    ∧ (∀ (cd : Cd) (o : Op) (a : MvpArgs), s.mvpOp cd.val = some (o, a) → o.fin = false → o.done = [] → a.record = none →
        s.mvpTiles cd.val a ≠ 0 →
        (immOf a.n + mvpCols a - 1) / max (mvpCols a) 1 * s.mvpTiles cd.val a ≤ (Tbl.get ({} : MvpProg) s.arr.mvp cd.val).next →
        ∃ t, exec (.mvpEnd cd) s = .next t ∧ t.ops.map (·.id) = (s.ops.filter (·.id ≠ o.id)).map (·.id)
          ∧ t = { s with ops := t.ops, arr := { s.arr with mvp := Tbl.set {} s.arr.mvp cd.val {} } })

/-! ## The vector engine, XPS and DMA (07, 08) -/

/-- VRUN, VRED, XPS and DMA put an operation with the block or descriptor read at issue into their unit's queue; VRED's register waits
for the reduction (03, R60, R66; 07, R195, R217; 08, R225, R246). -/
def Obligations.EngineInstructionsIssue : Prop :=
  ∀ (s : State) (i : Issue) (c : Nat), c = i.cd.val → i.signal = none →
    (∀ a : VrunArgs, s.canIssue i [] (a.params.map Dst.s) (some .vec) → s.vrunCheck c a = none →
        (vblock (plain (s.slabBytes c a.block 256))).tile = false →
        ∃ (t : State) (o : Op), exec (.vrun i a) s = .next t ∧ t.ops = s.ops ++ [o] ∧ o.id = s.nextOp ∧ o.cd = c ∧ o.unit = .vec
          ∧ o.seat = s.playSeat ∧ o.data = plain (s.slabBytes c a.block 256) ∧ o.vals = s.vrunVals c a ∧ o.fin = s.vrunEmpty c a
          ∧ t = { s with seqs := t.seqs, ops := t.ops, nextOp := s.nextOp + 1 })
    ∧ (∀ (op : VredOp) (d : Dst) (a : VrunArgs), s.canIssue i [d] (a.params.map Dst.s) (some .vec) → s.vrunCheck c a = none →
        (vblock (plain (s.slabBytes c a.block 256))).tile = false →
        ∃ (t : State) (o : Op), exec (.vred i op d a) s = .next t ∧ t.ops = s.ops ++ [o] ∧ o.id = s.nextOp ∧ o.cd = c ∧ o.unit = .vec
          ∧ o.data = plain (s.slabBytes c a.block 256) ∧ o.vals = s.vrunVals c a
          ∧ (t.seq c).pend = (s.seq c).pend ++ [{ dst := d, src := .vred, op := some s.nextOp }]
          ∧ t = { s with seqs := t.seqs, ops := t.ops, nextOp := s.nextOp + 1 })
    ∧ (∀ desc : Nat, s.canIssue i [] [] (some .xps) → s.xpsCheck c desc = none →
        ∃ (t : State) (o : Op), exec (.xps i desc) s = .next t ∧ t.ops = s.ops ++ [o] ∧ o.id = s.nextOp ∧ o.cd = c ∧ o.unit = .xps
          ∧ o.data = plain (s.slabBytes c desc 64) ∧ t = { s with seqs := t.seqs, ops := t.ops, nextOp := s.nextOp + 1 })
    ∧ (∀ (engine : Fin 4) (desc : Nat), s.canIssue i [] [] (some (.dma engine.val)) → s.dmaCheck c engine.val desc = none →
        ∃ (t : State) (o : Op), exec (.dma i engine desc) s = .next t ∧ t.ops = s.ops ++ [o] ∧ o.id = s.nextOp ∧ o.cd = c
          ∧ o.unit = .dma engine.val ∧ o.data = plain (s.slabBytes c desc 64) ∧ o.vals = s.dmaVals c desc
          ∧ t = { s with seqs := t.seqs, ops := t.ops, nextOp := s.nextOp + 1 })
    ∧ (∀ desc : Nat, desc % 64 ≠ 0 →
        (s.canIssue i [] [] (some .xps) → ∃ t, exec (.xps i desc) s = .next t ∧ t.play.map (·.phase) = some (.halting 0x08) ∧ t.ops = s.ops)
        ∧ ∀ e : Fin 4, s.canIssue i [] [] (some (.dma e.val)) → ∃ t, exec (.dma i e desc) s = .next t
            ∧ t.play.map (·.phase) = some (.halting 0x08) ∧ t.ops = s.ops)

/-- The tile queue (07, R211 to R214): a slice claims a band while the paired VRUN's depth covers it, 16 entries before one is issued, and stalls
otherwise; the band of an MMA whose VRUN has left takes no entry (log 140); a filled entry becomes available; the VRUN at the head consumes the oldest one where its engine owns the slots, and waits where it does
not. -/
def Obligations.TileQueuePassesBands : Prop :=
  ∀ (s : State) (cd : Cd) (c : Nat) (q : TileQ), c = cd.val → q = Tbl.get {} s.arr.queues c →
    (∀ (o : ArrOp) (pr : SliceProg) (tl : Tile) (need : Nat), s.arrOp = some o → pr = Tbl.get {} o.prog c → o.started = true →
        o.prod.toQueue = true → (o.prod.tilesFor c)[pr.tile]? = some tl → (o.prod.k = 0 ∨ pr.pass + 1 = s.passes o.prod tl) →
        128 * pr.bands < tl.rows → need = (tl.cols + 127) / 128 →
        (q.lost.contains o.id = false → q.entries.length + need ≤ s.pairDepth o.id c → ∃ (t : State) (es : List TEntry), exec (.tileBandClaim cd) s = .next t
            ∧ (Tbl.get ({} : TileQ) t.arr.queues c).entries = q.entries ++ es ∧ es.length = need
            ∧ (∀ e ∈ es, e.op = o.id ∧ e.avail = false ∧ e.row0 = tl.row0 + 128 * pr.bands ∧ e.rows = min 128 (tl.rows - 128 * pr.bands))
            ∧ t = { s with arr := t.arr })
        ∧ (q.lost.contains o.id = true → ∃ t, exec (.tileBandClaim cd) s = .next t
            ∧ (Tbl.get ({} : TileQ) t.arr.queues c).entries = q.entries ∧ t = { s with arr := t.arr })
        ∧ (q.lost.contains o.id = false → s.pairDepth o.id c < q.entries.length + need → exec (.tileBandClaim cd) s = .next (s.stallSlice o.id c))
        ∧ (s.pairOf o.id c = none → s.pairDepth o.id c = 16))
    ∧ (∀ (k : Nat) (e : TEntry), (q.entries.findIdx? fun e => !e.avail) = some k → q.entries[k]? = some e → e.filled = e.rows →
        ∃ t, exec (.tileEntryAvailable cd) s = .next t
          ∧ (Tbl.get ({} : TileQ) t.arr.queues c).entries = q.entries.set k { e with avail := true } ∧ t = { s with arr := t.arr })
    ∧ (∀ (o : Op) (e : TEntry) (b : VBlock) (prog : List EStep), s.nextEntry c = some (o, e) → b = vblock o.data →
        prog = (s.seat o.seat).eprogs.getD b.program [] → b.offEntry e q.taken = none →
        (∀ (v : VecCache) (acc : VecAcc), s.vecOpen c b prog e.n (e.parts q.taken) = true →
          v = s.cacheVecs c b e.n ((List.range 16).flatMap fun st => (e.cells st).map fun x => (e.row0 + x.1, e.col0 + x.2)) q.vecs →
          s.tileSteps o b prog e q.taken v 16 0 { red := q.red, active := q.active } = .inr acc →
          ∃ t, exec (.tileEntryConsume cd) s = .next t ∧ (Tbl.get ({} : TileQ) t.arr.queues c).taken = q.taken + 1
            ∧ (Tbl.get ({} : TileQ) t.arr.queues c).entries = q.entries.tail ∧ (Tbl.get ({} : TileQ) t.arr.queues c).red = acc.red
            ∧ t.ops = s.ops)
        ∧ (s.vecOpen c b prog e.n (e.parts q.taken) = false → exec (.tileEntryConsume cd) s = .next s))

/-- DMA bursts (03, R79; 08, R237, R249 to R251): where its engine owns slots (log 29) a burst starts with the bytes of its source or the fill
pattern, crosses links one by one, where each link takes it, and commits after the earlier bursts of its operation: local bytes are written as one
write, host bytes leave the port, remote ones wait for their acknowledgement. -/
def Obligations.DmaBurstsMoveBytes : Prop :=
  ∀ s : State,
    (∀ (cd : Cd) (e : Fin 4) (o : Op) (d : DmaDesc) (a b n : Nat), s.headOp cd.val (.dma e.val) = some o → d = dmaDesc o.data →
        o.fin = false → s.ownsQueue cd.val o.unit = true → nextPiece d o.vals = some (a, b, n) →
        (d.op = 0 → routeOf a = 0 → s.memOpen o.unit a n = true → d.poisonHalt = false ∨ anyPoison (s.readSlot (o.vals.getD 2 0) a n) = false →
          ∃ (t : State) (k : Burst), exec (.dmaBurstStart cd e) s = .next t ∧ t.memory = { s.memory with bursts := s.memory.bursts ++ [k] }
            ∧ k.id = s.nextOp ∧ k.op = o.id ∧ k.dst = b ∧ k.data = s.readSlot (o.vals.getD 2 0) a n ∧ k.dstSlot = o.vals.getD 3 0
            ∧ t = { s with memory := t.memory, ops := t.ops, nextOp := s.nextOp + 1 })
        ∧ (d.op = 1 → ∃ (t : State) (k : Burst), exec (.dmaBurstStart cd e) s = .next t
            ∧ t.memory = { s.memory with bursts := s.memory.bursts ++ [k] } ∧ k.id = s.nextOp ∧ k.op = o.id ∧ k.dst = b
            ∧ k.data = fillBytes d.src (o.vals.getD 6 0) n ∧ t = { s with memory := t.memory, ops := t.ops, nextOp := s.nextOp + 1 })
        ∧ (d.op = 0 → routeOf a = 1 → ∃ (t : State) (k : Burst), exec (.dmaBurstStart cd e) s = .next t
            ∧ t.memory = { s.memory with bursts := s.memory.bursts ++ [k] } ∧ k.stage = 3 ∧ k.data = []
            ∧ t.out = .hostRead (s.seat o.seat).entry.owner (burstTag s.nextOp).toNat (s.hostAddr (s.seat o.seat).entry.owner a) n :: s.out
            ∧ t = { s with memory := t.memory, ops := t.ops, nextOp := s.nextOp + 1, out := t.out }))
    ∧ (∀ (id : Nat) (b : Burst), s.memory.bursts.find? (·.id == id) = some b →
        (b.stage = 1 → s.linkOpen b = false → exec (.stagingForward id) s = .next s)
        ∧ (b.stage = 1 → s.linkOpen b = true → ∃ t, exec (.stagingForward id) s = .next t
          ∧ t.memory.bursts = s.memory.bursts.filter (·.id ≠ id) ++ [{ b with
              hops := b.hops.tail, stage := if b.hops.tail = [] then 2 else 1, lane := if b.hops.tail = [] then none else b.hops.head? }]
          ∧ t = { s with memory := { s.memory with bursts := t.memory.bursts } })
        ∧ (b.stage = 2 → s.burstBehind b = true → exec (.burstCommit id) s = .next s)
        ∧ (b.stage = 2 → s.burstBehind b = false → b.row = none → ∀ o : Op, s.opById b.op = some o →
          (routeOf b.dst = 0 → s.memOpen o.unit b.dst b.len = true → ∃ t, exec (.burstCommit id) s = .next t
            ∧ t.memory = { s.memory.write (s.keyOf b.dstSlot) b.dst b.data with bursts := s.memory.bursts.filter (·.id ≠ b.id) }
            ∧ t = { s with memory := t.memory, ops := t.ops })
          ∧ (routeOf b.dst = 1 → ∃ t, exec (.burstCommit id) s = .next t
            ∧ t.out = .hostWrite (s.seat o.seat).entry.owner (s.hostAddr (s.seat o.seat).entry.owner b.dst) (plain b.data) (anyPoison b.data) :: s.out
            ∧ t.memory = { s.memory with bursts := s.memory.bursts.filter (·.id ≠ b.id) }
            ∧ t = { s with memory := t.memory, ops := t.ops, out := t.out })
          ∧ (routeOf b.dst = 0x10 → ∃ t, exec (.burstCommit id) s = .next t
            ∧ t.memory.bursts.find? (·.id == id) = some { b with stage := 3 } ∧ t.memory.mem = s.memory.mem)))

/-! ## Memory maintenance and repair (08, 18) -/

/-- Scrubbing, refresh, write-backs and band modes (08, R231, R234, R235, R240, R242): what a clean, a corrected and an uncorrectable sector
leave, and when a refresh slot is used. -/
def Obligations.MemoryMaintenanceActs : Prop :=
  ∀ s : State,
    (∀ (c : Cd) (pos : Nat), pos = Tbl.get 0 s.memory.scrubPos (8 + c.val) → pos + 1 < 0x200000000 / 64 → s.maint.rowsDue = [] →
        s.obj 0x300481 86400 ≠ 0 →
        exec (.scrubStep (.near c) [0]) s
          = .next { s with memory := { s.memory with scrubPos := Tbl.set 0 s.memory.scrubPos (8 + c.val) (pos + 1) } }
        ∧ (∃ t, exec (.scrubStep (.near c) [1]) s = .next t ∧ t.obj 0x300203 0 = min (s.obj 0x300203 0 + 1) (2 ^ 64 - 1)
          ∧ t.memory = { s.memory with scrubPos := Tbl.set 0 s.memory.scrubPos (8 + c.val) (pos + 1)
                                       writeback := s.memory.writeback ++ [(8 + c.val, pos)] }
          ∧ t = { s with memory := t.memory, objs := t.objs })
        ∧ (∃ t, exec (.scrubStep (.near c) [2]) s = .next t ∧ t.obj 0x300204 0 = min (s.obj 0x300204 0 + 1) (2 ^ 64 - 1)
          ∧ Tbl.get false t.memory.poison ((nearBase + c.val * 0x200000000 + 64 * pos) / 64) = true ∧ t.memory.mem = s.memory.mem
          ∧ t.rel.lastError.map (fun r => (r.cls, r.code, r.d)) = some (4, 0x0201, [1, nearBase + c.val * 0x200000000 + 64 * pos])))
    ∧ (∀ (m : MemUnit) (sector : Nat), exec (.correctedWriteback m sector) s
        = .next { s with memory := { s.memory with writeback := s.memory.writeback.erase (memNum m, sector) } })
    ∧ (∀ (c : Cd) (channel : Nat) (r : Refresh) (due : Nat), channel < 32 → r = Tbl.get {} s.memory.refresh (32 * c.val + channel) →
        due = min ((1024 * (s.ns - r.began.toNat) + 32000000 / s.multiplier c.val - 1) / (32000000 / s.multiplier c.val)) 1024 →
        (due ≤ r.carried → exec (.refresh (.near c) channel) s = .next s)
        ∧ (r.carried < due → r.carried + 1 < 1024 → exec (.refresh (.near c) channel) s = .next { s with memory := { s.memory with
            refresh := Tbl.set {} s.memory.refresh (32 * c.val + channel) { r with carried := r.carried + 1 } } })
        ∧ (r.carried = 1023 → due = 1024 → exec (.refresh (.near c) channel) s = .next { s with memory := { s.memory with
            refresh := Tbl.set {} s.memory.refresh (32 * c.val + channel) { carried := 0, began := s.time.ns } } }))
    ∧ (∀ (c : Cd) (temp : Int), ∃ t, exec (.refreshMultiplierChange (.near c) temp) s = .next t
        ∧ (95 ≤ temp → s.multiplier c.val ≤ 4 → t.multiplier c.val = 4)
        ∧ (85 ≤ temp → temp < 92 → s.multiplier c.val = 1 ∨ s.multiplier c.val = 4 → t.multiplier c.val = 2)
        ∧ (temp < 82 → s.multiplier c.val ≤ 4 → 1 ≤ s.multiplier c.val → t.multiplier c.val = 1)
        ∧ t = { s with memory := { s.memory with refMult := t.memory.refMult }, power := { s.power with memTmax := t.power.memTmax } })
    ∧ (∀ (ch : Channel) (v : Word), s.expertOn ch 0x3000 → v.toNat < 2 ^ 48 →
        ((∀ b, b < 48 → (v.setWidth 48 ^^^ s.memory.bandMode).getLsbD b = true → s.bandUsed b = false) →
          exec (.ftBandModeWrite ch v) s
            = .next { s with memory := { s.memory with bandMode := v.setWidth 48 }, out := .kdp ch 4 .ok 0 [] :: s.out })
        ∧ (∀ b, b < 48 → (v.setWidth 48 ^^^ s.memory.bandMode).getLsbD b = true → s.bandUsed b = true →
          ∃ (t : State) (retry : Nat), exec (.ftBandModeWrite ch v) s = .next t ∧ t.out = .kdp ch 4 .conflict retry [] :: s.out
            ∧ t.memory = s.memory))

/-- Requests of the maintenance manager and the journalled repair (18, R540, R541, R543, Tables 18-13, 18-15 and 18-16). -/
def Obligations.MaintenanceRequestsRun : Prop :=
  ∀ s : State,
    (∀ (ch : Channel) (stack channel pseudo bank : Nat) (row : Quad), s.expertOn ch 0x6400 → stack < 8 → channel < 32 → pseudo < 2 →
        (s.mayStart 0 = true → ∃ t, exec (.ppr ch stack channel pseudo bank row) s = .next t ∧ t.maint.journal.kind = 1
          ∧ t.maint.journal.step = 1 ∧ t.maint.journal.stack = stack ∧ t.maint.journal.channel = channel ∧ t.maint.journal.pseudo = pseudo
          ∧ t.maint.journal.bank = bank ∧ t.maint.journal.row = row.toNat ∧ t.maint.journal.started = s.now
          ∧ t = { s with maint := t.maint, out := .kdp ch 4 .ok 0 [] :: s.out })
        ∧ (s.mayStart 0 = false → ∃ (t : State) (retry : Nat), exec (.ppr ch stack channel pseudo bank row) s = .next t
          ∧ t.obj 0x640002 0 = min (s.obj 0x640002 0 + 1) (2 ^ 32 - 1) ∧ t.out = .kdp ch 4 .conflict retry [] :: s.out ∧ t.maint = s.maint
          ∧ t = { s with objs := t.objs, out := t.out, freeCtr := t.freeCtr }))
    ∧ (∀ (ch : Channel) (port : Nat), s.expertOn ch 0x6400 → isPort port = true → s.mayStart 1 = true → s.portEnabled port = true →
        s.portPowered port = true → (s.port port).state ≠ .off → (s.port port).state ≠ .closing →
        ∃ t, exec (.retrain ch port) s = .next t ∧ (t.port port).state = .training ∧ t.maint.works = s.maint.works ++ [(1, port)]
          ∧ (∀ q, q ≠ port → t.port q = s.port q) ∧ t.out = .kdp ch 4 .ok 0 [] :: s.out)
    ∧ (∀ ch : Channel, s.expertOn ch 0x6400 →
        (s.mayStart 8 = true → ∃ t, exec (.scrubFar ch) s = .next t ∧ (∀ f, f < 8 → (16 + f) ∈ t.maint.scrubs ∧ Tbl.get 0 t.memory.scrubPos (16 + f) = 0)
          ∧ t = { s with maint := { s.maint with scrubs := t.maint.scrubs }, memory := { s.memory with scrubPos := t.memory.scrubPos }
                         out := .kdp ch 4 .ok 0 [] :: s.out })
        ∧ (∃ t, exec (.scrubNear ch) s = .next t ∧ (∀ f, f < 8 → (8 + f) ∈ t.maint.scrubs ∧ Tbl.get 0 t.memory.scrubPos (8 + f) = 0)
          ∧ t = { s with maint := { s.maint with scrubs := t.maint.scrubs }, memory := { s.memory with scrubPos := t.memory.scrubPos }
                         out := .kdp ch 4 .ok 0 [] :: s.out })
        ∧ (∃ t, exec (.scrubSlab ch) s = .next t ∧ (∀ f, f < 8 → f ∈ t.maint.scrubs ∧ Tbl.get 0 t.memory.scrubPos f = 0)
          ∧ t = { s with maint := { s.maint with scrubs := t.maint.scrubs }, memory := { s.memory with scrubPos := t.memory.scrubPos }
                         out := .kdp ch 4 .ok 0 [] :: s.out }))
    ∧ (∀ j : Journal, s.maint.journal = j → j.kind = 1 → s.dev = .live →
        (j.step = 1 → ∀ good : Bool, exec (.repairStepEnd good true) s
            = .next { s with maint := { s.maint with journal := { j with step := 2, attempt := 1, moved := 0xFFFF } } })
        ∧ (j.step = 1 → ∀ good : Bool, exec (.repairStepEnd good false) s
            = .next { s with maint := { s.maint with journal := { j with step := 4, moved := 0xFFFF }, repairSt := .overflow } })
        ∧ (j.step = 2 → ∀ good left : Bool, exec (.repairStepEnd good left) s
            = .next { s with maint := { s.maint with journal := { j with step := 3 } } })
        ∧ (j.step = 3 → ∀ left : Bool, exec (.repairStepEnd true left) s = .next { s with maint := { s.maint with journal := { j with step := 4 } } })
        ∧ (j.step = 3 → j.attempt < 3 → ∀ left : Bool, exec (.repairStepEnd false left) s
            = .next { s with maint := { s.maint with journal := { j with step := 2, attempt := j.attempt + 1 } } })
        ∧ (j.step = 4 → s.maint.rowsDue = [] → ∀ good left : Bool, ∃ t, exec (.repairStepEnd good left) s = .next t
            ∧ t.maint.journal = {} ∧ (s.maint.lost = false → t.rel.lastError.map (fun r => (r.cls, r.code)) = some (2, 0x0202))
            ∧ (s.maint.lost = true → t.rel.lastError.map (fun r => (r.cls, r.code)) = some (4, 0x0203))))
    ∧ (∀ port : Nat, port < 34 → (s.maint.works.any fun w => w.1 == 3) = false → s.mayStart 3 = true → (s.port port).state = .active →
        (s.port port).key = none → 1 ≤ (s.port port).txGen →
        s.keyDue (s.port port).genBegan ((s.port port).txCtr + (s.port port).nullCtr) = true →
        ∃ (t : State) (k : KeyGen), exec (.rekeyDue port) s = .next t ∧ (t.port port).key = some k ∧ k.gen = (s.port port).gen + 1
          ∧ (t.port port).ctl = (s.port port).ctl ++ [keyBytes ((s.port port).gen + 1) false s.freeCtr]
          ∧ t.maint.works = s.maint.works ++ [(3, port)] ∧ (∀ q, q ≠ port → t.port q = s.port q)
          ∧ t = { s with maint := t.maint, fab := { s.fab with ports := t.fab.ports }, freeCtr := s.freeCtr + 4 })

/-! ## Links inside the package (10) -/

/-- The slices of a link (10, R288, R289, R291 to R295, R298 to R304). A sender's new frame takes the next sequence, enters the held frames
and goes out scrambled after its beat 0; a resend sends a held frame again with the replay bit. A receiver locks, judges the frame that came by
the next frame's CRC, accepts it, releases control messages, fails the link, and repairs wires once the stewards' messages are accepted. -/
def Obligations.LinkSlicesFrameAndJudge : Prop :=
    (∀ (s : State) (sl : SliceId) (k : Nat) (x : LinkSend) (r : LinkRecv) (c : Quad) (seq5 : Nat), s.linkRuns sl = true → k = keyOfSlice sl →
      x = s.lsend k → r = s.lrecv (reverseKey sl) → x.prevCrc = some c →
      seq5 = (if r.nak then r.expected.toNat else (r.expected - 1).toNat) →
      (∀ (q : List (BitVec 128)) (qs : List (List (BitVec 128))), x.resend = none → x.held.length < 32 → x.queue = q :: qs →
        ∃ (t : State) (h : BitVec 128) (sp : List (BitVec 4)), exec (.frameSend sl []) s = .next t
          ∧ h = beat0 x.next (s.rxLock (reverseKey sl)) r.nak false seq5 c
          ∧ t.out = .frame sl (h :: scrambleFrom (scrState (s.seedOf sl.link.val sl.dir) sl.slice.val x.next) (framePayload sl q)) sp :: s.out
          ∧ (t.lsend k).next = x.next + 1 ∧ (t.lsend k).held = x.held ++ [(x.next, framePayload sl q)] ∧ (t.lsend k).queue = qs
          ∧ (∀ j, j ≠ k → t.lsend j = s.lsend j) ∧ t = { s with links := { s.links with send := t.links.send }, out := t.out })
      ∧ (∀ (i : Nat) (f : Half × List (BitVec 128)), x.resend = some i → x.held[i]? = some f →
        ∃ (t : State) (h : BitVec 128) (sp : List (BitVec 4)), exec (.frameSend sl []) s = .next t
          ∧ h = beat0 f.1 (s.rxLock (reverseKey sl)) r.nak true seq5 c
          ∧ t.out = .frame sl (h :: scrambleFrom (scrState (s.seedOf sl.link.val sl.dir) sl.slice.val f.1) f.2) sp :: s.out
          ∧ (t.lsend k).next = x.next ∧ (t.lsend k).held = x.held
          ∧ t = { s with links := { s.links with send := t.links.send }, out := t.out }))
    ∧ (∀ (s : State) (sl : SliceId) (k : Nat) (r : LinkRecv), s.linkRuns sl = true → k = keyOfSlice sl → r = s.lrecv k →
      (∀ (beats st : List (BitVec 128)) (spares : List (BitVec 4)), r.lost = true →
        st = r.seen ++ (beats.zip (spares ++ List.replicate beats.length 0)).map (fun e => s.unrepair sl.link.val k e.1 e.2) →
        (∀ (c : Nat) (q : Half), lockAt st = some c → q = b0Seq (st.getD (c + 1792) 0) → ∃ t, exec (.linkLock sl beats spares) s = .next t
          ∧ (t.lrecv k).lost = false ∧ (t.lrecv k).last = q - 1 ∧ (t.lrecv k).held = none ∧ (t.lrecv k).expected = r.expected
          ∧ (r.nak = true → (t.lrecv k).nak = true)
          ∧ t = { s with links := { s.links with recv := t.links.recv } } ∧ ∀ j, j ≠ k → t.lrecv j = s.lrecv j)
        ∧ (lockAt st = none → ∃ t, exec (.linkLock sl beats spares) s = .next t ∧ t.lrecv k = { r with seen := st.drop (st.length - 1792) }
          ∧ t = { s with links := { s.links with recv := t.links.recv } } ∧ ∀ j, j ≠ k → t.lrecv j = s.lrecv j))
      ∧ (∀ (beats clean : List (BitVec 128)) (spares : List (BitVec 4)) (h : BitVec 128), r.lost = false → r.misses = 0 →
        beats.length = 256 → spares.length = 256 → clean = (beats.zip spares).map (fun e => s.unrepair sl.link.val k e.1 e.2) →
        clean.head? = some h → h.toNat % 2 ^ 32 = marker → b0Seq h = r.last + 1 →
        (∃ (t : State) (n : LinkHeld), exec (.frameReceive sl beats spares) s = .next t ∧ (t.lrecv k).last = b0Seq h
          ∧ (t.lrecv k).held = some n ∧ n.seq = b0Seq h
          ∧ n.payload = scrambleFrom (scrState (s.seedOf sl.link.val sl.dir) sl.slice.val (b0Seq h)) clean.tail
          ∧ (∀ o : LinkHeld, r.held = some o → o.missed = false → o.mism = [] → o.crc = b0Crc h → o.seq = r.expected →
              ((s.releaseRest sl).lrecv k).withheld = false →
              (t.lrecv k).inbox = r.inbox ++ [o.payload] ∧ (t.lrecv k).expected = r.expected + 1)
          ∧ (∀ o : LinkHeld, r.held = some o → o.mism = [] → o.crc ≠ b0Crc h →
              (t.lrecv k).inbox = r.inbox ∧ (t.lrecv k).expected = r.expected ∧ (t.lrecv k).nak = true)
          ∧ t = { s with links := t.links, objs := t.objs, out := t.out } ∧ (sl.slice.val ≠ 128 → t.out = s.out)))
      ∧ (∀ (p : List (BitVec 128)) (ps : List (List (BitVec 128))) (rr : Bool), isWdl sl.link.val = false → r.inbox = p :: ps →
        ∃ t, exec (.acceptanceCount sl true rr) s = .next t ∧ (t.lrecv k).inbox = ps ∧ (t.lrecv k).taken = r.taken + 1
          ∧ t.out = .linkData sl p :: s.out ∧ t = { s with links := { s.links with recv := t.links.recv }, out := t.out })
      ∧ (∀ (n : Fin 255) (beat : BitVec 128) (m : BitVec 112) (o : LinkHeld), isWdl sl.link.val = true → sl.slice.val = 128 → r.lost = false →
        r.held = some o → o.seq = r.expected → o.missed = false → r.withheld = false → r.skip = 0 → r.released = n.val →
        beat = o.payload.getD r.released 0 → m = beat.setWidth 112 →
        (beat.toNat / 2 ^ 112 = messageCrc m → m ≠ 0 → ∃ t, exec (.controlMessageRelease sl n) s = .next t
          ∧ t.out = .linkMessage sl m :: s.out ∧ (t.lrecv k).released = r.released + 1
          ∧ t = { s with links := { s.links with recv := t.links.recv }, out := t.out })
        ∧ (beat.toNat / 2 ^ 112 ≠ messageCrc m → ∃ t, exec (.controlMessageRelease sl n) s = .next t ∧ t.out = s.out
          ∧ (t.lrecv k).withheld = true ∧ (t.lrecv k).nak = true ∧ (t.lrecv k).released = r.released))
      ∧ (r.lost = true → ∃ t, exec (.linkFail sl.link sl.slice.val sl.dir) s = .next t ∧ sl.link.val ∈ t.links.failed ∧ 1 ∈ t.maint.due
          ∧ t.rel.lastError.map (fun x => (x.cls, x.code, x.d)) = some (2, 0x0301, [sl.link.val, sl.slice.val, b2n sl.dir]))
      ∧ (∀ (wire sp : Nat), wire < 64 → s.obj 0x620080 16 ≠ 0 → s.obj 0x620080 16 ≤ Tbl.get 0 r.counts wire →
        s.pickSpare sl.link.val k wire = some sp →
        (s.stewardsClear (linkDies sl.link.val).1 (linkDies sl.link.val).2 = false → exec (.wireRepair sl wire) s = .next s)
        ∧ (s.stewardsClear (linkDies sl.link.val).1 (linkDies sl.link.val).2 = true →
        ∃ t, exec (.wireRepair sl wire) s = .next t ∧ t.spareUse k sp = .carries wire ∧ (t.lrecv k).lost = true
          ∧ Tbl.get 0 (t.lrecv k).counts wire = 0
          ∧ t.rel.lastError.map (fun x => (x.cls, x.code, x.d)) = some (0, 0x0302, [sl.link.val, sl.slice.val, wire, sp]))))

/-! ## Fabric ports (11) -/

/-- The states of a port (11, R330 to R332; 19, R557): training, HELLO, ACTIVE, FAILED, and the keys of a generation. -/
def Obligations.PortsComeUpAndFail : Prop :=
  ∀ (s : State) (n : Nat) (p : Port), p = s.port n → isPort n = true →
    (p.state = .off → s.portEnabled n = true → s.portPowered n = true → s.dev = .live →
        ∃ t, exec (.portTraining n) s = .next t ∧ (t.port n).state = .training ∧ (∀ q, q ≠ n → t.port q = s.port q)
          ∧ t = { s with fab := { s.fab with ports := t.fab.ports }, clk := t.clk })
    ∧ (p.state = .training → ∃ t, exec (.portTrainingComplete n) s = .next t
          ∧ (t.port n).state = (if n < 34 ∨ s.hasAddress n = false then .hello else .active) ∧ (∀ q, q ≠ n → t.port q = s.port q)
          ∧ t = { s with fab := { s.fab with ports := t.fab.ports }, maint := { s.maint with works := t.maint.works } })
    ∧ (p.state = .training → ∃ t, exec (.trainingTimeout n) s = .next t ∧ (t.port n).state = .failed
          ∧ t.obj (portObj n 0x0A) 0 = min (s.obj (portObj n 0x0A) 0 + 1) (2 ^ 32 - 1) ∧ (∀ q, q ≠ n → t.port q = s.port q))
    ∧ (p.state = .closing → ∃ t, exec (.fecAlignmentLoss n) s = .next t ∧ (t.port n).state = .off ∧ t.objs = s.objs
          ∧ (∀ q, q ≠ n → t.port q = s.port q))
    ∧ (p.state = .hello ∨ p.state = .active → ∃ t, exec (.fecAlignmentLoss n) s = .next t ∧ (t.port n).state = .failed
          ∧ t.obj (portObj n 0x0A) 0 = min (s.obj (portObj n 0x0A) 0 + 1) (2 ^ 32 - 1)
          ∧ t.rel.lastError.map (fun r => (r.cls, r.code, r.d)) = some (2, 0x0303, [n, 2]) ∧ (∀ q, q ≠ n → t.port q = s.port q))
    ∧ (p.state = .failed → s.portEnabled n = true → s.portPowered n = true →
        ∃ t, exec (.failedRetry n) s = .next t ∧ (t.port n).state = .training
          ∧ t = { s with fab := { s.fab with ports := t.fab.ports } } ∧ ∀ q, q ≠ n → t.port q = s.port q)
    ∧ (n < 34 → s.hasTable = true → p.state = .hello → p.fs ≠ 0 →
        (∃ (t : State) (m : HelloMsg), exec (.helloSend n) s = .next t ∧ (t.port n).ctl = p.ctl ++ [helloBytes m]
          ∧ (t.port n).helloCount = p.helloCount + 1 ∧ m.count = p.helloCount + 1 ∧ m.tableId = s.table.id ∧ m.position = s.table.position
          ∧ m.port = n ∧ m.serial = s.serial ∧ m.echo = (p.peer.map (·.count)).getD 0
          ∧ t = { s with fab := { s.fab with ports := t.fab.ports } } ∧ ∀ q, q ≠ n → t.port q = s.port q)
        ∧ (∀ m : HelloMsg, p.helloCount ≠ 0 → m.echo = p.helloCount → m.revision < s.fw.wire + 2 → s.fw.wire < m.revision + 2 →
          ∃ t, exec (.hello n m) s = .next t ∧ (t.port n).state = .active ∧ (t.port n).revision = min s.fw.wire m.revision
            ∧ (t.port n).peer = some m ∧ (t.port n).key.map (·.gen) = some 1)
        ∧ (∀ m : HelloMsg, s.fw.wire + 2 ≤ m.revision ∨ m.revision + 2 ≤ s.fw.wire →
          ∃ t, exec (.hello n m) s = .next t ∧ (t.port n).state = .refused ∧ (t.port n).status = .version
            ∧ t = { s with fab := { s.fab with ports := t.fab.ports } } ∧ ∀ q, q ≠ n → t.port q = s.port q))
    ∧ (n < 34 → p.state = .active →
        (∃ t, exec (.closingFlit n) s = .next t ∧ (t.port n).peerClosing = true ∧ (t.port n).state = .active
          ∧ t = { s with fab := { s.fab with ports := t.fab.ports, east := t.fab.east } } ∧ ∀ q, q ≠ n → t.port q = s.port q)
        ∧ (∀ nonce : Nat, p.key = none →
          (∃ (t : State) (k : KeyGen), exec (.keyReady n (p.gen + 1) false nonce) s = .next t ∧ (t.port n).key = some k
            ∧ k.gen = p.gen + 1 ∧ k.peerNonce = some nonce ∧ k.derived = true ∧ (t.port n).gen = p.gen
            ∧ (t.port n).ctl = p.ctl ++ [keyBytes (p.gen + 1) true s.freeCtr])
          ∧ (∃ t, exec (.keyReady n (p.gen + 1) true nonce) s = .next t ∧ (t.port n).key = none ∧ (t.port n).gen = p.gen + 1
            ∧ (t.port n).switching = true ∧ (t.port n).txGen = p.txGen)))

/-- Sending of flits (11, R309, R311, R314, R315, R319 to R324): the first of resend, control and null that there is, with its sequence, blocks, replay
buffer and counters; the timers of the receiver and sender. -/
def Obligations.FlitsAreSent : Prop :=
  ∀ (s : State) (n : Nat) (p : Port), n < 34 → p = s.port n → portRuns p = true →
    (s.hasTable = true → p.switching = false →
      (∀ (k : Nat) (f : TxFlit), p.resend = some k → p.held[k]? = some f → f.sends < 16 →
        ∃ (t : State) (fl : Flit), exec (.flitSend n) s = .next t ∧ t.out = .flit n fl :: s.out ∧ fl.seq = f.seq ∧ fl.kind = f.kind
          ∧ fl.payload = f.payload ∧ fl.blocks = flitBlocks (flitBytes p.txSet f.ctr fl) ∧ (t.port n).nextSeq = p.nextSeq
          ∧ (t.port n).held = p.held.set k { f with sends := f.sends + 1 })
      ∧ (∀ (k : Nat) (f : TxFlit), p.resend = some k → p.held[k]? = some f → 16 ≤ f.sends →
        ∃ t, exec (.flitSend n) s = .next t ∧ (t.port n).state = (if p.state = .closing then .off else .failed))
      ∧ (∀ (c : List Byte) (cs : List (List Byte)), p.resend = none → p.ctl = c :: cs → p.held.length < 1024 → p.starve < 7 →
        ∃ (t : State) (fl : Flit), exec (.flitSend n) s = .next t ∧ t.out = .flit n fl :: s.out ∧ fl.seq = p.nextSeq ∧ fl.kind = 1
          ∧ fl.payload = c ∧ fl.blocks = flitBlocks (flitBytes p.txSet p.txCtr fl) ∧ (t.port n).txCtr = p.txCtr + 1 ∧ (t.port n).ctl = cs ∧ (t.port n).nextSeq = (p.nextSeq + 1) % 4096 ∧ (t.port n).credT = p.credT - 1
          ∧ (t.port n).held.length = p.held.length + 1)
      ∧ (p.resend = none → p.ctl = [] → p.restT = none → p.restB = none → s.fab.out = [] →
        ∃ (t : State) (fl : Flit), exec (.flitSend n) s = .next t ∧ t.out = .flit n fl :: s.out ∧ fl.kind = 0 ∧ fl.nullCtr = p.nullCtr
          ∧ fl.blocks = flitBlocks (flitBytes p.txSet p.nullCtr fl)
          ∧ (t.port n).nullCtr = p.nullCtr + 1 ∧ (t.port n).nextSeq = p.nextSeq ∧ (t.port n).held = p.held))
    ∧ (p.gap = true → exec (.nakRepeatTimer n) s = .next (s.modPort n fun p => { p with nakDue := true }))
    ∧ (∀ (f : TxFlit) (fs : List TxFlit), p.held = f :: fs → f.sends < 16 →
        ∃ t, exec (.ackTimeout n) s = .next t ∧ (t.port n).resend = some 0 ∧ t.obj (portObj n 6) 0 = min (s.obj (portObj n 6) 0 + 1) (2 ^ 64 - 1)
          ∧ t.obj (portObj n 7) 0 = min (s.obj (portObj n 7) 0 + 1) (2 ^ 32 - 1) ∧ (t.port n).held = p.held
          ∧ t = { s with fab := { s.fab with ports := t.fab.ports }, objs := t.objs })
    ∧ (∀ bulk : Bool, 0 < (if bulk then p.owedB else p.owedT) → (if bulk then p.owedB else p.owedT) < 16 →
        exec (.creditPartialReturn n bulk) s = .next (s.modPort n fun p => { p with part := some bulk }))

/-- Receiving of flits (11, R309, R312, R313, R316 to R319): what a stream of blocks with no flit, a flit in sequence, ahead of it, behind it, with a
wrong tag or uncorrectable leaves; a flit is read under the set that its phase names, and the first of a new generation makes that set the receiver's
only one. -/
def Obligations.FlitsAreReceived : Prop :=
  ∀ (s : State) (n : Nat) (p : Port) (got : FlitGot), n < 34 → s.hasTable = true → p = s.port n →
    portRuns p = true → got.fecFixed = 0 →
    (flitAt got.blocks = none → exec (.flitReceive n got) s = .next s)
    ∧ ∀ (bs : List Byte) (fl : Flit), flitAt got.blocks = some bs → fl = readFlit bs →
    (got.fecOk = false → ∃ t, exec (.flitReceive n got) s = .next t ∧ t.obj (portObj n 5) 0 = min (s.obj (portObj n 5) 0 + 1) (2 ^ 64 - 1)
        ∧ t = { s with objs := t.objs })
    ∧ (got.fecOk = true → s.unseal n bs = none → (∀ x ∈ p.authTimes, x + 1000000000 ≤ s.ns) →
        ∃ t, exec (.flitReceive n got) s = .next t ∧ t.obj (portObj n 8) 0 = min (s.obj (portObj n 8) 0 + 1) (2 ^ 32 - 1)
          ∧ t.port n = { p with authTimes := [s.ns] } ∧ t = { s with objs := t.objs, fab := { s.fab with ports := t.fab.ports } })
    ∧ (∀ x : List Byte, fl.keyPhase = (p.rxGen % 2 == 1) → p.tryFlit p.rxSet p.rxCtr bs = some x →
        s.unseal n bs = some (p.rxGen, p.rxSet, x))
    ∧ (∀ set x : List Byte, fl.keyPhase ≠ (p.rxGen % 2 == 1) → p.rxNext = some set → p.tryFlit set 0 bs = some x →
        s.unseal n bs = some (p.rxGen + 1, set, x))
    ∧ (∀ set x : List Byte, got.fecOk = true → s.unseal n bs = some (p.rxGen + 1, set, x) → p.state = .hello ∨ p.state = .active →
        ∃ t, exec (.flitReceive n got) s = .next t ∧ (t.port n).rxGen = p.rxGen + 1 ∧ (t.port n).rxSet = set ∧ (t.port n).rxNext = none)
    ∧ (∀ set x : List Byte, got.fecOk = true → s.unseal n bs = some (p.rxGen, set, x) → p.state = .hello ∨ p.state = .active →
        (fl.kind = 1 → fl.seq = p.expect → p.expect < 4096 → ∃ t, exec (.flitReceive n got) s = .next t
          ∧ (t.port n).expect = (p.expect + 1) % 4096 ∧ (t.port n).rxCtr = p.rxCtr + 1 ∧ (t.port n).owedT = p.owedT + 1
          ∧ (t.port n).gap = false ∧ t.fab.rx = s.fab.rx)
        ∧ (fl.kind ≠ 0 → p.gap = false → 0 < (fl.seq + 4096 - p.expect) % 4096 → (fl.seq + 4096 - p.expect) % 4096 < 2048 →
          ∃ t, exec (.flitReceive n got) s = .next t ∧ (t.port n).expect = p.expect ∧ (t.port n).gap = true ∧ (t.port n).nakDue = true
            ∧ t.fab.rx = s.fab.rx)
        ∧ (fl.kind ≠ 0 → 2048 ≤ (fl.seq + 4096 - p.expect) % 4096 → ∃ t, exec (.flitReceive n got) s = .next t
          ∧ t.obj (portObj n 9) 0 = min (s.obj (portObj n 9) 0 + 1) (2 ^ 64 - 1) ∧ (t.port n).expect = p.expect ∧ t.fab.rx = s.fab.rx)
        ∧ (fl.kind = 0 → p.lastNull = none → fl.nullCtr ≤ 4095 → ∃ t, exec (.flitReceive n got) s = .next t
          ∧ (t.port n).lastNull = some fl.nullCtr ∧ (t.port n).expect = p.expect ∧ t.fab.rx = s.fab.rx))

/-! ## Packets between packages (08, 09, 11, 12) -/

/-- Memory requests and their answers (08, R245, R250; 11, R329; 12, R356, R357): a permitted WRITE stores its data and is acknowledged, a
permitted READ_REQ returns the bytes, a refusal stores nothing; a request waits for the package's links; WRITE_ACK and READ_DATA end or fill the
burst that waits for them. -/
def Obligations.RemoteMemoryPackets : Prop :=
  ∀ (s u : State) (p : Packet) (o : Nat), s.takePacket p = some (o, u) → o < 128 → p.srcPos ≠ s.table.position →
    (s.requestWaits p = true → exec (.write p) s = .next s ∧ exec (.readReq p) s = .next s)
    ∧ (∀ slot : Nat, p.op = 1 → s.requestWaits p = false → u.judgeRemote o p true p.data.length = .inr slot →
        ∃ (t : State) (k : OutPkt), exec (.write p) s = .next t ∧ t.memory = u.memory.write (u.keyOf slot) p.arg.toNat (packetData p)
          ∧ t.fab.out = u.fab.out ++ [k] ∧ k.pkt.op = 2 ∧ k.pkt.status = 0 ∧ k.pkt.tag = p.tag ∧ k.pkt.dstPos = p.srcPos
          ∧ t = { u with memory := t.memory, fab := { u.fab with out := t.fab.out } })
    ∧ (∀ slot : Nat, p.op = 3 → s.requestWaits p = false → u.judgeRemote o p false p.reqLen = .inr slot →
        ∃ (t : State) (k : OutPkt), exec (.readReq p) s = .next t ∧ t.fab.out = u.fab.out ++ [k] ∧ k.pkt.op = 4 ∧ k.pkt.status = 0
          ∧ k.pkt.data = plain (u.readSlot slot p.arg.toNat p.reqLen)
          ∧ k.pkt.ext = BitVec.ofNat 64 (poisonMask (u.readSlot slot p.arg.toNat p.reqLen)) ∧ k.pkt.tag = p.tag
          ∧ t = { u with fab := { u.fab with out := t.fab.out } })
    ∧ (∀ (st : Status) (retry : Nat), p.op = 1 → s.requestWaits p = false → u.judgeRemote o p true p.data.length = .inl (st, retry) →
        ∃ (t : State) (k : OutPkt), exec (.write p) s = .next t ∧ t.memory = u.memory ∧ t.fab.out = u.fab.out ++ [k] ∧ k.pkt.op = 2
          ∧ k.pkt.status = statusCode st ∧ k.pkt.arg = BitVec.ofNat 64 retry)
    ∧ (∀ (b : Burst), p.op = 2 → (u.memory.bursts.find? fun b => burstTag b.id == p.tag && b.stage == 3 && !b.data.isEmpty) = some b →
        positionOf b.dst = p.srcPos →
        (statusOf p.status = .ok → u.sync.remotes = [] → ∃ t, exec (.writeAck p) s = .next t
          ∧ t.memory = { u.memory with bursts := u.memory.bursts.filter (·.id ≠ b.id) } ∧ t = { u with memory := t.memory, ops := t.ops })
        ∧ (retryable (statusOf p.status) = true → ∃ t, exec (.writeAck p) s = .next t ∧ { b with stage := 2 } ∈ t.memory.bursts
          ∧ t = { u with memory := { u.memory with bursts := t.memory.bursts } }))
    ∧ (∀ (b : Burst) (op : Op), p.op = 4 → statusOf p.status = .ok →
        (u.memory.bursts.find? fun b => burstTag b.id == p.tag && b.stage == 3 && b.data.isEmpty) = some b → positionOf b.src = p.srcPos →
        u.opById b.op = some op → (dmaDesc op.data).poisonHalt = false → p.data.length = b.len →
        ∃ t, exec (.readData p) s = .next t ∧ { b with data := packetData p, stage := if b.hops = [] then 2 else 1 } ∈ t.memory.bursts
          ∧ t = { u with memory := { u.memory with bursts := t.memory.bursts } })

/-- Remote adds, messages, notices and unknown packets (09, R271, R272; 11, R326, R329; 16, R474). -/
def Obligations.MessagePacketsAct : Prop :=
  ∀ (s u : State) (p : Packet) (o : Nat), s.takePacket p = some (o, u) → o < 128 → p.srcPos ≠ s.table.position →
    (∀ n : Nat, p.op = 5 → u.domainCheck o {} = none → u.judgeAdd p = .inr n →
        ∃ (t : State) (x : Add), exec (.taddPacket p) s = .next t ∧ x.tally = n ∧ x.amount = p.arg.toNat / 2 ^ 32 ∧ x.reply = some (o, p)
          ∧ Tbl.get [] t.sync.inbox 8 = Tbl.get [] u.sync.inbox 8 ++ [x]
          ∧ t = { u with sync := { u.sync with inbox := t.sync.inbox } })
    ∧ (∀ st : Status, p.op = 5 → u.domainCheck o {} = none → u.judgeAdd p = .inl st →
        ∃ (t : State) (k : OutPkt), exec (.taddPacket p) s = .next t ∧ t.sync = u.sync ∧ t.fab.out = u.fab.out ++ [k] ∧ k.pkt.op = 6
          ∧ k.pkt.status = statusCode st ∧ k.pkt.tag = p.tag)
    ∧ (∀ (r : RemoteAdd) (x : Pend), p.op = 6 → u.sync.remotes = [r] → r.tag = p.tag → r.sent = true → r.dead = false →
        (u.seat r.seat).inc = r.inc → (u.seat r.seat).state ≠ .resetting → u.play.map (·.seat) = some r.seat → (u.seq r.cd).pend = [x] → x.src = .taddR → x.dst = r.dst →
        ∃ t, exec (.taddStatus p) s = .next t ∧ t.sync.remotes = []
          ∧ (t.seq r.cd).pend = [{ x with value := some ((statusCode (statusOf p.status)).setWidth 64) }]
          ∧ (t.seq r.cd).ctx = (u.seq r.cd).ctx ∧ t = { u with seqs := t.seqs, sync := { u.sync with remotes := [] } })
    ∧ (p.op = 6 → u.sync.remotes = [] → ∃ t, exec (.taddStatus p) s = .next t
          ∧ t.obj 0x800305 0 = min (u.obj 0x800305 0 + 1) (2 ^ 64 - 1) ∧ t = { u with objs := t.objs })
    ∧ (p.op = 0x0E → p.group = 0xFFFF → u.mgmt.asked = [] →
        exec (.notice p) s = .next { u with fab := { u.fab with unknown := u.fab.unknown + 1 } })
    ∧ (∀ (g : Group) (c : Coll), p.op = 0x0E → p.group ≠ 0xFFFF → u.groups = [g] → g.tenant = p.tenant → g.id = p.group → g.colls = [c] →
        u.collParts g.seat g.cd [(c.record, 16)] = true →
        ∃ (t : State) (h : Group), exec (.notice p) s = .next t ∧ t.groups = [h] ∧ h.colls = []
          ∧ t.memory = u.memory.write (u.keyOf 0) (slabAddr g.cd c.record)
              (good (recordBytes (statusOf p.status) c.opcode g.id c.seq.toNat 0xFFFFFFFF)))
    ∧ (p.op ≠ 0 → knownOp p.op = false → ∃ (t : State) (k : OutPkt), exec (.packetUnknownOp p) s = .next t
          ∧ t.fab.unknown = u.fab.unknown + 1 ∧ t.fab.out = u.fab.out ++ [k] ∧ k.pkt.op = 0x0E ∧ k.pkt.status = statusCode .unsupported
          ∧ k.pkt.dstPos = p.srcPos ∧ t.memory = u.memory)
    ∧ (∀ m : MbxPacketMsg, s.takesPackets = true → s.fab.rx = [] → s.hears m.srcPos = true → m.notice = false → m.reply = false → 0x0102 < m.type.toNat →
        m.receiverInc = 0 ∨ m.receiverInc = s.fw.pkgInc → Tbl.get 0 s.mgmt.peers m.srcPos = m.senderInc.toNat →
        ∃ (t : State) (k : OutPkt), exec (.mbxPacket m) s = .next t ∧ t.fab.out = s.fab.out ++ [k] ∧ k.pkt.op = 0x0B
          ∧ k.pkt.dstPos = m.srcPos
          ∧ k.pkt.data = msgBytes m.type.toNat m.sequence .unsupported 1 s.fw.pkgInc m.senderInc 0xFFFF 0 s.now [] ∧ t.memory = s.memory)

/-! ## The spine (11, 12) -/

/-- DATA and ACK frames of an open connection, their timers, and neighbour discovery (11, R334 to R340): a frame that fails the checks of R334 or its
tag is discarded and counted; the next in order is delivered and noted until an ACK covers it; an ACK is taken when its psn exceeds the last's. -/
def Obligations.SpineFramesAdvanceStreams : Prop :=
  ∀ (s : State) (port id : Nat) (fr : SpineFrame) (c : Conn) (st : SpineStream), s.conn id = some c → c.phase = 1 →
    st = c.stream fr.bulk →
    (isSpine port = true → (s.port port).state = .active → fr.conn = id →
      (s.frameOk port fr = false ∨ c.tagGood fr false = false →
        ∃ t, exec (.spineDataFrame port fr) s = .next t ∧ t.obj (portObj port 7) 0 = min (s.obj (portObj port 7) 0 + 1) (2 ^ 64 - 1)
          ∧ t = { s with objs := t.objs })
      ∧ (s.frameOk port fr = false ∨ c.tagGood fr true = false →
        ∃ t, exec (.spineAckFrame port fr) s = .next t ∧ t.obj (portObj port 7) 0 = min (s.obj (portObj port 7) 0 + 1) (2 ^ 64 - 1)
          ∧ t = { s with objs := t.objs })
      ∧ (s.frameOk port fr = true → c.tagGood fr false = true → fr.psn = st.expect → st.expect < 2 ^ 32 → st.window = [] → st.unacked < 7 →
          (∀ p ∈ fr.packets, isTrump p.op = false) →
          ∃ (t : State) (d : Conn), exec (.spineDataFrame port fr) s = .next t ∧ t.conn id = some d
            ∧ (d.stream fr.bulk).expect = (st.expect + 1) % 2 ^ 32 ∧ (d.stream fr.bulk).unacked = st.unacked + 1
            ∧ (d.stream fr.bulk).uncovered = st.uncovered ++ [(fr.psn, fr.ce)]
            ∧ t.fab.rx = s.fab.rx ++ fr.packets.map (fun p => (spineOrigin id (decide (68 ≤ port)), p))
            ∧ d.stream (!fr.bulk) = c.stream (!fr.bulk) ∧ (∀ q, (s.port q).state ≠ .closing → t.port q = s.port q)
            ∧ t = { s with fab := { s.fab with conns := t.fab.conns, rx := t.fab.rx, ports := t.fab.ports }, objs := t.objs })
      ∧ (∀ x : SpineTx, s.frameOk port fr = true → c.tagGood fr true = true → st.lastAck = none → st.held = [x] →
          serialLe x.psn fr.cumAck = true → st.queue = [] → (c.stream (!fr.bulk)).queue = [] → c.switching = false → c.release = false →
          ∃ (t : State) (d : Conn), exec (.spineAckFrame port fr) s = .next t ∧ t.conn id = some d ∧ (d.stream fr.bulk).held = []
            ∧ (d.stream fr.bulk).lastAck = some (st.extend true fr.psn) ∧ d.stream (!fr.bulk) = c.stream (!fr.bulk)
            ∧ (∀ q, (s.port q).state ≠ .closing → t.port q = s.port q)
            ∧ t = { s with fab := { s.fab with conns := t.fab.conns, ports := t.fab.ports }, objs := t.objs })
      ∧ (∀ l : Nat, s.frameOk port fr = true → c.tagGood fr true = true → st.lastAck = some l → st.extend true fr.psn ≤ l →
          ∃ t, exec (.spineAckFrame port fr) s = .next t ∧ t = { s with fab := { s.fab with ports := t.fab.ports } }
            ∧ ∀ q, (s.port q).state ≠ .closing → t.port q = s.port q))
    ∧ (∀ q cum : Nat, st.uncovered ≠ [] → s.spineOut (c.turn 8) = some q → cum = (st.expect + 2 ^ 32 - 1) % 2 ^ 32 →
        ∃ (t : State) (f : SpineFrame) (d : Conn), exec (.spineAckTimer id fr.bulk) s = .next t ∧ t.out = .spine q f :: s.out
          ∧ f.conn = c.peerId ∧ f.bulk = fr.bulk ∧ f.cumAck = cum ∧ f.ecnEcho = st.uncovered.any (fun x => covers cum x.1 && x.2)
          ∧ t.conn id = some d ∧ (d.stream fr.bulk).unacked = 0
          ∧ (d.stream fr.bulk).uncovered = st.uncovered.filter (fun x => !covers cum x.1)
          ∧ t = { s with fab := { s.fab with conns := t.fab.conns }, out := t.out, objs := t.objs })
    ∧ (∀ (q : Nat) (x : SpineTx), st.held = [x] → s.spineOut (c.turn x.cd) = some q →
        (x.expiries < 6 → ∃ (t : State) (f : SpineFrame), exec (.retransmitTimeout id fr.bulk x.psn) s = .next t ∧ t.out = .spine q f :: s.out
          ∧ f.psn = x.psn ∧ f.packets = x.packets ∧ t.obj (portObj q 5) 0 = min (s.obj (portObj q 5) 0 + 1) (2 ^ 64 - 1))
        ∧ (6 ≤ x.expiries → s.groups = [] → s.sync.remotes = [] → ∃ (t : State) (d : Conn), exec (.retransmitTimeout id fr.bulk x.psn) s = .next t ∧ t.conn id = some d
          ∧ d.phase = 2 ∧ d.trump = {} ∧ d.bulk = {}))
    ∧ (∀ (a : Nat) (echo : Bool), isSpine port = true → (s.port port).state = .active → s.hasAddress port = true →
        leNat ((Tbl.get [] s.kdp.octets (portObj port 0x81)).reverse) = a →
        exec (.neighborDiscovery port a echo) s = .next (s.emit (.icmp port a echo)))

/-- Control frames of a connection (12, R359, R360; 11, R334, R335): open, open_ack, redirect, whose place is kept, close, close_ack and the resend
timer; a frame that fails the checks of R334 or its tag is discarded and counted. -/
def Obligations.SpineConnectionsOpenAndClose : Prop :=
  ∀ (s : State) (m : CtrlMsg), ((s.fab.ctrSeen.filter (·.1 == m.srcAddr)).any (·.2 == m.ctr)) = false →
    (isSpine m.port = true →
        (s.ctrlOk 1 m = false → exec (.ctrlOpen m) s = .next (s.discardFrame m.port))
        ∧ (s.ctrlOk 2 m = false → exec (.openAck m) s = .next (s.discardFrame m.port))
        ∧ (s.ctrlOk 3 m = false → exec (.redirect m) s = .next (s.discardFrame m.port))
        ∧ (s.ctrlOk 4 m = false → exec (.close m) s = .next (s.discardFrame m.port))
        ∧ (s.ctrlOk 5 m = false → exec (.closeAck m) s = .next (s.discardFrame m.port)))
    ∧ (∀ id : Nat, s.ctrlOk 1 m = true → farApart s.fw.wire m.revision = false → s.ownSlot = m.slot → s.fab.conns = [] → id = 0 →
        ∃ (t : State) (d : Conn) (r : CtrlMsg), exec (.ctrlOpen m) s = .next t ∧ t.conn id = some d ∧ d.phase = 1 ∧ d.opener = false
          ∧ d.table = m.tableId ∧ d.position = m.position ∧ d.peerId = m.connection ∧ d.revision = min s.fw.wire m.revision
          ∧ t.out = .ctrl id 2 r :: s.out ∧ r.status = .ok)
    ∧ (s.ctrlOk 1 m = true → farApart s.fw.wire m.revision = true → ∃ (t : State) (r : CtrlMsg), exec (.ctrlOpen m) s = .next t ∧ t.out = .ctrl 2048 4 r :: s.out
        ∧ r.status = .version ∧ t.fab.conns = s.fab.conns)
    ∧ (∀ (id : Nat) (c : Conn), s.conn id = some c → c.trump.queue = [] → c.bulk.queue = [] → c.release = false →
        (s.ctrlOk 2 m = true → (s.findConn fun c => c.phase == 0 && c.table == m.tableId && c.position == m.position && c.slot == m.slot) = some id →
          ∃ (t : State) (d : Conn), exec (.openAck m) s = .next t ∧ t.conn id = some d ∧ d.phase = 1 ∧ d.peerId = m.connection
            ∧ d.serial = m.serial ∧ d.revision = min s.fw.wire m.revision ∧ t = { s with fab := t.fab })
        ∧ (s.ctrlOk 3 m = true → (s.findConn fun c => c.phase == 0 && c.table == m.tableId && c.position == m.position) = some id → c.redirects < 2 →
          s.inDirectory c.table m.redirect = true →
          ∃ (t : State) (d : Conn) (r : CtrlMsg), exec (.redirect m) s = .next t ∧ t.conn id = some d ∧ d.position = m.redirect
            ∧ d.redirects = c.redirects + 1 ∧ t.placeOf c.table c.slot = m.redirect ∧ t.out = .ctrl id 1 r :: s.out)
        ∧ (s.ctrlOk 4 m = true →
          (s.findConn fun c => c.table == m.tableId && c.position == m.position && (c.phase == 0 || c.peerId == m.connection)) = some id →
          s.groups = [] → s.sync.remotes = [] →
          ((c.phase = 0 → ∃ t, exec (.close m) s = .next t ∧ t.conn id = none)
          ∧ (c.phase ≠ 0 → ∃ (t : State) (r : CtrlMsg), exec (.close m) s = .next t ∧ t.conn id = none ∧ t.out.head? = some (.ctrl id 5 r))))
        ∧ (s.ctrlOk 5 m = true → (s.findConn fun c => c.phase == 2 && c.table == m.tableId && c.position == m.position) = some id →
          ∃ t, exec (.closeAck m) s = .next t ∧ t.conn id = none ∧ t = { s with fab := t.fab }))
    ∧ (∀ (id : Nat) (c : Conn), s.conn id = some c →
        (c.phase = 1 → exec (.ctrlResendTimer id) s = .next s)
        ∧ (c.phase = 0 → c.sends < 8 → ∃ (t : State) (d : Conn) (r : CtrlMsg), exec (.ctrlResendTimer id) s = .next t ∧ t.conn id = some d
          ∧ d.sends = c.sends + 1 ∧ d.phase = 0 ∧ t.out = .ctrl id 1 r :: s.out)
        ∧ (c.phase = 0 → 8 ≤ c.sends → s.groups = [] → s.sync.remotes = [] → ∃ t, exec (.ctrlResendTimer id) s = .next t ∧ t.conn id = none))

/-! ## Groups, collectives and deals (06, 12) -/

/-- The collective instructions take their group's next sequence and enter the collective engine, where the operation waits for the READYs
of its peers (12, R361, R367 to R370). The five DEAL instructions enter the deal unit of their CD with the descriptor read at issue (06, R172,
R176). -/
def Obligations.CollectiveAndDealInstructionsIssue : Prop :=
    (∀ (s : State) (i : Issue) (c desc : Nat) (ins : Instr) (d : CollDesc) (g h : Group) (k : Coll), c = i.cd.val → i.signal = none →
      ins = .allReduce i desc ∨ ins = .reduceScatter i desc ∨ ins = .allGather i desc ∨ ins = .broadcast i desc ∨ ins = .reduce i desc
        ∨ ins = .allToAll i desc ∨ ins = .barrier i desc ∨ ins = .digest i desc →
      s.canIssue i [] [] (some .coll) → s.collCheck c desc true = none → s.opById s.nextOp = none →
      d = collDesc (plain (s.slabBytes c desc 64)) → d.opcode = collCode ins → s.groups = [g] → g.seat = s.playSeat → g.id = d.group →
      g.cd = c → g.creating = none → g.broken = false → g.spent = false → g.colls = [] → g.early = [] → g.aborts = [] → g.rows = [] → h = { g with seq := g.seq + 1 } →
      k = d.coll h (collHash (plain (s.slabBytes c desc 64))) s.nextOp (g.seq + 1) s.now → d.fieldsOk h = true →
      d.peerDstOk s.playEntry h k = true → d.lacks h k = false → k.peers ≠ [] →
      (k.stage = 0 → d.count ≠ 0 → k.reduced h = false ∧ (k.level h).any (· ≠ h.rank) = true) →
      ∃ (t : State) (h' : Group) (o : Op), exec ins s = .next t ∧ t.groups = [h'] ∧ h'.seq = g.seq + 1 ∧ h'.members = g.members
        ∧ t.opById s.nextOp = some o ∧ o.instr = ins ∧ o.unit = .coll ∧ o.cd = c ∧ o.data = plain (s.slabBytes c desc 64)
        ∧ (k.stage = 0 ∨ d.count = 0 ∨ d.opcode = 7 ∨ d.opcode = 8 →
            o.fin = false ∧ h'.colls.map (fun x => (x.seq, x.opcode, x.hash, x.peers)) = [(g.seq + 1, k.opcode, k.hash, k.peers)]))
    ∧ (∀ (s : State) (i : Issue) (c desc : Nat) (ins : Instr), c = i.cd.val → i.signal = none →
      ins = .dealCnt i desc ∨ ins = .dealXch i desc ∨ ins = .dealCap i desc ∨ ins = .dealGth i desc ∨ ins = .dealCmb i desc →
      s.canIssue i [] [] (some .deal) → s.dealCheck c desc = none →
      (∀ h : Op, s.headOp c .deal = some h → 2 ≤ h.vals.length →
        ∃ (t : State) (o : Op), exec ins s = .next t ∧ t.ops = s.ops ++ [o] ∧ o.id = s.nextOp ∧ o.cd = c ∧ o.unit = .deal ∧ o.instr = ins
          ∧ o.data = plain (s.slabBytes c desc 128) ∧ o.vals = [(s.seq c).ctx.cyc.toNat]
          ∧ t = { s with seqs := t.seqs, ops := t.ops, nextOp := s.nextOp + 1 })
      ∧ (s.headOp c .deal = none → s.groups = [] → (∀ x ∈ s.ops, x.id < s.nextOp) →
        ∃ (t : State) (o : Op), exec ins s = .next t ∧ t.ops = s.ops ++ [o] ∧ o.id = s.nextOp ∧ o.cd = c ∧ o.unit = .deal ∧ o.instr = ins
          ∧ o.data = plain (s.slabBytes c desc 128) ∧ o.vals = [(s.seq c).ctx.cyc.toNat]
          ∧ t = { s with seqs := t.seqs, ops := t.ops, nextOp := s.nextOp + 1 }))

/-- CREATE enters its group, which waits for the other members' records, and sends its own to each member at this table; a group of one member is
created at once, and a CREATE that fails a check enters nothing. DESTROY takes the group's next sequence and removes the group, is refused while an
operation of the group is in flight, or finds no group; its completion record is written where the engine owns the slots, and else later (12, R361 to
R365, R367, R373; 03, R79). -/
def Obligations.GroupsAreCreatedAndDestroyed : Prop :=
  ∀ (s : State) (i : Issue) (c desc : Nat), c = i.cd.val → i.signal = none → s.canIssue i [] [] (some .coll) → s.opById s.nextOp = none →
    (∀ (b : List Byte) (g : Group), b = plain (s.slabBytes c desc (64 + 8 * min 16384 (s.slabField c (desc + 4) 4))) →
        g = groupOf b s.playEntry.tenant s.playSeat c → s.createCheck c desc = none →
        (s.judgeCreate g = .ok → (∀ m ∈ g.members, m.table = s.table.id) → s.table.creates = [] →
          (2 ≤ g.members.length → ∃ (t : State) (h : Group), exec (.create i desc) s = .next t ∧ t.groups = s.groups ++ [h] ∧ h.id = g.id
            ∧ h.tenant = g.tenant ∧ h.seat = s.playSeat ∧ h.members = g.members ∧ h.rank = g.rank ∧ h.creating = some s.nextOp ∧ h.seq = 0
            ∧ h.colls = [] ∧ t.memory = s.memory
            ∧ ∀ (r : Nat) (m : Member) (p : Nat), g.members[r]? = some m → r ≠ g.rank → s.slotHolder m.slot = some p → p ≠ s.table.position →
                ∃ x ∈ t.fab.out, x.pkt.op = 8 ∧ x.pkt.dstPos = p ∧ x.pkt.tenant = g.tenant ∧ x.pkt.group = g.id
                  ∧ x.pkt.data = collBytes recCreate { s.ownRec g 0 with hash := g.hash })
          ∧ (g.members.length = 1 → s.clk.gated &&& groupDomains = 0 → s.groups = [] → (∀ o ∈ s.ops, o.unit ≠ .coll) →
            ∃ (t : State) (h : Group), exec (.create i desc) s = .next t ∧ t.groups = [h] ∧ h.id = g.id ∧ h.tenant = g.tenant
              ∧ h.seat = s.playSeat ∧ h.creating = none ∧ t.out = .created g.tenant g.id s.playSeat .ok :: s.out ∧ t.memory = s.memory))
        ∧ (s.judgeCreate g ≠ .ok → ∃ t, exec (.create i desc) s = .next t ∧ t.groups = s.groups
            ∧ t.out = .created g.tenant g.id s.playSeat (s.judgeCreate g) :: s.out ∧ t.memory = s.memory))
    ∧ (∀ d : CollDesc, d = collDesc (plain (s.slabBytes c desc 64)) → s.collCheck c desc false = none →
        (∀ g : Group, s.seatGroup s.playSeat d.group = some g →
          (g.colls = [] → g.creating = none →
            (s.ops.any fun p => p.unit == .deal && !p.fin && p.seat == g.seat && field p.data 0 2 == g.id.toNat) = false →
            ∃ t, exec (.destroy i desc) s = .next t ∧ t.groups = s.groups.filter (fun h => !(h.tenant == g.tenant && h.id == g.id))
              ∧ t.memory = s.collRecord s.playSeat c d.record (recordBytes .ok 0x11 d.group (g.seq + 1).toNat 0xFFFFFFFF))
          ∧ (∀ q : Quad, g.colls ≠ [] ∨ g.creating.isSome = true
              ∨ (s.ops.any fun p => p.unit == .deal && !p.fin && p.seat == g.seat && field p.data 0 2 == g.id.toNat) = true →
            q = (if g.creating.isSome then 0 else g.seq + 1) →
            ∃ t, exec (.destroy i desc) s = .next t
              ∧ t.groups = s.groups.map (fun h => if h.tenant = g.tenant ∧ h.id = g.id ∧ g.creating = none then { h with seq := q } else h)
              ∧ t.memory = s.collRecord s.playSeat c d.record (recordBytes .conflict 0x11 d.group q.toNat 0xFFFFFFFF)))
        ∧ (s.seatGroup s.playSeat d.group = none → ∃ t, exec (.destroy i desc) s = .next t ∧ t.groups = s.groups
            ∧ t.memory = s.collRecord s.playSeat c d.record (recordBytes .notFound 0x11 d.group 0 0xFFFFFFFF)))

/-- Records of a collective (12, R363, R370 to R375, R381): what each leaves in the group, the sectors that a DONE record marks, and the completion
record of one that ends, which is written where the engine owns the slots, and else later (03, R79). -/
def Obligations.CollectiveRecordsArrive : Prop :=
  ∀ (s : State) (g : Group) (r : CollRec), s.hearsFrom g r.rank r.incarnation → s.fab.rx = [] → s.hears (s.rankPosition r) collReach = true →
    g.tenant = r.tenant → g.id = r.group →
    (g.colls = [] → g.dealAt r.sequence = none → 0 < (BitVec.ofNat 32 r.sequence - g.seq).toNat → (BitVec.ofNat 32 r.sequence - g.seq).toNat < 2 ^ 31 →
        exec (.ready r) s = .next { s with groups := [{ g with
          early := g.early.filter (fun x => !(x.rank == r.rank && x.sequence == r.sequence)) ++ [r] }] })
    ∧ (∀ c : Coll, g.colls = [c] → c.seq.toNat = r.sequence →
        (r.hash ≠ c.hash → ∃ (t : State) (h : Group), exec (.ready r) s = .next t ∧ t.groups = [h] ∧ h.colls = [] ∧ h.spent = true
          ∧ t.memory = s.collRecord g.seat g.cd c.record (recordBytes .mismatch c.opcode g.id c.seq.toNat r.rank))
        ∧ (r.hash = c.hash → c.opcode = 7 → c.peers = [r.rank] → g.telemetry = false →
          (c.count = 0 → ∀ o, s.opById c.op = some o → s.isHead o = true) →
          ∃ (t : State) (h : Group), exec (.ready r) s = .next t ∧ t.groups = [h] ∧ h.colls = [] ∧ h.spent = g.spent ∧ h.broken = g.broken
            ∧ t.memory = s.collRecord g.seat g.cd c.record (recordBytes .ok 7 g.id c.seq.toNat 0xFFFFFFFF))
        ∧ (c.waits g → ∃ (t : State) (f : Nat), exec (.credit r) s = .next t ∧ f = c.landFlow g r.rank
          ∧ t = { s with groups := [{ g with colls := [{ c with
                    back := Tbl.set 0 c.back (flowKey f r.rank) (min (c.backFrom f r.rank + r.credits) (c.sentTo f r.rank)) }] }] })
        ∧ (∀ slot x b a n k m : Nat, c.waits g → r.status = .poison → r.chunk = some x → k = x % 2 ^ 32 →
          (x / 2 ^ 32 = 2 → (c.move g r.rank g.rank).2 = (b, m) ∧ k * c.perChunk < m ∧ slot = c.dstSlot
            ∧ (a, n) = codeSpan c.dst c.bits' (b + k * c.perChunk) (min c.perChunk (m - k * c.perChunk))) →
          (x / 2 ^ 32 ≠ 2 → slot = g.landSlot ∧ a = g.landing + landingOff g (x / 2 ^ 32 == 1) r.rank g.rank k ∧ n = 4096) →
          (s.collOpen g k [] [(a, n)] = true →
            exec (.doneRecord r) s = .next (s.writeSlot slot a ((s.readSlot slot a n).map fun y => (y.1, true))))
          ∧ (s.collOpen g k [] [(a, n)] = false → exec (.doneRecord r) s = .next s))
        ∧ ((r.status = .peerReset → g.deals = []) → ∃ (t : State) (h : Group), exec (.abort r) s = .next t ∧ t.groups = [h] ∧ h.colls = []
          ∧ h.broken = (g.broken || r.status == .peerReset) ∧ h.spent = (g.spent || r.status == .mismatch)
          ∧ t.memory = s.collRecord g.seat g.cd c.record (recordBytes r.status c.opcode g.id c.seq.toNat r.rank))
        ∧ (c.waits g → c.opcode = 8 → exec (.digestRecord r) s = .next { s with groups := [{ g with colls := [{ c with
            digests := Tbl.set none c.digests r.rank (some (if r.status = .poison then none else some r.digest)) }] }] }))

/-- CREATE records, COLL_DATA, DEAL_COUNT and DEAL_ROW (06, R179, R182, R184; 12, R363, R374): held for this package's own CREATE, landed in dst,
joined to the exchange or kept for a later one, landed in the gathered buffer; data that is not of the group's current sequence is counted and
dropped, a row of no deal is dropped, and data with no slot to land in waits. -/
def Obligations.CollectivePacketsLand : Prop :=
  (∀ (s : State) (r : CollRec), s.takesPackets = true → s.fab.rx = [] → s.groups = [] → s.hears s.table.position = true →
      exec (.createRecord r) s = .next { s with table := { s.table with
        creates := s.table.creates.filter (fun x => !(x.tenant == r.tenant && x.group == r.group && x.rank == r.rank)) ++ [r] } })
  ∧ (∀ (s u : State) (p : Packet) (o rank : Nat) (g : Group), s.takePacket p = some (o, u) → u.hearsFrom g rank p.incarnation →
      g.tenant = p.tenant → g.id = p.group → u.rankOf g o p = some rank →
      (s.chunkWaits p = true → exec (.collData p) s = .next s)
      ∧ (s.rowWaits p = true → exec (.dealRow p) s = .next s)
      ∧ (∀ (c : Coll) (b n k : Nat), p.op = 7 → u.refused o p collReach = none → s.chunkWaits p = false → g.colls = [c] → c.waits g → c.seq.toNat % 65536 = p.arg.toNat / 2 ^ 48 →
          bit p.arg.toNat 47 = true → (c.move g rank g.rank).2 = (b, n) → k < c.chunksOf n → c.bits' = 8 →
          p.arg.toNat % 2 ^ 47 = b + k * c.perChunk →
          ∃ (t : State) (h : Group) (e : Coll), exec (.collData p) s = .next t ∧ t.groups = [h] ∧ h.colls = [e] ∧ e.has 2 rank k = true
            ∧ t.memory = (u.writeCodes c.dstSlot c.dst 8 (c.dstCount g) (b + k * c.perChunk)
                (unpackCodes 8 (min c.perChunk (n - k * c.perChunk)) p.data)).memory)
      ∧ (p.op = 7 → u.refused o p collReach = none → g.currentColl p = none → ∃ t, exec (.collData p) s = .next t ∧ t.obj 0x440006 0 = min (u.obj 0x440006 0 + 1) (2 ^ 64 - 1)
          ∧ t = { u with objs := t.objs })
      ∧ (p.op = 9 → u.refused o p dealReach = none → g.deals = [] → g.colls = [] → 0 < (p.tag.toNat / 8 + 8192 - g.seq.toNat % 8192) % 8192 →
          (p.tag.toNat / 8 + 8192 - g.seq.toNat % 8192) % 8192 < 4096 →
          ∃ (t : State) (row : DealSrc), exec (.dealCount p) s = .next t ∧ row.status = statusOf p.status ∧ row.hash = p.arg.toNat
            ∧ row.counts = (List.range (p.data.length / 4)).map (fun i => field p.data (4 * i) 4) ∧ row.speed = p.ext.toNat / 2 ^ 32
            ∧ t = { u with groups := [{ g with rows := g.rows ++ [(p.tag.toNat / 8, 8 * rank + p.tag.toNat % 8, row)] }] })
      ∧ (∀ (d : Deal) (q : Quad), p.op = 9 → u.refused o p dealReach = none → g.deals = [d] → d.seq = some q → q.toNat % 8192 = p.tag.toNat / 8 → (∀ e, (d.cd e).exch = false) →
          ∃ (t : State) (row : DealSrc), exec (.dealCount p) s = .next t ∧ row.status = statusOf p.status ∧ row.hash = p.arg.toNat
            ∧ row.counts = (List.range (p.data.length / 4)).map (fun i => field p.data (4 * i) 4) ∧ row.speed = p.ext.toNat / 2 ^ 32
            ∧ t = { u with groups := [{ g with deals := [{ d with srcs := Tbl.set none d.srcs (8 * rank + p.tag.toNat % 8) (some row) }] }] })
      ∧ (p.op = 0xA → u.refused o p dealReach = none → g.deals = [] → exec (.dealRow p) s = .next u)
      ∧ (∀ (d : Deal) (q : Quad) (n : Nat) (x : DealCd) (k : DealDesc) (off : Nat), p.op = 0xA → u.refused o p dealReach = none → s.rowWaits p = false → g.deals = [d] → d.seq = some q →
          q.toNat % 65536 = p.arg.toNat / 2 ^ 48 → bit p.arg.toNat 47 = false → d.cds = [(n, x)] → x.desc ≠ [] → k = dealDesc x.desc →
          off = p.arg.toNat % 2 ^ 47 → off / k.tokenBytes < k.rowsMax → off % k.tokenBytes + p.data.length ≤ k.tokenBytes →
          ∃ t, exec (.dealRow p) s = .next t
            ∧ t.memory = u.memory.write (u.keyOf 0)
                (slabAddr (dealAt k.gathered k.tokenBytes (off / k.tokenBytes)).1
                  ((dealAt k.gathered k.tokenBytes (off / k.tokenBytes)).2 + off % k.tokenBytes)) (packetData p)
            ∧ t = { u with memory := t.memory, groups := t.groups }))

/-- Shares of a capacity (06, R180): when the sources have more rows than the limit, the shares add up to the limit, and no source gets more
than it has; when they have no more, each keeps all of its rows. -/
def Obligations.CapacitySharesAddUp : Prop :=
  ∀ (limit : Nat) (counts : List Nat),
    (counts.sum ≤ limit → shares limit counts.sum counts = counts)
    ∧ (limit < counts.sum → (shares limit counts.sum counts).sum = limit
        ∧ (shares limit counts.sum counts).length = counts.length
        ∧ ∀ i, i < counts.length → (shares limit counts.sum counts).getD i 0 ≤ counts.getD i 0)

/-! ## The timebase (13) -/

/-- A valid exchange with the dealer (13, R393 to R398): an offset within 1 ms is slewed away; one below −1 ms steps the timebase forward and, once
time has been set, opens a new epoch; one above +1 ms steps it back when force_step gives leave, and is refused and reported when it does not. A step
is due, and the next TCLK edge makes it (R389). -/
def Obligations.TableTimeIsApplied : Prop :=
  ∀ (s : State) (m : TimeMsg) (x : Exch) (off : Int), s.fab.rx = [] → s.hears m.srcPos = true → s.follows m.srcPos = true →
    s.exchange m.exchange = some x → x.t1.isSome = true → x.ok = true → m.valid = true → m.afterNak = false → s.exchangeLate x = false →
    s.time.stepDue = none → s.exchangeOffset { x with t4 := some m.stamp } = some (off, none) →
    (-1000000 ≤ off → off ≤ 1000000 → ∃ t, exec (.delayResp m) s = .next t ∧ t.time.ns = s.time.ns ∧ t.time.epoch = s.time.epoch
        ∧ t.time.offset = off ∧ t.time.remaining = 1000 * off ∧ t.time.slew = (if off = 0 then 0 else if off < 0 then 500 else -500)
        ∧ t.time.state = 1 ∧ t.time.source = 1 ∧ t.time.grandmaster = x.grandmaster ∧ t.time.exchs = s.time.exchs.filter (·.num ≠ x.num)
        ∧ t.time.stepDue = none ∧ t = { s with time := t.time, freeCtr := t.freeCtr })
    ∧ (off < -1000000 ∨ (1000000 < off ∧ s.obj 0x480080 0 = 1) → ∃ t, exec (.delayResp m) s = .next t ∧ t.time.ns = s.time.ns
        ∧ t.time.stepDue = some (off, if off < 0 ∧ s.time.state = 0 then s.time.epoch else s.time.epoch + 1)
        ∧ t.time.state = 1 ∧ t.obj 0x480009 0 = min (s.obj 0x480009 0 + 1) (2 ^ 32 - 1) ∧ (0 < off → t.obj 0x480080 0 = 0)
        ∧ t = { s with time := t.time, freeCtr := t.freeCtr, objs := t.objs }
        ∧ t.time.edge.ns = BitVec.ofInt 64 (s.time.ns.toNat - off) ∧ t.time.edge.slew = 0 ∧ t.time.edge.remaining = 0
        ∧ t.time.edge.epoch = (if off < 0 ∧ s.time.state = 0 then s.time.epoch else s.time.epoch + 1) ∧ t.time.edge.stepDue = none)
    ∧ (1000000 < off → s.obj 0x480080 0 = 0 → s.time.state ≠ 3 → ∃ t, exec (.delayResp m) s = .next t ∧ t.time.ns = s.time.ns
        ∧ t.time.epoch = s.time.epoch ∧ t.time.state = 3 ∧ t.time.stepDue = none ∧ t.obj 0x48000A 0 = min (s.obj 0x48000A 0 + 1) (2 ^ 32 - 1)
        ∧ t.rel.lastError.map (fun r => (r.cls, r.code)) = some (0, 0x0503))

/-- The messages and timers of table time (13, R393, R397 to R399, R402; Table 13-2). -/
def Obligations.TimeMessagesExchangeStamps : Prop :=
  ∀ (s : State), s.fab.rx = [] →
    (s.deals = true → ∃ t, exec .syncIntervalTimer s = .next t ∧ t.time = { s.time with exchNum := s.time.exchNum + 1 }
        ∧ t.fab.out.length = s.fab.out.length + s.livePositions.length ∧ t = { s with time := t.time, fab := t.fab })
    ∧ (∀ (m : TimeMsg) (old : List Exch), s.hears m.srcPos = true → s.follows m.srcPos = true →
        old = s.time.exchs.filter (fun y => y.num == m.exchange.toNat || s.exchangeLate y) →
        ∃ (t : State) (x : Exch), exec (.sync m) s = .next t ∧ x.num = m.exchange.toNat ∧ x.t1 = none ∧ x.t2 = some m.ingress
          ∧ x.epoch = m.epoch ∧ x.began = s.now ∧ x.grandmaster = m.grandmaster ∧ x.ok = !m.afterNak
          ∧ t.time = { s.time with exchs := s.time.exchs.filter (fun y => !(y.num == m.exchange.toNat || s.exchangeLate y)) ++ [x] }
          ∧ (old = [] → t.objs = s.objs) ∧ (old ≠ [] → t.obj 0x48000B 0 = min (s.obj 0x48000B 0 + old.length) (2 ^ 64 - 1))
          ∧ t = { s with time := t.time, objs := t.objs })
    ∧ (∀ (m : TimeMsg) (x y : Exch), s.hears m.srcPos = true → s.follows m.srcPos = true → s.exchange m.exchange = some x → x.t1 = none →
        y = { x with t1 := some m.stamp, ok := x.ok && m.valid } →
        ∃ (t : State) (k : OutPkt), exec (.followUp m) s = .next t
          ∧ t.time = { s.time with exchs := s.time.exchs.map (fun z => if z.num = x.num then y else z) } ∧ t.fab.out = s.fab.out ++ [k]
          ∧ k.pkt.op = 0x0D ∧ k.pkt.dstPos = m.srcPos ∧ field k.pkt.data 0 1 = 3 ∧ t = { s with time := t.time, fab := t.fab })
    ∧ (∀ m : TimeMsg, s.deals = true → s.hears m.srcPos = true → ∃ (t : State) (k : OutPkt), exec (.delayReq m) s = .next t
        ∧ t.fab.out = s.fab.out ++ [k] ∧ k.pkt.op = 0x0D ∧ k.pkt.dstPos = m.srcPos ∧ field k.pkt.data 0 1 = 4
        ∧ field k.pkt.data 8 8 = m.ingress.toNat ∧ field k.pkt.data 16 1 = (if m.afterNak then 0 else 1) ∧ t = { s with fab := t.fab })
    ∧ (s.time.remaining = 0 → exec .slewEnd s = .next { s with time := { s.time with slew := 0 } })
    ∧ (s.time.remaining ≠ 0 → exec .slewEnd s = .next s)
    ∧ (s.time.state = 1 → exec .holdoverEntry s = .next { s with time := { s.time with state := 2, slew := 0, remaining := 0 } })
    ∧ (s.time.state ≠ 1 → exec .holdoverEntry s = .next s)
    ∧ (∀ (x : Exch) (rest : List Exch), s.time.exchs = x :: rest → ∃ t, exec .exchangeTimeout s = .next t
        ∧ t.time = { s.time with exchs := rest.filter (·.num ≠ x.num) }
        ∧ t.obj 0x48000B 0 = min (s.obj 0x48000B 0 + 1 + (rest.filter (·.num = x.num)).length) (2 ^ 64 - 1)
        ∧ t = { s with time := t.time, objs := t.objs })
    ∧ (s.time.exchs = [] → exec .exchangeTimeout s = .next s)

/-- PTP at the dealer (13, R392, R401, R402). -/
def Obligations.PtpDisciplinesTheDealer : Prop :=
  ∀ (s : State) (gm : Word) (rank : Nat), s.ptpOn = true →
    (s.time.master = none → exec (.ptpAnnounce gm rank false (s.obj 0x480082 0)) s
        = .next { s with time := { s.time with master := some (gm, rank) } })
    ∧ (∀ (g : Word) (r : Nat), s.time.master = some (g, r) → g ≠ gm →
        (r ≤ rank → exec (.ptpAnnounce gm rank false (s.obj 0x480082 0)) s = .next s)
        ∧ (rank < r → exec (.ptpAnnounce gm rank false (s.obj 0x480082 0)) s
            = .next { s with time := { s.time with master := some (gm, rank) } })
        ∧ ∀ domain : Nat, exec (.ptpAnnounce gm rank true domain) s = .next s)
    ∧ (∀ (arb : Bool) (domain : Nat), domain ≠ s.obj 0x480082 0 → exec (.ptpAnnounce gm rank arb domain) s = .next s)
    ∧ (∀ (c : Instr) (r : Nat), s.time.master = some (gm, r) → s.time.state = 1 →
        c = .ptpMasterLoss ∨ c = .ptpAnnounce gm rank true (s.obj 0x480082 0) →
        ∃ t, exec c s = .next t ∧ t.time = { s.time with master := none, exchs := [], state := 2, slew := 0, remaining := 0 }
          ∧ (s.time.exchs = [] → t.objs = s.objs)
          ∧ (s.time.exchs ≠ [] → t.obj 0x48000B 0 = min (s.obj 0x48000B 0 + s.time.exchs.length) (2 ^ 64 - 1))
          ∧ t = { s with time := t.time, objs := t.objs })
    ∧ (∀ (seq : Half) (seconds nanos t1 : Nat) (ingress : Word), s.time.master = some (gm, rank) → s.time.exchs = [] →
        ptpNs seconds nanos = some t1 →
        (∃ (t : State) (x : Exch), exec (.ptpSync seq false seconds nanos ingress) s = .next t ∧ x.num = seq.toNat ∧ x.t2 = some ingress
          ∧ x.t1 = some (BitVec.ofNat 64 t1) ∧ x.t3 = some s.now ∧ x.epoch = s.time.epoch ∧ x.began = s.now
          ∧ t = { s with time := { s.time with exchs := [x] }, out := .ptpDelayReq seq (s.obj 0x480083 0 ≠ 0) :: s.out })
        ∧ (∃ (t : State) (x : Exch), exec (.ptpSync seq true seconds nanos ingress) s = .next t ∧ x.num = seq.toNat
          ∧ x.t2 = some ingress ∧ x.t1 = none ∧ x.epoch = s.time.epoch ∧ x.began = s.now
          ∧ t = { s with time := { s.time with exchs := [x] } }))
    ∧ (∀ (seq : Half) (seconds nanos t1 : Nat) (x : Exch), s.time.exchs = [x] → x.num = seq.toNat → x.t1 = none →
        ptpNs seconds nanos = some t1 →
        exec (.ptpFollowUp seq seconds nanos) s = .next { s with
          time := { s.time with exchs := [{ x with t1 := some (BitVec.ofNat 64 t1), t3 := some s.now }] }
          out := .ptpDelayReq seq (s.obj 0x480083 0 ≠ 0) :: s.out })
    ∧ (∀ (seq : Half) (seconds nanos t4 : Nat) (x : Exch) (t1 t2 t3 : Word) (off : Int), s.time.exchs = [x] →
        s.time.master = some (gm, rank) → x.num = seq.toNat → x.t1 = some t1 → x.t2 = some t2 → x.t3 = some t3 → x.ok = true →
        s.exchangeLate x = false → s.time.stepDue = none →
        ptpNs seconds nanos = some t4 → x.epoch = s.time.epoch → stampEpoch t2 = s.time.epoch.toNat % 16 →
        off = ((stampNs t2 - t1.toNat) - (t4 - stampNs t3)) / 2 → -1000000 ≤ off → off ≤ 1000000 →
        ∃ t, exec (.ptpDelayResp seq seconds nanos) s = .next t ∧ t.time.offset = off ∧ t.time.remaining = 1000 * off ∧ t.time.state = 1
          ∧ t.time.source = 2 ∧ t.time.grandmaster = gm ∧ t.time.ns = s.time.ns ∧ t.time.exchs = []
          ∧ t = { s with time := t.time, freeCtr := t.freeCtr })

/-! ## The table (12) -/

/-- The timers of the table (12, R347, R348, R350 to R352, R354): reports to the dealer, claims, rosters, a position
that stays silent, and promote_slot. -/
def Obligations.TableTimersAndPromotion : Prop :=
  ∀ s : State,
    (∀ d : Nat, d = s.table.roster.dealer → s.atTable = true → s.dozes = false → d ≠ s.table.position → d < 18 →
        ∃ (t : State) (k : OutPkt), exec .reportSendTimer s = .next t ∧ t.table = { s.table with records := [] }
          ∧ t.fab.out = s.fab.out ++ [k] ∧ k.pkt.op = 0x0C ∧ k.pkt.dstPos = d ∧ field k.pkt.data 0 1 = 1
          ∧ t = { s with table := t.table, fab := t.fab })
    ∧ (s.hasTable = true → s.dev = .live → s.table.roster.dealer ≠ s.table.position → s.table.claim = none →
        s.table.wasLive s.table.position = true → s.hasMajority = true →
        ∃ t, exec .claimTimer s = .next t ∧ t.table = { s.table with claim := some (s.table.roster.epoch + 1) }
          ∧ t.fab.out.length = s.fab.out.length + s.sendPositions.length ∧ t = { s with table := t.table, fab := t.fab })
    ∧ (s.hasMajority = false → exec .claimTimer s = .next s)
    ∧ (s.deals = true → s.table.claim = none → s.table.roster.entries.length = 18 →
        (∀ p, p < 18 → (s.table.roster.entry p).state ≠ 0) →
        ∃ t, exec .rosterSendTimer s = .next t ∧ t.table = { s.table with
            sends := (s.table.sends + 1) % 100, records := [], late := s.table.records.foldl (addLate (s.obj 0x440081 50)) s.table.late }
          ∧ t.fab.out.length = s.fab.out.length + s.sendPositions.length ∧ t = { s with table := t.table, fab := t.fab })
    ∧ (∀ e : Nat, s.hasTable = true → s.dev = .live → s.table.claim = some e → s.calm →
        ∃ t, exec .rosterSendTimer s = .next t ∧ t.table.roster.dealer = s.table.position ∧ e ≤ t.table.roster.epoch ∧ t.table.claim = none)
    ∧ (∀ pos : Nat, s.deals = true → s.calm → pos < 18 → pos ≠ s.table.position → s.table.roster.entries.length = 18 →
        liveCode (s.posState pos) = true →
        ∃ t, exec (.reportTimeout pos) s = .next t ∧ (t.table.roster.entry pos).state = 4 ∧ (t.table.roster.entry pos).slot = 0xFF
          ∧ t.table.roster.epoch = s.table.roster.epoch + 1 ∧ t.table.roster.dealer = s.table.roster.dealer)
    ∧ (∀ (ch : Channel) (n p : Nat), s.calm → s.expertOn ch 0x4100 → s.deals = true → n < 16 →
        (s.table.roster.entries.findIdx? (·.state == 3)) = some p →
        ∃ t, exec (.promoteSlot ch n) s = .next t ∧ (t.table.roster.entry p).state = 2 ∧ (t.table.roster.entry p).slot = n
          ∧ t.table.roster.epoch = s.table.roster.epoch + 1 ∧ t.out = .kdp ch 4 .ok 0 [] :: s.out)
    ∧ (∀ (ch : Channel) (n : Nat), s.expertOn ch 0x4100 → s.deals = false →
        exec (.promoteSlot ch n) s = .next (s.emit (.kdp ch 4 .notFound 0 [])))

/-- REPORT, ROSTER and CLAIM (12, R347, R348, R350 to R354, R384). A position that the roster calls EMPTY, DOWN or FOLDED and that reports becomes
JOINING, and a JOINING one is placed. -/
def Obligations.TableMessagesChangeTheRoster : Prop :=
  ∀ (s : State) (m : RosterMsg), s.fab.rx = [] → s.hears m.sender = true → s.calm → s.fromTable m = true →
    (s.deals = true → s.table.roster.entries.length = 18 → m.ownState ≠ 5 → seatedCode (s.posState m.sender) = true →
        (s.table.roster.entry m.sender).revision = m.revision →
        exec (.report m) s = .next { s with table := { s.table with
          late := (m.records.take 16).foldl (addLate (s.obj 0x440081 50)) s.table.late
          reach := Tbl.set 0 s.table.reach m.sender m.reach.toNat } })
    ∧ (s.deals = true → s.table.roster.entries.length = 18 → m.ownState ≠ 5 → liveCode (s.posState m.sender) = false →
        ∃ t, exec (.report m) s = .next t ∧ (t.table.roster.entry m.sender).state = 1 ∧ (t.table.roster.entry m.sender).slot = 0xFF
          ∧ t.table.roster.epoch = s.table.roster.epoch + 1)
    ∧ (s.deals = true → s.table.roster.entries.length = 18 → m.ownState ≠ 5 → s.posState m.sender = 1 →
        ∃ t, exec (.report m) s = .next t ∧ seatedCode (t.table.roster.entry m.sender).state = true
          ∧ (s.kittyAuto = false → (t.table.roster.entry m.sender).state = 3 ∧ (t.table.roster.entry m.sender).slot = 0xFF)
          ∧ t.table.roster.epoch = s.table.roster.epoch + 1)
    ∧ (s.deals = true → s.table.roster.entries.length = 18 → m.ownState = 5 → s.posState m.sender ≠ 5 →
        ∃ t, exec (.report m) s = .next t ∧ (t.table.roster.entry m.sender).state = 5 ∧ (t.table.roster.entry m.sender).slot = 0xFF
          ∧ t.table.roster.epoch = s.table.roster.epoch + 1)
    ∧ (s.table.roster.epoch < m.epoch → ∃ t, exec (.roster m) s = .next t ∧ t.table.claim = none ∧ t.table.byClaim = false
        ∧ t.table.roster = { dealer := m.dealer, epoch := m.epoch, entries := eighteen {} m.entries })
    ∧ (m.epoch < s.table.roster.epoch → exec (.roster m) s = .next s)
    ∧ (s.table.claimWins m = true → ∃ t, exec (.claim m) s = .next t ∧ t.table.claim = none ∧ t.table.byClaim = true
        ∧ t.table.roster = { dealer := m.sender, epoch := m.epoch, entries := eighteen {} m.entries })
    ∧ (s.table.claimWins m = false → exec (.claim m) s = .next s)

/-! ## Clocks, power and temperature (14; 20) -/

/-- The divider's requests, the switch to the largest of them, the brake, the thermal limits, clock gating and the crystal (14, R406 to
R408, R410 to R414, R421, R426, R428; Tables 14-3 and 14-9). -/
def Obligations.ClocksAndDividersAct : Prop :=
  ∀ s : State,
    (∀ v : Word, v.toNat % 16 ≠ 4 → v.toNat % 16 ≠ 5 → v.toNat % 16 ≠ 6 → v.toNat % 16 ≠ 8 → exec (.clkCclkDivWrite v) s = .next s)
    ∧ (∀ v : Word, v.toNat % 16 ∈ [4, 5, 6, 8] → ∃ t, exec (.clkCclkDivWrite v) s = .next t
        ∧ t = { s with clk := { s.clk with ledger := v.toNat % 16 }, power := { s.power with rails := t.power.rails } }
        ∧ (s.clk.largest ≤ t.clk.largest → t.power = s.power)
        ∧ (t.clk.largest < s.clk.largest → ∀ c, c < 8 →
            (t.power.rail c).target = max (s.power.rail c).target (s.railTarget c t.clk.largest)))
    ∧ (s.clk.largest = s.clk.div → exec .dividerChange s = .next s)
    ∧ (s.clk.source = 2 → s.clk.div < s.clk.largest → exec .dividerChange s
        = .next { s with clk := { s.clk with div := s.clk.largest, changes := s.clk.changes + 1 } })
    ∧ (s.clk.source = 2 → s.clk.largest < s.clk.div →
        (s.railsReady s.clk.largest = true → exec .dividerChange s
          = .next { s with clk := { s.clk with div := s.clk.largest, changes := s.clk.changes + 1 } })
        ∧ (s.railsReady s.clk.largest = false → exec .dividerChange s = .next s))
    ∧ (s.brakeSeen = true → s.clk.brake = false → s.clk.ledger ≤ 8 → ∃ t, exec .powerBrakeAssert s = .next t
        ∧ t.clk = { s.clk with brake := true } ∧ t.clk.largest = 8 ∧ t.power.wanted = none
        ∧ (∀ c, c < 8 → (s.power.rail c).step = true → (s.power.rail c).prev < (s.power.rail c).target →
            (t.power.rail c).target = (s.power.rail c).prev ∧ (t.power.rail c).step = false)
        ∧ t.obj 0x200201 0 = min (s.obj 0x200201 0 + 1) (2 ^ 32 - 1)
        ∧ t = { s with clk := t.clk, power := { s.power with wanted := none, rails := t.power.rails }, objs := t.objs })
    ∧ (s.brakeSeen = false ∨ s.clk.brake = true → exec .powerBrakeAssert s = .next s)
    ∧ (s.clk.brake = true → ∃ t, exec .powerBrakeRelease s = .next t ∧ t.clk = { s.clk with brake := false }
        ∧ t = { s with clk := t.clk, power := { s.power with rails := t.power.rails } })
    ∧ (s.clk.brake = false → exec .powerBrakeRelease s = .next s)
    ∧ (∀ temp : Int,
        (103 ≤ temp → s.clk.thermalJ = false → s.clk.ledger ≤ 8 → ∃ t, exec (.thermalThrottle false temp) s = .next t
          ∧ t.clk = { s.clk with thermalJ := true } ∧ t.clk.largest = 8 ∧ t.power.wanted = none
          ∧ t.obj 0x200202 0 = min (s.obj 0x200202 0 + 1) (2 ^ 32 - 1)
          ∧ t = { s with clk := t.clk, power := { s.power with wanted := none, rails := t.power.rails }, objs := t.objs })
        ∧ (100 ≤ temp → s.clk.thermalM = false → s.clk.ledger ≤ 8 → ∃ t, exec (.thermalThrottle true temp) s = .next t
          ∧ t.clk = { s.clk with thermalM := true } ∧ t.clk.largest = 8 ∧ t.power.wanted = none
          ∧ t.obj 0x200202 0 = min (s.obj 0x200202 0 + 1) (2 ^ 32 - 1)
          ∧ t = { s with clk := t.clk, power := { s.power with wanted := none, rails := t.power.rails }, objs := t.objs })
        ∧ (temp < 103 → exec (.thermalThrottle false temp) s = .next s) ∧ (temp < 100 → exec (.thermalThrottle true temp) s = .next s)
        ∧ (temp < 98 → ∃ t, exec (.thermalThrottleEnd false temp) s = .next t ∧ t.clk = { s.clk with thermalJ := false }
          ∧ t = { s with clk := t.clk, power := { s.power with rails := t.power.rails } })
        ∧ (temp < 95 → ∃ t, exec (.thermalThrottleEnd true temp) s = .next t ∧ t.clk = { s.clk with thermalM := false }
          ∧ t = { s with clk := t.clk, power := { s.power with rails := t.power.rails } })
        ∧ (98 ≤ temp → exec (.thermalThrottleEnd false temp) s = .next s) ∧ (95 ≤ temp → exec (.thermalThrottleEnd true temp) s = .next s))
    ∧ (∀ d : Fin 44,
        (s.gateable d.val = true → s.clk.ungating.getLsbD d.val = false → ∃ t, exec (.clockGate d) s = .next t
          ∧ t.clk.gated.getLsbD d.val = true ∧ (∀ k, k ≠ d.val → t.clk.gated.getLsbD k = s.clk.gated.getLsbD k)
          ∧ t = { s with clk := { s.clk with gated := t.clk.gated } })
        ∧ (s.gateable d.val = false → exec (.clockGate d) s = .next s)
        ∧ (s.clk.ungating.getLsbD d.val = true → s.groups = [] → ∃ t, exec (.clockUngate d) s = .next t
          ∧ t.clk.gated.getLsbD d.val = false ∧ t.clk.ungating.getLsbD d.val = false
          ∧ (∀ k, k ≠ d.val → t.clk.gated.getLsbD k = s.clk.gated.getLsbD k ∧ t.clk.ungating.getLsbD k = s.clk.ungating.getLsbD k)
          ∧ t = { s with clk := { s.clk with gated := t.clk.gated, ungating := t.clk.ungating } })
        ∧ (s.clk.ungating.getLsbD d.val = false → exec (.clockUngate d) s = .next s))
    ∧ (s.boot.waiting = true → s.boot.held = none → s.clk.xtalFail = false → s.clk.source ≠ 1 →
        exec .crystalStable s = .next { s with clk := { s.clk with source := 1, xtalGood := true } }
        ∧ (s.dev ≠ .recovering → exec .crystalTimeout s = .next { s with
            clk := { s.clk with xtalFail := true }, out := .crystalFailure true :: .crystalFailure false :: s.out })
        ∧ (s.dev = .recovering → ∃ t, exec .crystalTimeout s = .next t ∧ t.dev = .folded ∧ t.obj 0x601003 0 = 2))
    ∧ (s.boot.waiting = false ∨ s.boot.held.isSome = true ∨ s.clk.xtalFail = true ∨ s.clk.source = 1 →
        exec .crystalStable s = .next s ∧ exec .crystalTimeout s = .next s)
    ∧ (s.pending = [] → s.clk.source = 1 → s.power.tripLow = false → s.dev = .rom → s.links.faulty = [] → ∃ t, step s = .next t
        ∧ t.dev = .staging ∧ t.boot.waiting = false ∧ t.links.trained = true ∧ t.host.linkUp = !s.boot.perstLow
        ∧ t.clk = { s.clk with source := 2, pllLock := true } ∧ t.memory = s.memory)
    ∧ (s.clk.source = 2 → s.dev = .folded ∨ s.dev = .optionConflict → ∃ t, exec .referenceLoss s = .next t
        ∧ t.clk = { s.clk with source := 3, xtalGood := false, pllLock := false } ∧ t.dev = s.dev ∧ t.memory = s.memory
        ∧ (s.time.state = 1 → t.time.state = 2) ∧ t.rel.lastError.map (fun r => (r.cls, r.code)) = some (2, 0x0401))
    ∧ (s.clk.source = 2 → s.dev ≠ .folded → s.dev ≠ .optionConflict →
        (s.recentRecoveries < 3 → ∃ t, exec .referenceLoss s = .next t ∧ t.dev = .recovering ∧ t.boot.waiting = true
          ∧ t.boot.cause = 0x0D ∧ t.boot.scope = 3 ∧ t.clk.source = 3 ∧ t.clk.div = 8 ∧ t.play = none ∧ t.obj 0x601002 0 = 2)
        ∧ (3 ≤ s.recentRecoveries → ∃ t, exec .referenceLoss s = .next t ∧ t.dev = .folded ∧ t.clk.source = 3 ∧ t.obj 0x601003 0 = 4))
    ∧ (s.clk.source ≠ 2 → exec .referenceLoss s = .next s)

/-- The power ledger: reports enter it, its rule picks the divider, grants go out; and the regulators' steps and telemetry (14, R419,
R420, R422 to R425, R427; 20, R580; Tables 14-6 to 14-8). -/
def Obligations.PowerLedgerActs : Prop :=
  ∀ s : State,
    (∀ rs : List DieReading, s.dev = .live → ∃ t, exec (.ledgerIntervalEnd rs) s = .next t
        ∧ t.power = { s.power with
            interval := s.power.interval + 1, excluded := t.power.excluded
            reports := (s.power.reports.filter fun o => !rs.any (·.die == o.die)) ++ rs.map s.budgetReport }
        ∧ (∀ r ∈ rs, (s.budgetReport r).die = r.die ∧ (s.budgetReport r).interval = s.power.interval
            ∧ (s.budgetReport r).energyFixed = r.energyFixed ∧ (s.budgetReport r).energyScaled = r.energyScaled
            ∧ (s.budgetReport r).vddMv = r.vddMv ∧ (r.sensors.length < (excludedOf r.sensors).length + 4 → (s.budgetReport r).tmax = 1664))
        ∧ (∀ r, rs = [r] → Tbl.get [] t.power.excluded r.die.val = excludedOf r.sensors)
        ∧ ((rs.map s.newlyExcluded).sum = 0 → t.objs = s.objs)
        ∧ ((rs.map s.newlyExcluded).sum ≠ 0 → t.obj 0x200103 0 = min (s.obj 0x200103 0 + (rs.map s.newlyExcluded).sum) (2 ^ 32 - 1))
        ∧ t = { s with power := t.power, objs := t.objs })
    ∧ (∀ (l : List Int) (k : Nat), k < l.length → (k ∈ excludedOf l ↔
        l.getD k 0 < -40 * 16 ∨ 150 * 16 < l.getD k 0 ∨ 2 * 15 * 16 < (2 * l.getD k 0 - median2 l).natAbs))
    ∧ (s.dev = .live → s.clk.ledger ∈ [4, 5, 6, 8] → ∃ t, exec .budgetReport s = .next t
        ∧ t = { s with clk := { s.clk with ledger := t.clk.ledger }, power := t.power, objs := t.objs }
        ∧ t.power.reports = s.power.reports.filter (fun r => !s.messageClear r.die.val 8)
        ∧ (∀ i, i < 10 → ∀ r, s.power.reports.find? (fun r => r.die.val == i && s.messageClear i 8) = some r →
            (t.power.die i).fixed = 10 * r.energyFixed.toNat ∧ (t.power.die i).tmax = r.tmax ∧ (t.power.die i).missed = 0
              ∧ (t.power.die i).energy = r.energyScaled.toNat
              ∧ (t.power.die i).power = 10 * (r.energyFixed.toNat + r.energyScaled.toNat))
        ∧ (∀ i, i < 10 → s.power.reports.find? (fun r => r.die.val == i && s.messageClear i 8) = none →
            (t.power.die i).fixed = (s.power.die i).fixed ∧ (t.power.die i).s4 = (s.power.die i).s4
              ∧ (t.power.die i).tmax = (s.power.die i).tmax)
        ∧ ((∀ i, i < 10 → (t.power.die i).tmax < (s.obj 0x200180 95 : Int) * 16) ∨ s.power.hot = 0 →
            (t.power.predict s.clk.ledger ≤ s.capMw → t.clk.ledger = s.clk.ledger)
            ∧ (s.capMw < t.power.predict s.clk.ledger →
                s.clk.ledger ≤ t.clk.ledger ∧ (t.power.predict t.clk.ledger ≤ s.capMw ∨ t.clk.ledger = 8)
                  ∧ ∀ d ∈ [4, 5, 6, 8], s.clk.ledger ≤ d → d < t.clk.ledger → s.capMw < t.power.predict d))
        ∧ (1 ≤ s.power.hot → (∃ i, i < 10 ∧ (s.obj 0x200180 95 : Int) * 16 ≤ (t.power.die i).tmax) →
            slowerBy1 s.clk.ledger ≤ t.clk.ledger ∧ t.power.wanted = if s.clk.ledger = 8 then s.power.wanted else none)
        ∧ (∀ d, fasterBy1 s.clk.ledger = some d → t.power.predict s.clk.ledger ≤ s.capMw → 100 * t.power.predict d ≤ 95 * s.capMw →
            (∀ i, i < 10 → (t.power.die i).tmax < ((s.obj 0x200180 95 : Int) - 5) * 16) → 9 ≤ s.power.faster → 99 ≤ s.power.cool →
            s.power.wanted = none → t.power.wanted = some d ∧ t.power.faster = 0 ∧ t.clk = s.clk)
        ∧ (∀ i, i < 10 → Tbl.get none t.power.sent i = some {
            interval := s.power.interval - 1, divider := t.clk.ledger
            budget := (t.power.die i).fixed
              + (if ((List.range 10).map fun j => (t.power.die j).energy).sum = 0 then 0
                 else scaledAt t.power.s4All t.clk.ledger * (t.power.die i).energy / ((List.range 10).map fun j => (t.power.die j).energy).sum)
            target := s.railTarget (if i < 8 then i else 9) (t.power.wanted.getD t.clk.largest) })
        ∧ t.obj 0x200001 0 = ((List.range 10).map fun i => (t.power.die i).power).sum)
    ∧ (s.dev ≠ .live → exec .budgetReport s = .next s ∧ ∀ rs, exec (.ledgerIntervalEnd rs) s = .next s)
    ∧ (∀ (die : Fin 10) (g : Grant), Tbl.get none s.power.sent die.val = some g → s.messageClear 8 die.val = false →
        exec (.budgetGrant die) s = .next s)
    ∧ (∀ (die : Fin 10) (g : Grant), Tbl.get none s.power.sent die.val = some g → s.messageClear 8 die.val = true →
        ∃ t, exec (.budgetGrant die) s = .next t ∧ Tbl.get {} t.power.grants die.val = g ∧ Tbl.get none t.power.sent die.val = none
        ∧ (s.power.wanted = none → t.clk = { s.clk with fallback := s.clk.fallback.filter (· ≠ die.val) })
        ∧ (∀ d, s.power.wanted = some d →
            (t.railsReady d = true → t.clk = { s.clk with fallback := s.clk.fallback.filter (· ≠ die.val), ledger := d }
              ∧ t.power.wanted = none ∧ t.power.faster = 0)
            ∧ (t.railsReady d = false → t.clk = { s.clk with fallback := s.clk.fallback.filter (· ≠ die.val) } ∧ t.power.wanted = some d))
        ∧ (die.val < 8 → (t.power.rail die.val).target = max g.target (s.railTarget die.val s.clk.div))
        ∧ t = { s with clk := t.clk, power := { s.power with
            sent := t.power.sent, grants := t.power.grants, rails := t.power.rails, wanted := t.power.wanted, faster := t.power.faster } })
    ∧ (∀ die : Fin 10, s.dev ≠ .live ∨ die.val ∈ s.clk.fallback → exec (.grantMissFallback die) s = .next s)
    ∧ (∀ die : Fin 10,
        (Tbl.get none s.power.sent die.val = none → exec (.budgetGrant die) s = .next s)
        ∧ (s.dev = .live → die.val ∉ s.clk.fallback → s.clk.ledger ≤ 8 → ∃ t, exec (.grantMissFallback die) s = .next t
          ∧ t.clk = { s.clk with fallback := s.clk.fallback ++ [die.val] } ∧ t.clk.largest = 8 ∧ t.power.wanted = none
          ∧ t = { s with clk := t.clk, power := { s.power with wanted := none, rails := t.power.rails } }))
    ∧ (∀ die : Fin 10,
        ((s.power.die die.val).missed = 10 → ∃ t, exec (.reportMiss die) s = .next t ∧ (t.power.die die.val).missed = 11
          ∧ (t.power.die die.val).fixed = min (2 * (s.power.die die.val).fixed) (if die.val < 8 then 260000 else 150000)
          ∧ (t.power.die die.val).fixed + (t.power.die die.val).s4 ≤ (if die.val < 8 then 260000 else 150000)
          ∧ (∀ k, k ≠ die.val → t.power.die k = s.power.die k) ∧ t.obj 0x200403 0 = min (s.obj 0x200403 0 + 1) (2 ^ 32 - 1)
          ∧ t = { s with power := { s.power with dies := t.power.dies }, objs := t.objs })
        ∧ ((s.power.die die.val).missed ≠ 10 → exec (.reportMiss die) s = .next s))
    ∧ (∀ (rail : Fin 10) (mv : Nat),
        ((s.power.rail rail.val).step = true → (s.power.rail rail.val).target ≤ mv + 10 → mv ≤ (s.power.rail rail.val).target + 10 →
          ∃ t, exec (.avsStepDone rail mv) s = .next t
            ∧ t.power.rail rail.val = { s.power.rail rail.val with step := false, read := mv }
            ∧ (∀ k, k ≠ rail.val → t.power.rail k = s.power.rail k)
            ∧ (s.power.wanted = none → t.clk = s.clk)
            ∧ (∀ d, s.power.wanted = some d →
                (t.railsReady d = true → t.clk = { s.clk with ledger := d } ∧ t.power.wanted = none ∧ t.power.faster = 0)
                ∧ (t.railsReady d = false → t.clk = s.clk ∧ t.power.wanted = some d ∧ t.power.faster = s.power.faster))
            ∧ t = { s with clk := t.clk, power := { s.power with rails := t.power.rails, wanted := t.power.wanted, faster := t.power.faster } })
        ∧ ((s.power.rail rail.val).step = false → exec (.avsStepDone rail mv) s = .next s)
        ∧ (mv + 10 < (s.power.rail rail.val).target ∨ (s.power.rail rail.val).target + 10 < mv → exec (.avsStepDone rail mv) s = .next s)
        ∧ ((s.power.rail rail.val).step = true → ∃ t, exec (.avsStepTimeout rail) s = .next t ∧ t.power.wanted = none
          ∧ t.power.rail rail.val = { s.power.rail rail.val with target := (s.power.rail rail.val).prev, step := false }
          ∧ (∀ k, k ≠ rail.val → t.power.rail k = s.power.rail k) ∧ t.obj 0x200402 0 = min (s.obj 0x200402 0 + 1) (2 ^ 32 - 1)
          ∧ t.rel.lastError.map (fun r => (r.cls, r.code, r.d)) = some (0, 0x0402, [rail.val, (s.power.rail rail.val).target])
          ∧ t = { s with power := { s.power with rails := t.power.rails, wanted := none }, objs := t.objs, rel := t.rel })
        ∧ ((s.power.rail rail.val).step = false → exec (.avsStepTimeout rail) s = .next s))
    ∧ (∀ (rail : Nat) (fault : Bool) (tel : Telemetry),
        (rail < 19 → ∃ t, exec (.pmbusPoll rail fault tel true) s = .next t ∧ (rail ∈ t.power.faulty ↔ fault = true)
          ∧ (∀ k, k ≠ rail → (k ∈ t.power.faulty ↔ k ∈ s.power.faulty)) ∧ (rail < 10 → (t.power.rail rail).read = tel.vout)
          ∧ Tbl.get {} t.power.telemetry rail = tel ∧ (∀ k, k ≠ rail → Tbl.get {} t.power.telemetry k = Tbl.get {} s.power.telemetry k)
          ∧ t = { s with power := { s.power with faulty := t.power.faulty, rails := t.power.rails, telemetry := t.power.telemetry } })
        ∧ exec (.pmbusPoll rail fault tel false) s = .next s)
    ∧ (∀ low : Bool, exec (.pmbAlertNChange low) s = .next { s with power := { s.power with pmbAlert := low } })

/-- Power domains close and open in their four states, and DOZE is entered and left through them (14, R415 to R418, R429, R431, Tables
14-10 to 14-12). -/
def Obligations.DomainsAndDozeAct : Prop :=
  ∀ s : State,
    (∀ d : Fin 13,
        (s.mayClose d.val = true → s.domain d.val = 0 → ∃ t, exec (.domainClose d) s = .next t ∧ t.domain d.val = 1
          ∧ (∀ n ∈ groupPorts d.val, (t.port n).state = .closing ∨ (t.port n).state = .off)
          ∧ t = { s with power := { s.power with domains := t.power.domains }, fab := { s.fab with ports := t.fab.ports, rx := t.fab.rx } })
        ∧ (s.mayClose d.val = false → exec (.domainClose d) s = .next s)
        ∧ (s.mayClose d.val = true → s.domain d.val = 3 → exec (.domainClose d) s
            = .next { s with power := { s.power with later := s.power.later.filter (·.1 ≠ d.val) ++ [(d.val, false)] } })
        ∧ (∀ u, u = s.finishSpine → s.domain d.val = 1 → u.drained d.val = true →
            (s.power.dozing ≠ 1 → s.power.later.contains (d.val, true) = false → exec (.domainOff d) s
              = .next { u with power := { s.power with domains := Tbl.set 0 s.power.domains d.val 2 } })
            ∧ (s.power.dozing ≠ 1 → s.power.later.contains (d.val, true) = true → ∃ t, exec (.domainOff d) s = .next t ∧ t.domain d.val = 3
              ∧ t = { u with power := { s.power with domains := t.power.domains, later := s.power.later.erase (d.val, true) } })
            ∧ (s.power.dozing = 1 → s.power.wakeDue = false → s.power.later.contains (d.val, true) = false →
              (∀ k, k < 13 → k ≠ d.val → s.domain k = 2 ∨ s.domain k = 3) → ∃ t, exec (.domainOff d) s = .next t ∧ t.dev = .doze
                ∧ t.domain d.val = 2 ∧ t.power.tallies = some s.sync.cdTally ∧ t.sync = { s.sync with cdTally := [] } ∧ t.power.dozing = 0
                ∧ t.fab.conns = []
                ∧ (∀ a, (∀ c, target a = .slab c → Tbl.get 0 t.memory.mem a = 0)
                    ∧ ((∀ c, target a ≠ .slab c) → Tbl.get 0 t.memory.mem a = Tbl.get 0 s.memory.mem a))))
        ∧ (s.finishSpine.drained d.val = false ∨ s.domain d.val ≠ 1 → exec (.domainOff d) s = .next s.finishSpine)
        ∧ (s.domain d.val ≠ 1 → exec (.closeTimeout d) s = .next s)
        ∧ (d.val < 8 → s.domain d.val = 1 → s.fab.rx = [] → s.sync.inbox = [] → (s.memory.bursts.map (·.id)).Nodup → s.power.dozing ≠ 1 →
            s.power.later = [] → ∃ t, exec (.closeTimeout d) s = .next t ∧ t.domain d.val = 2
              ∧ t.ops.map (·.id) = (s.ops.filter (·.cd ≠ d.val)).map (·.id) ∧ (∀ o ∈ t.ops, o.cd ≠ d.val)
              ∧ t.memory = { s.memory with bursts := s.memory.bursts.filter fun b => !b.inDomain s.memory.bandMode d.val }
              ∧ t = { s with power := { s.power with domains := t.power.domains }, ops := t.ops, memory := t.memory, objs := t.objs })
        ∧ (9 ≤ d.val → s.domain d.val = 1 → s.power.dozing ≠ 1 → s.power.later = [] → ∃ t, exec (.closeTimeout d) s = .next t
            ∧ t.domain d.val = 2 ∧ ∀ n ∈ groupPorts d.val, (t.port n).state = .off)
        ∧ (s.domain d.val = 0 → exec (.domainOpen d) s = .next s)
        ∧ (s.domain d.val = 1 → exec (.domainOpen d) s
            = .next { s with power := { s.power with later := s.power.later.filter (·.1 ≠ d.val) ++ [(d.val, true)] } })
        ∧ (s.domain d.val = 2 → exec (.domainOpen d) s
            = .next { s with power := { s.power with domains := Tbl.set 0 s.power.domains d.val 3 } })
        ∧ (s.domain d.val = 3 → (s.dozes = true ∧ s.power.dozing ≠ 2) ∨ (d.val < 8 ∧ (s.power.rail d.val).step = true) →
            exec (.domainOpen d) s = .next s)
        ∧ (s.domain d.val = 3 → (d.val < 8 → (s.power.rail d.val).step = false) → s.power.later.contains (d.val, false) = false →
            s.power.dozing ≠ 2 → s.dozes = false → exec (.domainOpen d) s
              = .next { s with power := { s.power with domains := Tbl.set 0 s.power.domains d.val 0 } })
        ∧ (s.domain d.val = 3 → (d.val < 8 → (s.power.rail d.val).step = false) → s.power.later.contains (d.val, false) = false →
            s.power.dozing = 2 → (∀ k, k < 13 → k ≠ d.val → s.domain k ≠ 3) → s.links.faulty = [] → s.host.heldCmds = [] →
            ∃ t, exec (.domainOpen d) s = .next t ∧ t.dev = .live ∧ t.domain d.val = 0 ∧ t.power.dozing = 0 ∧ t.power.tallies = none
              ∧ t.sync.cdTally = (s.power.tallies).getD s.sync.cdTally ∧ t.links.trained = true ∧ t.memory = s.memory))
    ∧ (∀ ch : Channel, s.expertOn ch 0x2005 →
        (s.mayDoze = true → (∀ n, (s.seat n).cached = false) → ∃ t, exec (.dozeRequest ch) s = .next t ∧ t.power.dozing = 1
          ∧ t.dev = .live ∧ (∀ d, 9 ≤ d → d ≤ 12 → s.domain d = 0 → t.domain d = 1) ∧ t.out = .kdp ch 4 .ok 0 [] :: s.out)
        ∧ (s.mayDoze = false → ∃ (t : State) (retry : Nat), exec (.dozeRequest ch) s = .next t ∧ t.out = .kdp ch 4 .conflict retry [] :: s.out
          ∧ t = { s with out := t.out, freeCtr := t.freeCtr }))
    ∧ (∀ (ch : Channel) (x : Session), s.dev = .doze → s.power.dozing = 0 → s.chanReaches ch 0x1100 = true →
        s.kdp.sessions.find? (·.ch == ch) = some x → x.expert = true → ∃ t, exec (.wakeRequest ch) s = .next t
          ∧ t.power.dozing = 2 ∧ (∀ d, d < 13 → s.domain d = 2 → t.domain d = 3) ∧ t.out = .kdp ch 4 .ok 0 [] :: s.out)
    ∧ (s.dev = .doze → s.power.dozing = 0 → ∃ t, exec .wakeNLow s = .next t
        ∧ t.power.dozing = 2 ∧ (∀ d, d < 13 → s.domain d = 2 → t.domain d = 3)
        ∧ (∀ c, c < 8 → (t.power.rail c).target = s.railTarget c 8 ∧ (t.power.rail c).step = true)
        ∧ t = { s with power := { s.power with dozing := 2, domains := t.power.domains, rails := t.power.rails } })
    ∧ (s.dev = .doze → s.power.dozing = 0 → s.obj 0x200581 0 ≠ 0 → exec .dozeTimerExpiry s = exec .wakeNLow s)
    ∧ (s.obj 0x200581 0 = 0 → exec .dozeTimerExpiry s = .next s)
    ∧ (s.power.dozing = 1 → exec .wakeNLow s = .next { s with power := { s.power with wakeDue := true } })
    ∧ (s.dev ≠ .doze → s.power.dozing ≠ 1 → exec .wakeNLow s = .next s)

/-! ## Reset, bring-up and firmware load (15; 18, R522; 20, R572, R579) -/

/-- Sources of device-wide and host-port resets: scope, cause and what each leaves (15, R434 to R439, R442; 18, R522 to R524; 20, R572,
R579, R581; Tables 15-2, 15-3 and 15-6); R437 whole. A reset in progress of at least the same width absorbs a request. -/
def Obligations.ResetSourcesAct : Prop :=
  ∀ s : State,
    (s.power.good ||| (1 <<< 10) ≠ 0x7FFFF → ∃ t, exec .powerOn s = .next t ∧ t.dev = .cold ∧ t.boot.cause = 0x01 ∧ t.boot.scope = 4
        ∧ t.boot.seq = 0 ∧ t.fw.pkgInc = 1 ∧ t.seats = [] ∧ t.memory = {} ∧ t.sync = {} ∧ t.objs = [] ∧ t.groups = []
        ∧ t.boot.fuses = s.boot.fuses ∧ t.boot.eeprom = s.boot.eeprom ∧ t.sec.svn = s.sec.svn ∧ t.sec.revoked = s.sec.revoked)
    ∧ (∀ rail : Nat,
        (rail < 19 → rail ≠ 10 → s.monitored rail = true → s.dev ≠ .cold → ∃ t, exec (.supplyFault rail) s = .next t ∧ t.dev = .cold
          ∧ t.boot.cause = 0x02 ∧ t.boot.scope = 4 ∧ t.boot.seq = s.boot.seq + 1 ∧ t.boot.time = s.now ∧ t.fw.pkgInc = s.fw.pkgInc + 1
          ∧ t.power.good.getLsbD rail = false ∧ t.seats = [] ∧ t.memory = {} ∧ t.groups = []
          ∧ t.obj 0x110005 0 = min (s.obj 0x110005 0 + 1) (2 ^ 32 - 1))
        ∧ (19 ≤ rail ∨ s.monitored rail = false → exec (.supplyFault rail) s = .next s))
    ∧ (s.dev ≠ .options → s.resetting = none → s.resetNAction ≠ 1 → ∃ t, exec .resetNAssert s = .next t ∧ t.dev = .options ∧ t.boot.resetLow = true
        ∧ t.boot.held = some (4, 3) ∧ t.boot.cause = 0x03 ∧ t.boot.scope = 4 ∧ t.memory = {} ∧ t.seats = [])
    ∧ (s.dev ≠ .options → s.resetting = none → s.resetNAction = 1 → s.boot.beenLive = true → s.dev ≠ .folded → ∃ t, exec .resetNAssert s = .next t
        ∧ t.dev = .rom ∧ t.boot.resetLow = true ∧ t.boot.held = some (2, 3) ∧ t.boot.cause = 0x03 ∧ t.boot.scope = 2 ∧ t.play = none)
    ∧ (s.dev = .options → ∃ t, exec .resetNAssert s = .next t ∧ t.boot.cause = 0x03 ∧ t.boot.scope = 4 ∧ t.boot.seq = s.boot.seq + 1
        ∧ t.boot.held = s.boot.held ∧ t = { s with boot := t.boot })
    ∧ (s.dev ≠ .options → s.resetting = some 4 → exec .resetNAssert s = .next { s with boot := { s.boot with resetLow := true } })
    ∧ (s.boot.held = none → exec .resetNRelease s = .next { s with boot := { s.boot with resetLow := false } })
    ∧ (∀ cause : Nat, s.boot.held = some (4, cause) → ∃ t, exec .resetNRelease s = .next t ∧ t.boot.held = none
        ∧ t.boot.resetLow = false ∧ t.boot.waiting = true)
    ∧ (s.dev ≠ .options → s.resetting = none → s.perstAction = 0 → ∃ t, exec .perstNAssert s = .next t ∧ t.dev = s.dev ∧ t.boot.perstLow = true
        ∧ t.host.linkUp = false ∧ t.host.numVfs = 0 ∧ t.boot.cause = 0x04 ∧ t.boot.scope = 1 ∧ t.boot.seq = s.boot.seq + 1)
    ∧ (s.dev ≠ .options → s.resetting = none → s.perstAction = 2 → ∃ t, exec .perstNAssert s = .next t ∧ t.boot.perstLow = true ∧ t.host.linkUp = false
        ∧ t.boot.cause = 0x04 ∧ t.boot.scope = 4 ∧ t.seats = [] ∧ t.memory.mem = [])
    ∧ exec .perstNRelease s = .next { s with boot := { s.boot with perstLow := false }
                                             host := { s.host with linkUp := s.dev ≠ .cold && s.dev ≠ .options && decide (2 ≤ s.clk.source) } }
    ∧ (s.dev ≠ .options → s.boot.perstLow = false → s.linkdownAction = 0 → s.host.linkUp = true → s.resetting = none → ∃ t, exec .pcieLinkDown s = .next t
        ∧ t.dev = s.dev ∧ t.boot.cause = 0x05 ∧ t.boot.scope = 1 ∧ t.host.numVfs = 0)
    ∧ (s.boot.perstLow = true ∨ s.linkdownAction = 1 → exec .pcieLinkDown s = .next s)
    ∧ (∀ (ch : Channel) (seq : Half), s.expertOn ch 0x1100 → (∀ f, ch ≠ .mailbox f) →
        (bit s.cmdResetMask (resetSource ch).1 = true → s.boot.delayed = none →
          exec (.resetRequestWarm ch seq) s = .next { s with boot := { s.boot with delayed := some (2, (resetSource ch).2, true) }
                                                             out := .kdp ch 4 .ok 0 [] :: s.out }
          ∧ exec (.resetRequestCold ch seq) s = .next { s with boot := { s.boot with delayed := some (4, (resetSource ch).2, true) }
                                                               out := .kdp ch 4 .ok 0 [] :: s.out })
        ∧ (bit s.cmdResetMask (resetSource ch).1 = false →
          exec (.resetRequestWarm ch seq) s = .next { s with out := .kdp ch 4 .noAccess 0 [] :: s.out }
          ∧ exec (.resetRequestCold ch seq) s = .next { s with out := .kdp ch 4 .noAccess 0 [] :: s.out }))
    ∧ (s.boot.delayed = none → exec .resetDelayExpiry s = .next s)
    ∧ (∀ cause : Nat, s.dev ≠ .options → s.boot.delayed = some (4, cause, true) → s.resetting = none → ∃ t, exec .resetDelayExpiry s = .next t
        ∧ t.boot.cause = cause ∧ t.boot.scope = 4 ∧ t.boot.delayed = none ∧ t.boot.waiting = true ∧ t.seats = [] ∧ t.memory.mem = [])
    ∧ (∀ f : ImageFacts, s.ohmegRuns = true → s.dev ≠ .folded → s.resetting = none → s.boot.beenLive = true → s.boot.code = some f →
        s.boot.digest = some f.digest → s.maint.journal.kind = 0 → s.links.faulty = [] →
        (∃ t, exec .pwrResetReqWarm s = .next t ∧ t.dev = .live ∧ t.boot.cause = 0x0B ∧ t.boot.scope = 2 ∧ t.boot.seq = s.boot.seq + 1
          ∧ t.fw.pkgInc = s.fw.pkgInc + 1 ∧ t.play = none ∧ t.groups = [] ∧ t.clk.div = 8 ∧ t.boot.code = some f
          ∧ t.obj 0x110004 0 = min (s.obj 0x110004 0 + 1) (2 ^ 32 - 1))
        ∧ (∀ reason : Nat, s.dev = .live → 1 ≤ reason → reason ≤ 5 → reason ≠ 2 → s.recentRecoveries < 3 →
          ∃ t, exec (.pwrResetReqRecovery reason) s = .next t ∧ t.dev = .live ∧ t.boot.cause = 0x0C ∧ t.boot.scope = 3
            ∧ t.boot.detail = reason ∧ t.fw.pkgInc = s.fw.pkgInc + 1 ∧ t.play = none ∧ t.groups = []
            ∧ t.maint.recovered = s.maint.recovered ++ [s.now]))
    ∧ (∀ reason : Nat, s.dev = .live → 1 ≤ reason → reason ≤ 5 → s.resetting = none → 3 ≤ s.recentRecoveries →
        ∃ t, exec (.pwrResetReqRecovery reason) s = .next t ∧ t.dev = .folded ∧ t.obj 0x601003 0 = 4)
    ∧ (s.ohmegRuns = true → s.resetting = none → ∃ t, exec .pwrResetReqCold s = .next t ∧ t.boot.cause = 0x0B ∧ t.boot.scope = 4
        ∧ t.boot.waiting = true ∧ t.seats = [] ∧ t.memory.mem = [])
    ∧ (s.boot.beenLive = false → (∀ (cause : Nat) (hold : Bool), (s.warmReset cause hold).boot.scope = 4
            ∧ (s.warmReset cause hold).boot.cause = cause)
        ∧ (s.ohmegRuns = true → s.resetting = none → ∃ t, exec .pwrResetReqWarm s = .next t ∧ t.boot.scope = 4 ∧ t.boot.cause = 0x0B
          ∧ t.boot.waiting = true ∧ t.seats = [] ∧ t.memory.mem = []))
    ∧ (s.ohmegRuns = false → exec .pwrResetReqWarm s = .next s ∧ exec .pwrResetReqCold s = .next s)
    ∧ (s.sec.level = 2 → s.dev ≠ .options → s.resetting = none → ∃ t, exec .jtagReset s = .next t ∧ t.boot.cause = 0x0E ∧ t.boot.scope = 4
        ∧ t.boot.waiting = true ∧ t.sec.level = 0)
    ∧ (s.sec.level ≠ 2 → exec .jtagReset s = .next s)
    ∧ (∀ temp : Int,
        (110 ≤ temp → s.clk.tripped = false → ∃ t, exec (.thermtrip temp) s = .next t ∧ t.dev = .cold ∧ t.clk.tripped = true
          ∧ t.power.tripLow = true ∧ t.seats = [] ∧ t.memory = {} ∧ t.time = s.time ∧ t.fw.pkgInc = s.fw.pkgInc
          ∧ t.boot.cause = s.boot.cause ∧ t.boot.seq = s.boot.seq)
        ∧ (temp < 110 → exec (.thermtrip temp) s = .next s))

/-- Rails, options, the firmware load and block resets: how the package comes up (15, R440, R441, R446 to R449, R451, R453, R454;
Tables 15-8 to 15-11; 20, R572). -/
def Obligations.BringUpAndLoadAct : Prop :=
  ∀ s : State,
    (∀ rail : Nat, rail < 19 →
        (s.power.good ||| (1 <<< rail) ≠ 0x7FFFF ∨ s.dev ≠ .cold →
          exec (.railGood rail) s = .next { s with power := { s.power with good := s.power.good ||| (1 <<< rail) } })
        ∧ (s.power.good ||| (1 <<< rail) = 0x7FFFF → s.dev = .cold → s.clk.tripped = false → s.boot.scope = 4 →
          (s.boot.resetLow = true → ∃ t, exec (.railGood rail) s = .next t ∧ t.dev = .options ∧ t.boot.held = some (4, s.boot.cause))
          ∧ (s.boot.resetLow = false → (∀ b, b < 4 → ((voteBlock (s.fuseCopies b)).1).isSome = true) →
              (chooseRecord (Tbl.get [] s.boot.eeprom 0) (Tbl.get [] s.boot.eeprom 1)).2 ≠ 3 →
              ∃ t, exec (.railGood rail) s = .next t ∧ t.dev = .rom ∧ t.boot.waiting = true
                ∧ t.boot.record = (chooseRecord (Tbl.get [] s.boot.eeprom 0) (Tbl.get [] s.boot.eeprom 1)).1
                ∧ (∀ b, b < 4 → some (Tbl.get [] t.boot.voted b) = (voteBlock (s.fuseCopies b)).1))
          ∧ (s.boot.resetLow = false → ∀ b, b < 4 → (voteBlock (s.fuseCopies b)).1 = none →
              ∃ t, exec (.railGood rail) s = .next t ∧ t.dev = .optionConflict)))
    ∧ (∀ (ch : Channel) (data : List Byte), s.expertOn ch 0xA002 → data.length = 256 →
        (∃ t, exec (.boardRecordWrite ch data true) s = .next t ∧ t = { s with boot := { s.boot with eeprom := t.boot.eeprom }, out := t.out }
          ∧ t.out = .kdp ch 4 .ok 0 [] :: s.out
          ∧ (let n := if s.boot.recState = 0 then 1 else 0
             (Tbl.get [] t.boot.eeprom (1 - n)) = Tbl.get [] s.boot.eeprom (1 - n) ∧ (Tbl.get [] t.boot.eeprom n).length = 256
              ∧ recordGen (Tbl.get [] t.boot.eeprom n) = (if s.boot.record = [] then 1 else (recordGen s.boot.record + 1) % 65536)
              ∧ (Tbl.get [] t.boot.eeprom n).take 5 = data.take 5
              ∧ ∀ i, i < 252 → recordMask i = 0 → (Tbl.get [] t.boot.eeprom n).getD i 0 = 0))
        ∧ (∃ t, exec (.boardRecordWrite ch data false) s = .next t ∧ t.out = .kdp ch 4 .integrity 0 [] :: s.out
          ∧ t = { s with boot := { s.boot with eeprom := t.boot.eeprom }, out := t.out, freeCtr := t.freeCtr }))
    ∧ (∀ (ch : Channel) (data : List Byte) (ok : Bool), s.expertOn ch 0xA002 → data.length ≠ 256 →
        exec (.boardRecordWrite ch data ok) s = .next { s with out := .kdp ch 4 .badArg 0 [] :: s.out })
    ∧ (∀ (f : Func) (seq : Half) (r : Req), s.openReq f.val seq 2 = some r → s.dev = .staging → s.boot.load = none →
        field r.payload 0 8 % 4096 = 0 → field r.payload 8 4 % 4096 = 0 → 4096 ≤ field r.payload 8 4 → field r.payload 8 4 ≤ 33554432 →
        exec (.load f seq) s = .next { s with boot := { s.boot with load := some (seq, field r.payload 0 8, field r.payload 8 4) }
                                              out := .hostRead 0 0x1000 (field r.payload 0 8) (field r.payload 8 4) :: s.out })
    ∧ (∀ (f : Func) (seq : Half) (r : Req), s.openReq f.val seq 2 = some r → s.dev = .staging → s.boot.load = none →
        (field r.payload 0 8 % 4096 ≠ 0 ∨ 33554432 < field r.payload 8 4) → ∃ t, exec (.load f seq) s = .next t ∧ t.dev = .staging
          ∧ t.boot = { s.boot with load := none, code := none } ∧ t.obj 0x110006 0 = min (s.obj 0x110006 0 + 1) (2 ^ 32 - 1))
    ∧ (∀ (f : Func) (seq : Half), s.openReq f.val seq 2 = none → exec (.load f seq) s = .next s)
    ∧ (∀ (x : Half × Nat × Nat) (facts : ImageFacts), s.boot.load = some x →
        (s.judgeImage facts = .ok → ∃ t, exec (.loadImageRead .good facts) s = .next t ∧ t.dev = .live ∧ t.boot.code = some facts
          ∧ t.boot.digest = some facts.digest ∧ t.boot.load = none ∧ t.boot.beenLive = true ∧ t.mgmt.armed = true
          ∧ t.fw.version = facts.version ∧ t.fw.wire = facts.wireRevision ∧ t.memory = s.memory)
        ∧ (∀ r : ReadEnd, r ≠ .good ∨ s.judgeImage facts ≠ .ok → ∃ t, exec (.loadImageRead r facts) s = .next t ∧ t.dev = s.dev
          ∧ t.boot = { s.boot with load := none, code := none } ∧ t.obj 0x110006 0 = min (s.obj 0x110006 0 + 1) (2 ^ 32 - 1)
          ∧ t.memory = s.memory))
    ∧ (s.boot.load = none → ∀ (r : ReadEnd) (facts : ImageFacts), exec (.loadImageRead r facts) s = .next s)
    ∧ (∀ block : Nat, s.ohmegRuns = true →
        (0x71 < block → exec (.blockReset block) s = .next { s with boot := { s.boot with block := block, blockSt := .badArg } })
        ∧ (block ≤ 0x71 → s.boot.blockBusy = true →
          exec (.blockReset block) s = .next { s with boot := { s.boot with block := block, blockSt := .busy } })
        ∧ (block ≤ 0x71 → s.boot.blockBusy = false → s.blockIdle block = false →
          exec (.blockReset block) s = .next { s with boot := { s.boot with block := block, blockSt := .conflict } })
        ∧ (block ≤ 0x71 → s.boot.blockBusy = false → s.blockIdle block = true → ∃ t, exec (.blockReset block) s = .next t
          ∧ t = { s with boot := { s.boot with block := block, blockSt := .ok, blockBusy := true, blockNow := block }, arr := t.arr, fab := t.fab
                         ops := t.ops, memory := { s.memory with bursts := t.memory.bursts } }
          ∧ (0x18 ≤ block → t.arr = s.arr)
          ∧ (block < 0x18 → t.fab = s.fab ∧ t.ops = s.ops ∧ t.memory = s.memory)
          ∧ (0x18 ≤ block → block < 0x48 → t.fab = s.fab
            ∧ t.ops = s.ops.filter fun o => !(o.cd == (blockUnits block).1 && (blockUnits block).2.contains o.unit))
          ∧ ∀ p, blockPort block = some p → (t.port p).state = .off ∧ (∀ k, k ≠ p → t.port k = s.port k) ∧ t.ops = s.ops
            ∧ t.memory = s.memory))
    ∧ (∀ block : Nat, s.ohmegRuns = false → exec (.blockReset block) s = .next s)
    ∧ (s.boot.blockBusy = true → ∃ t, exec .blockResetComplete s = .next t ∧ t.boot = { s.boot with blockBusy := false }
        ∧ t.obj 0x110007 0 = min (s.obj 0x110007 0 + 1) (2 ^ 32 - 1)
        ∧ t.rel.lastError.map (fun r => (r.cls, r.code, r.d)) = some (2, 0x0502, [s.boot.blockNow])
        ∧ t = { s with boot := t.boot, objs := t.objs, rel := t.rel, host := t.host, out := t.out })
    ∧ (s.boot.blockBusy = false → exec .blockResetComplete s = .next s)

/-! ## Ohmeg: watchdogs, mailbox services, live update, telemetry (16; 09, R273) -/

/-- Watchdogs, component restarts, the mailbox requests OPEN and TALLY_ADD, telemetry and core load (09, R273; 16, R460 to R464, R471,
R473, R482, R483, Tables 16-2 and 16-3; 17, R504). -/
def Obligations.FirmwareServicesAct : Prop :=
  ∀ s : State,
    (∀ core : Fin 14, s.mgmt.armed = false → exec (.fwWatchdogExpiry core) s = .next s)
    ∧ (∀ core : Fin 14, s.mgmt.armed = true → core.val = 1 ∨ core.val = 3 → s.supPaused = false →
        (s.recentRestarts (if core.val = 1 then 1 else 4)).length < s.obj 0x800181 3 → ∃ t, exec (.fwWatchdogExpiry core) s = .next t
          ∧ t.mgmt.restarts = s.mgmt.restarts ++ [(if core.val = 1 then 1 else 4, s.now)]
          ∧ t.obj (arrKey 0x800103 core.val) 0 = min (s.obj (arrKey 0x800103 core.val) 0 + 1) (2 ^ 32 - 1)
          ∧ t.obj (arrKey 0x800101 (if core.val = 1 then 1 else 4)) 0
              = min (s.obj (arrKey 0x800101 (if core.val = 1 then 1 else 4)) 0 + 1) (2 ^ 32 - 1)
          ∧ t.rel.lastError.map (fun r => (r.cls, r.code, r.d)) = some (2, 0x0501, [if core.val = 1 then 1 else 4, 1])
          ∧ t.dev = s.dev ∧ t.memory = s.memory ∧ t.seats = s.seats)
    ∧ (s.dev ≠ .options → s.mgmt.armed = true → s.watchdogAction = 1 → s.resetting = none → ∃ t, exec (.fwWatchdogExpiry 0) s = .next t
        ∧ t.boot.cause = 0x0A ∧ t.boot.scope = 4 ∧ t.boot.waiting = true)
    ∧ (∀ core : Fin 5,
        (core.val ∉ s.mgmt.late → exec (.watchdogRestartTimeout core) s = .next s)
        ∧ (s.dev ≠ .options → core.val ∈ s.mgmt.late → s.watchdogAction = 1 → s.resetting = none → ∃ t, exec (.watchdogRestartTimeout core) s = .next t
          ∧ t.boot.cause = 0x0A ∧ t.boot.scope = 4 ∧ t.boot.waiting = true))
    ∧ (∀ (core : Fin 5) (v : Word), ∃ t, exec (.watchdogKick core v) s = .next t
        ∧ Tbl.get 100000 t.mgmt.period core.val = v.toNat % 2 ^ 32
        ∧ (1000 ≤ v.toNat % 2 ^ 32 → v.toNat % 2 ^ 32 ≤ 10000000 → t.watchdogUs core.val = v.toNat % 2 ^ 32)
        ∧ (v.toNat % 2 ^ 32 < 1000 → t.watchdogUs core.val = 1000)
        ∧ (10000000 < v.toNat % 2 ^ 32 → t.watchdogUs core.val = 10000000)
        ∧ (v.getLsbD 32 = true → Tbl.get 0 t.mgmt.kicked core.val = s.ns) ∧ (v.getLsbD 32 = false → t.mgmt.kicked = s.mgmt.kicked)
        ∧ (∀ k, k ≠ core.val → Tbl.get 100000 t.mgmt.period k = Tbl.get 100000 s.mgmt.period k)
        ∧ t = { s with mgmt := { s.mgmt with period := t.mgmt.period, kicked := t.mgmt.kicked } })
    ∧ (∀ (comp : Nat) (own crc : Bool), s.ohmegRuns = true →
        (comp ∈ [1, 2, 3, 4, 6] → (s.recentRestarts comp).length < s.obj 0x800181 3 → ∃ t, exec (.componentFault comp own true) s = .next t
          ∧ t.mgmt.restarts = s.mgmt.restarts ++ [(comp, s.now)]
          ∧ t.obj (arrKey 0x800101 comp) 0 = min (s.obj (arrKey 0x800101 comp) 0 + 1) (2 ^ 32 - 1)
          ∧ t.rel.lastError.map (fun r => (r.cls, r.code, r.d)) = some (2, 0x0501, [comp, if own then 3 else 2])
          ∧ t.dev = s.dev ∧ t.memory = s.memory ∧ t.seats = s.seats)
        ∧ (s.watchdogAction = 1 → s.resetting = none → ∃ t, exec (.componentFault 0 own crc) s = .next t ∧ t.boot.cause = 0x0A
          ∧ t.boot.scope = 4)
        ∧ (6 < comp → exec (.componentFault comp own crc) s = .next s))
    ∧ (∀ (f : Func) (seq : Half) (r : Req), s.openReq f.val seq 1 = some r →
        (r.sendInc = 0 → ∃ t, exec (.open_ f seq) s = .next t ∧ s.answered t r .badArg 0 []
          ∧ t = { s with fw := { s.fw with reqs := t.fw.reqs }, host := { s.host with fns := t.host.fns } })
        ∧ (r.sendInc ≠ 0 → ∃ t, exec (.open_ f seq) s = .next t ∧ (t.fn f.val).hostInc = r.sendInc ∧ r ∉ t.fw.reqs
          ∧ (∀ x ∈ t.kdp.sessions, x.ch ≠ .mailbox f) ∧ (∀ x ∈ t.kdp.staging, x.ch ≠ .mailbox f)
          ∧ ((s.fn f.val).outQ.length < 16 → (t.fn f.val).outQ = (s.fn f.val).outQ ++ [msgBytes 1 seq .ok 1 s.fw.pkgInc r.sendInc r.seat 0
              s.now (leBytes 4 s.fw.pkgInc.toNat ++ leBytes 4 s.fw.version ++ [2, 0] ++ leBytes 2 s.fw.wire)])
          ∧ t = { s with fw := { s.fw with reqs := t.fw.reqs }, host := { s.host with fns := t.host.fns }
                         kdp := { s.kdp with sessions := t.kdp.sessions, staging := t.kdp.staging } }))
    ∧ (∀ (f : Func) (seq : Half) (r : Req) (e : Entry) (idx amount : Nat), s.openReq f.val seq 4 = some r → e = (s.seat r.seat).entry →
        idx = field r.payload 0 4 → amount = field r.payload 4 4 →
        (r.f ≠ 0 → e.owner ≠ r.f → ∃ t, exec (.tallyAdd f seq) s = .next t ∧ s.answered t r .noAccess 0 [] ∧ t.sync = s.sync)
        ∧ (r.f = 0 ∨ e.owner = r.f → r.seat ≠ 0xFFFF → (s.seat r.seat).state ≠ .free → (s.seat r.seat).state ≠ .resetting →
            idx < e.pkgCount → amount ≠ 0 → 
            (Tbl.get 0 s.sync.pkgTally (e.pkgBase + idx)).toNat + s.queuedAmount (e.pkgBase + idx) + amount < 2 ^ 64 →
            ∃ t, exec (.tallyAdd f seq) s = .next t ∧ s.answered t r .ok 0 []
              ∧ Tbl.get [] t.sync.inbox 8
                  = Tbl.get [] s.sync.inbox 8 ++ [{ tally := e.pkgBase + idx, amount := amount, src := .host, seat := none }]
              ∧ t = { s with fw := { s.fw with reqs := t.fw.reqs }, host := { s.host with fns := t.host.fns }
                             sync := { s.sync with inbox := t.sync.inbox } }))
    ∧ (∀ (f : Func) (seq : Half), s.openReq f.val seq 1 = none → exec (.open_ f seq) s = .next s)
    ∧ (∀ (f : Func) (seq : Half), s.openReq f.val seq 4 = none → exec (.tallyAdd f seq) s = .next s)
    ∧ (s.ohmegRuns = true →
        (∃ t, exec (.telemetrySample true) s = .next t ∧ t.mgmt.frames.getLast? = some s.frame
          ∧ (s.mgmt.frames.length < 1024 → t.mgmt.frames = s.mgmt.frames ++ [s.frame])
          ∧ t.obj 0x900002 0 = min (s.obj 0x900002 0 + 1) (2 ^ 64 - 1)
          ∧ t = { s with mgmt := { s.mgmt with frames := t.mgmt.frames }, objs := t.objs })
        ∧ (∃ t, exec (.telemetrySample false) s = .next t ∧ t.obj 0x800304 0 = min (s.obj 0x800304 0 + 1) (2 ^ 64 - 1)
          ∧ t = { s with objs := t.objs })
        ∧ ∀ busy : List Nat, exec (.coreBusyWindow busy) s = .next { s with mgmt := { s.mgmt with busy := busy.take 5 } })
    ∧ (∀ state : Fin 3, exec (.mgmtLinkChange state) s = .next { s with mgmt := { s.mgmt with link := state.val } })

/-- Live update: an image is read, checked and staged, its handovers run in order, and the new image answers; or it is cancelled (16,
R475 to R477, Tables 16-5 and 16-6; 18, Tables 18-15 and 18-17; 08, R241 for the image's data). -/
def Obligations.LiveUpdateRuns : Prop :=
  ∀ s : State,
    (∀ (f : Func) (seq : Half) (r : Req) (img stage len : Nat), s.openReq f.val seq 0x10 = some r → img = field r.payload 0 8 →
        stage = field r.payload 8 8 → len = field r.payload 16 4 → s.mgmt.updReq = none →
        (len % 4096 = 0 → 4096 ≤ len → len ≤ 33554432 → img % 4096 = 0 → stage % 4096 = 0 → inFar stage 0x2000000 = true →
            s.stageTaken stage = false → s.fw.stage = none → s.mayStart 2 = true → ∃ t, exec (.updateStage f seq) s = .next t
          ∧ t.mgmt = { s.mgmt with updReq := some (seq, r.hostInc), reading := some (img, stage, 0) } ∧ t.obj 0x800201 0 = 1
          ∧ t.out = .hostRead 0 0x1001 img len :: s.out ∧ t = { s with mgmt := t.mgmt, objs := t.objs, out := t.out })
        ∧ (len % 4096 ≠ 0 ∨ 33554432 < len → ∃ t, exec (.updateStage f seq) s = .next t ∧ s.answered t r .badArg 0 [] ∧ t.mgmt = s.mgmt)
        ∧ (len % 4096 = 0 → 4096 ≤ len → len ≤ 33554432 → img % 4096 = 0 → stage % 4096 = 0 → inFar stage 0x2000000 = true →
            s.stageTaken stage = true → ∃ (t : State) (retry : Nat), exec (.updateStage f seq) s = .next t
          ∧ s.answered t r .conflict retry [] ∧ t.mgmt = s.mgmt))
    ∧ (∀ (img stage got : Nat) (data : List Byte) (ep : Bool), s.mgmt.reading = some (img, stage, got) → got + data.length ≤ 0x2000000 →
        ∃ t, exec (.hostReadCompletion 0x1001 data ep) s = .next t ∧ t.mgmt.reading = some (img, stage, got + data.length)
          ∧ t = { s with memory := t.memory, mgmt := { s.mgmt with reading := t.mgmt.reading } })
    ∧ (s.mgmt.reading = none → ∀ (data : List Byte) (ep : Bool), exec (.hostReadCompletion 0x1001 data ep) s = .next s)
    ∧ (∀ (seq : Half) (inc : Quad) (img stage got : Nat) (facts : ImageFacts), s.mgmt.updReq = some (seq, inc) →
        s.mgmt.reading = some (img, stage, got) →
        (s.judgeImage facts = .ok → facts.handoverOk = true → s.wireOk facts.wireRevision = true →
          ∃ t, exec (.updateStaged .good facts) s = .next t ∧ t.mgmt.staged = some facts ∧ t.mgmt.updReq = none ∧ t.fw.stage = some stage
            ∧ t.maint.journal = { kind := 2, step := 1, stage := stage, digest := facts.digest } ∧ t.obj 0x800201 0 = 2
            ∧ t.obj 0x800202 0 = facts.version ∧ (∀ r, s.openReq 0 seq 0x10 = some r → s.answered t r .ok 0 []) ∧ t.memory = s.memory)
        ∧ (∀ r : ReadEnd, r ≠ .good → ∃ t, exec (.updateStaged r facts) s = .next t ∧ t.mgmt.staged = s.mgmt.staged
            ∧ t.mgmt.updReq = none ∧ t.obj 0x800201 0 = 6 ∧ t.maint = s.maint ∧ t.memory = s.memory))
    ∧ (s.mgmt.updReq = none → ∀ (r : ReadEnd) (facts : ImageFacts), exec (.updateStaged r facts) s = .next s)
    ∧ (∀ (f : Func) (seq : Half) (r : Req), s.openReq f.val seq 0x11 = some r → s.mgmt.updReq = none →
        (s.maint.journal.kind = 2 → s.maint.journal.step = 1 → ∃ t, exec (.updateCommit f seq) s = .next t
          ∧ t.mgmt = { s.mgmt with updReq := some (seq, r.hostInc) } ∧ t.obj 0x800201 0 = 3
          ∧ t = { s with mgmt := t.mgmt, maint := { s.maint with journal := { s.maint.journal with step := 2 } }, objs := t.objs })
        ∧ (s.maint.journal.kind ≠ 2 ∨ s.maint.journal.step ≠ 1 → ∃ (t : State) (retry : Nat), exec (.updateCommit f seq) s = .next t
          ∧ s.answered t r .conflict retry [] ∧ t.maint = s.maint ∧ t.mgmt = s.mgmt))
    ∧ (∀ facts : ImageFacts, s.mgmt.staged = some facts → s.maint.journal.kind = 2 →
        (2 ≤ s.maint.journal.step → s.maint.journal.step < 16 → exec .componentHandover s
          = .next { s with maint := { s.maint with journal := { s.maint.journal with step := s.maint.journal.step + 1 } } })
        ∧ (s.maint.journal.step = 16 → s.mgmt.late = [] → s.fw.wire = facts.wireRevision → ∃ t, exec .componentHandover s = .next t
          ∧ t.fw.version = facts.version ∧ t.boot.code = some facts ∧ t.boot.digest = some facts.digest ∧ t.fw.stage = none
          ∧ t.mgmt.staged = none ∧ t.mgmt.updReq = none ∧ t.maint.journal = { s.maint.journal with step := 31 } ∧ t.obj 0x800201 0 = 4
          ∧ t.obj 0x800203 0 = min (s.obj 0x800203 0 + 1) (2 ^ 32 - 1) ∧ t.memory = s.memory ∧ t.seats = s.seats ∧ t.play = s.play))
    ∧ (s.mgmt.staged = none → exec .componentHandover s = .next s)
    ∧ (∀ (f : Func) (seq : Half) (r : Req), s.openReq f.val seq 0x12 = some r →
        (s.maint.journal.kind = 2 → s.maint.journal.step = 1 → ∃ t, exec (.updateCancel f seq) s = .next t ∧ s.answered t r .ok 0 []
          ∧ t.maint.journal = {} ∧ t.mgmt.staged = none ∧ t.fw.stage = none ∧ t.obj 0x800201 0 = 5)
        ∧ (s.maint.journal.kind ≠ 2 ∨ s.maint.journal.step ≠ 1 → ∃ (t : State) (retry : Nat), exec (.updateCancel f seq) s = .next t
          ∧ s.answered t r .conflict retry [] ∧ t.maint = s.maint ∧ t.mgmt = s.mgmt))

/-! ## The object dictionary (17) -/

/-- The seven operations of the dictionary's protocol, duplicates, the mailbox's OBJECT, sessions that lapse, and associations (17, R485,
R487, R491 to R495, R499 to R503; Tables 17-4 to 17-8); R487 whole. An answer is `.kdp channel operation status aux data`. -/
def Obligations.DictionaryOperationsAnswer : Prop :=
  ∀ (s : State) (ch : Channel) (m : KdpMsg),
    (∀ (x : Session) (ob : Obj) (v : List Byte), s.asks ch m x → s.names m x ob → ob.access ≠ .wo → v = s.readObj m.index ob → m.offset = 0 →
        m.length = 0 → x.maxMsg = 1244 → ∃ t, exec (.kdpRead ch m) s = .next t ∧ t.out = .kdp ch 3 .ok v.length (v.take 1216) :: s.out
          ∧ t = { s with kdp := { s.kdp with sessions := t.kdp.sessions }, out := t.out })
    ∧ (∀ (x : Session) (n : Nat), s.asks ch m x → s.chanReaches x.ch m.index = true → objectsOf m.index ≠ [] →
        (kindIndex m.index = 0x5000 → m.index - 0x5000 < s.entries) → m.sub = 0 → m.offset = 0 →
        n = ((objectsOf m.index).filter fun r => decide (r.sub < 0x80) || x.expert).length →
        (m.length = 0 → ∃ t, exec (.kdpRead ch m) s = .next t ∧ t.out = .kdp ch 3 .ok 1 [BitVec.ofNat 8 n] :: s.out
          ∧ t = { s with kdp := { s.kdp with sessions := t.kdp.sessions }, out := t.out })
        ∧ (∃ t, exec (.kdpWrite ch m) s = .next t ∧ t.out = .kdp ch 4 .noAccess 0 [] :: s.out
          ∧ t = { s with kdp := { s.kdp with sessions := t.kdp.sessions }, out := t.out })
        ∧ ∃ (t : State) (d : List Byte), exec (.describe ch m) s = .next t ∧ t.out = .kdp ch 6 .ok 0 d :: s.out ∧ d.take 2 = [2, 0]
          ∧ t = { s with kdp := { s.kdp with sessions := t.kdp.sessions }, out := t.out })
    ∧ (∀ (x : Session) (ob : Obj), s.asks ch m x → s.names m x ob → ob.access = .wo → ∃ t, exec (.kdpRead ch m) s = .next t
          ∧ t.out = .kdp ch 3 .noAccess 0 [] :: s.out ∧ t = { s with kdp := { s.kdp with sessions := t.kdp.sessions }, out := t.out })
    ∧ (∀ (x : Session), s.asks ch m x → s.chanReaches x.ch m.index = true → objectsOf m.index = [] →
        ∃ t, exec (.kdpRead ch m) s = .next t ∧ t.out = .kdp ch 3 .notFound 0 [] :: s.out
          ∧ t = { s with kdp := { s.kdp with sessions := t.kdp.sessions }, out := t.out })
    ∧ (∀ (x : Session) (ob : Obj), s.asks ch m x → s.names m x ob → ob.access.writable = false → ∃ t, exec (.kdpWrite ch m) s = .next t
          ∧ t.out = .kdp ch 4 .noAccess 0 [] :: s.out ∧ t = { s with kdp := { s.kdp with sessions := t.kdp.sessions }, out := t.out })
    ∧ (∀ (x : Session) (ob : Obj), s.asks ch m x → s.names m x ob → ob.access.writable = true → ob.type.isDomain = false →
        m.data.length ≠ ob.type.size → ∃ t, exec (.kdpWrite ch m) s = .next t ∧ t.out = .kdp ch 4 .badArg 0 [] :: s.out
          ∧ t = { s with kdp := { s.kdp with sessions := t.kdp.sessions }, out := t.out })
    ∧ (∀ x : Session, s.asks ch m x → s.chanReaches x.ch 0x2000 = true → m.index = 0x2000 → m.sub = 2 → m.offset = 0 →
        (m.data.length = 4 → 1500 ≤ leNat m.data → leNat m.data ≤ 3000 → ∃ t, exec (.kdpWrite ch m) s = .next t
          ∧ t.obj 0x200002 0 = leNat m.data ∧ t.out = .kdp ch 4 .ok 0 [] :: s.out
          ∧ t = { s with kdp := { s.kdp with sessions := t.kdp.sessions }, objs := t.objs, out := t.out })
        ∧ (m.data.length = 8 → m.data.take 4 = leBytes 4 (s.obj 0x200002 3000) → 1500 ≤ leNat (m.data.drop 4) → leNat (m.data.drop 4) ≤ 3000 →
          ∃ t, exec (.writeIf ch m) s = .next t ∧ t.obj 0x200002 0 = leNat (m.data.drop 4) ∧ t.out = .kdp ch 5 .ok 0 [] :: s.out
            ∧ t = { s with kdp := { s.kdp with sessions := t.kdp.sessions }, objs := t.objs, out := t.out })
        ∧ (m.data.length = 8 → m.data.take 4 ≠ leBytes 4 (s.obj 0x200002 3000) → ∃ t, exec (.writeIf ch m) s = .next t
          ∧ t.out = .kdp ch 5 .conflict 0 (leBytes 4 (s.obj 0x200002 3000)) :: s.out
          ∧ t = { s with kdp := { s.kdp with sessions := t.kdp.sessions }, out := t.out }))
    ∧ (∀ (x : Session) (ob : Obj), s.asks ch m x → s.names m x ob → ∃ (t : State) (d : List Byte), exec (.describe ch m) s = .next t
        ∧ t.out = .kdp ch 6 .ok 0 d :: s.out ∧ d.length = 48 ∧ d.take 2 = leBytes 1 ob.type.code ++ leBytes 1 ob.access.code
        ∧ (d.drop 4).take 4 = leBytes 4 ob.type.size ∧ d.drop 16 = str32 ob.name
        ∧ t = { s with kdp := { s.kdp with sessions := t.kdp.sessions }, out := t.out })
    ∧ (∀ x : Session, s.asks ch m x → ∃ t, exec (.keepalive ch m) s = .next t ∧ t.out = .kdp ch 7 .ok 0 [] :: s.out
        ∧ t = { s with kdp := { s.kdp with sessions := t.kdp.sessions }, out := t.out })
    ∧ (∀ x : Session, s.asks ch m x → ∃ t, exec (.closeSession ch m) s = .next t ∧ t.out = .kdp ch 2 .ok 0 [] :: s.out
        ∧ (∀ y ∈ t.kdp.sessions, ¬(y.ch = ch ∧ y.id = m.session)) ∧ (∀ n, ch = .net n → Tbl.get none t.kdp.assocs n = none)
        ∧ t = { s with kdp := { s.kdp with sessions := t.kdp.sessions, staging := t.kdp.staging, assocs := t.kdp.assocs }, out := t.out })
    ∧ (∀ n : Fin 8, ch = .net n.val → s.dev = .live → s.channelUp ch = true → m.major = 1 → m.data.length = 8 → field m.data 0 1 = 0 →
        s.kdp.sessions = [] → s.kdp.lastId + 1 ≠ 0 → ∃ (t : State) (x : Session) (d : List Byte), exec (.openSession ch m) s = .next t
          ∧ t.kdp.sessions = [x] ∧ x.id = s.kdp.lastId + 1 ∧ x.ch = ch ∧ x.expert = false ∧ t.kdp.lastId = s.kdp.lastId + 1
          ∧ t.out = .kdp ch 1 .ok 0 d :: s.out ∧ d.take 4 = leBytes 4 x.id.toNat
          ∧ t = { s with kdp := { s.kdp with sessions := [x], lastId := x.id }, out := t.out })
    ∧ (∀ (x : Session) (op : Nat) (st : Status) (aux : Nat) (d : List Byte), s.dev = .live → s.channelUp ch = true → m.major = 1 →
        (∀ f, ch ≠ .mailbox f) → s.kdp.sessions.find? (fun y => y.ch == ch && y.id == m.session) = some x →
        x.held.find? (·.1 == m.sequence) = some (m.sequence, op, st, aux, d) → ∃ t, exec (.kdpWrite ch m) s = .next t
          ∧ t.out = .kdp ch 4 st aux d :: s.out ∧ t = { s with kdp := { s.kdp with sessions := t.kdp.sessions }, out := t.out })
    ∧ (s.dev = .live → s.channelUp ch = true → m.major ≠ 1 → exec (.kdpRead ch m) s = .next { s with out := .kdp ch 3 .version 0 [] :: s.out })
    ∧ (∀ n : Nat, ch = .net n → s.dev = .live → s.channelUp ch = false → ∃ t, exec (.kdpRead ch m) s = .next t
        ∧ t.obj 0x430004 0 = min (s.obj 0x430004 0 + 1) (2 ^ 32 - 1) ∧ t = { s with objs := t.objs })
    ∧ (∀ (f : Func) (seq : Half) (r : Req), s.openReq f.val seq 5 = some r →
        (r.payload.length < 28 → ∃ t, exec (.object f seq) s = .next t ∧ s.answered t r .badArg 0 [])
        ∧ (28 + (kdpOf r.payload).2.length ≤ r.payload.length → (kdpOf r.payload).1 = 7 → (kdpOf r.payload).2.major = 1 →
            (kdpOf r.payload).2.session = 0 → s.dev = .live → s.fnEnabled f.val = true → s.kdp.sessions.any (·.ch == Channel.mailbox f) = false →
            ∃ (t : State) (d : List Byte), exec (.object f seq) s = .next t ∧ s.answered t r .ok 0 d ∧ d.take 4 = [1, 0, 7, 0]
              ∧ t.memory = s.memory ∧ t.objs = s.objs))
    ∧ (∀ id : Quad, ∃ t, exec (.sessionIdleTimeout id) s = .next t ∧ (∀ y ∈ t.kdp.sessions, y.id = id → y.isOpen = false)
        ∧ (∀ y ∈ s.kdp.sessions, y.id ≠ id → y ∈ t.kdp.sessions)
        ∧ t = { s with kdp := { s.kdp with sessions := t.kdp.sessions, staging := t.kdp.staging, assocs := t.kdp.assocs } })
    ∧ (∀ id : Quad, ∃ t, exec (.snapshotLapse ch id) s = .next t ∧ (∀ y ∈ t.kdp.sessions, y.ch = ch → y.id = id → y.snapshot = none)
        ∧ t = { s with kdp := { s.kdp with sessions := t.kdp.sessions } })
    ∧ (∀ id : Quad, exec (.stagingLapse ch id) s
        = .next { s with kdp := { s.kdp with staging := s.kdp.staging.filter fun g => !(g.ch == ch && g.session == id) } })
    ∧ (∀ (peer : Quad) (a : Fin 3) (n : Nat), s.dev = .live → s.ownsAddress a = true →
        (List.range 8).find? (fun n => (Tbl.get none s.kdp.assocs n).isNone) = some n → s.obj 0x430086 1 ≠ 0 →
        (s.hasAnchor true = true → ∃ t, exec (.dtlsHandshake true false peer a) s = .next t
          ∧ Tbl.get none t.kdp.assocs n = some { expert := true, basic := false, peer := peer, addr := a }
          ∧ (∀ k, k ≠ n → Tbl.get none t.kdp.assocs k = Tbl.get none s.kdp.assocs k)
          ∧ t = { s with kdp := { s.kdp with assocs := t.kdp.assocs }, out := .dtlsCertificate n s.certificate :: s.out })
        ∧ (∀ e b : Bool, (e && s.hasAnchor true) = false → (b && s.hasAnchor false) = false → ∃ t, exec (.dtlsHandshake e b peer a) s = .next t
          ∧ t.obj 0x700103 0 = min (s.obj 0x700103 0 + 1) (2 ^ 32 - 1) ∧ t = { s with objs := t.objs }))

/-- Writes of objects that have rules of their own: ranges, ports, the log, folding, sessions, anchors, and the security objects (14,
R424; 11, Table 11-11; 17, R486, R513, Tables 17-13, 17-15 and 17-16; 18, R525; 19, R549, R552, R555, R562 to R564). -/
def Obligations.DictionaryWritesTakeEffect : Prop :=
  ∀ (s : State) (ch : Channel),
    (∀ v : Quad, s.writerOn ch 0x2000 →
        (1500 ≤ v.toNat → v.toNat ≤ 3000 → ∃ t, exec (.powerCapWrite ch v) s = .next t ∧ t.obj 0x200002 0 = v.toNat
          ∧ t.out = .kdp ch 4 .ok 0 [] :: s.out ∧ t = { s with objs := t.objs, out := t.out })
        ∧ (v.toNat < 1500 ∨ 3000 < v.toNat → exec (.powerCapWrite ch v) s = .next { s with out := .kdp ch 4 .badArg 0 [] :: s.out }))
    ∧ (∀ data : List Byte, s.expertOn ch 0x6100 →
        (data.length = 4 → ∃ t, exec (.objectWrite ch 0x6100 0x80 data) s = .next t ∧ t.obj 0x610080 0 = leNat data
          ∧ t.out = .kdp ch 4 .ok 0 [] :: s.out ∧ t = { s with objs := t.objs, out := t.out })
        ∧ (data.length ≠ 4 → exec (.objectWrite ch 0x6100 0x80 data) s = .next { s with out := .kdp ch 4 .badArg 0 [] :: s.out })
        ∧ exec (.objectWrite ch 0x6100 0x01 data) s = .next { s with out := .kdp ch 4 .noAccess 0 [] :: s.out }
        ∧ exec (.objectWrite ch 0x6100 0x7F data) s = .next { s with out := .kdp ch 4 .notFound 0 [] :: s.out })
    ∧ (∀ n : Nat, n < 34 → s.expertOn ch (0x4000 + n) →
        (∃ t, exec (.tpEnableWrite ch n 1) s = .next t ∧ t.obj (portObj n 0x80) 0 = 1 ∧ t.out = .kdp ch 4 .ok 0 [] :: s.out
          ∧ t = { s with objs := t.objs, out := t.out })
        ∧ (∃ t, exec (.tpEnableWrite ch n 0) s = .next t ∧ t.obj (portObj n 0x80) 1 = 0
          ∧ ((t.port n).state = .closing ∨ (t.port n).state = .off) ∧ (∀ k, k ≠ n → t.port k = s.port k)
          ∧ t.out = .kdp ch 4 .ok 0 [] :: s.out ∧ t = { s with objs := t.objs, fab := { s.fab with ports := t.fab.ports, rx := t.fab.rx }, out := t.out }))
    ∧ (∀ (q : Fin 8) (gw : Bool) (v : Nat), s.expertOn ch (0x4040 + q.val) → (s.port (64 + q.val)).state ≠ .hello →
        (s.port (64 + q.val)).state ≠ .active → v < 2 ^ 128 → ∃ t, exec (.spAddressWrite ch q gw v) s = .next t
          ∧ (padTo 16 (Tbl.get [] t.kdp.octets (portObj (64 + q.val) (if gw then 0x82 else 0x81)))).reverse = leBytes 16 v
          ∧ t.out = .kdp ch 4 .ok 0 [] :: s.out ∧ t = { s with kdp := { s.kdp with octets := t.kdp.octets }, out := t.out })
    ∧ (s.expertOn ch 0x6001 →
        exec (.logClear ch 1) s = .next { s with rel := { s.rel with log := [] }, out := .kdp ch 4 .ok 0 [] :: s.out }
        ∧ exec (.logClear ch 0) s = .next { s with out := .kdp ch 4 .ok 0 [] :: s.out }
        ∧ ∀ v : Byte, 1 < v.toNat → exec (.logClear ch v) s = .next { s with out := .kdp ch 4 .badArg 0 [] :: s.out })
    ∧ (s.expertOn ch 0x6010 →
        (∃ t, exec (.foldRequest ch 1) s = .next t ∧ t.dev = .folded ∧ t.obj 0x601003 0 = 5 ∧ t.play = none)
        ∧ exec (.foldRequest ch 0) s = .next { s with out := .kdp ch 4 .ok 0 [] :: s.out })
    ∧ (∀ id : Quad, s.expertOn ch 0x7001 →
        ((∃ x ∈ s.kdp.sessions, x.id = id ∧ x.isOpen = true) → ∃ t, exec (.sessionClose ch id) s = .next t
          ∧ (∀ y ∈ t.kdp.sessions, y.id = id → y.isOpen = false) ∧ t.out = .kdp ch 4 .ok 0 [] :: s.out)
        ∧ ((∀ x ∈ s.kdp.sessions, x.id = id → x.isOpen = false) →
          exec (.sessionClose ch id) s = .next { s with out := .kdp ch 4 .notFound 0 [] :: s.out }))
    ∧ (∀ (e : Bool) (v : Nat), s.expertOn ch 0x7000 → ∃ t, exec (.anchorWrite ch e v) s = .next t
        ∧ Tbl.get [] t.kdp.octets (if e then 0x700080 else 0x700081) = leBytes 97 v
        ∧ (∀ k, k ≠ (if e then 0x700080 else 0x700081) → Tbl.get [] t.kdp.octets k = Tbl.get [] s.kdp.octets k)
        ∧ (∀ n a, Tbl.get none t.kdp.assocs n = some a → (e = true → a.expert = false) ∧ (e = false → a.basic = true → a.expert = true))
        ∧ t.out = .kdp ch 4 .ok 0 [] :: s.out ∧ t = { s with kdp := { s.kdp with octets := t.kdp.octets, sessions := t.kdp.sessions
                                                                                 staging := t.kdp.staging, assocs := t.kdp.assocs
                                                                                 secured := t.kdp.secured }, out := t.out })
    ∧ (s.expertOn ch 0x4300 →
        (∃ t, exec (.kdpEnableWrite ch 0) s = .next t ∧ t.obj 0x430086 1 = 0 ∧ (∀ n, Tbl.get none t.kdp.assocs n = none)
          ∧ t.out = .kdp ch 4 .ok 0 [] :: s.out)
        ∧ (∃ t, exec (.kdpEnableWrite ch 1) s = .next t ∧ t.obj 0x430086 0 = 1 ∧ t.out = .kdp ch 4 .ok 0 [] :: s.out
          ∧ t = { s with objs := t.objs, out := t.out }))
    ∧ (s.expertOn ch 0x7000 →
        (∀ v : Nat, v < 2 ^ 256 → exec (.fabricSecret ch v) s
          = .next { s with sec := { s.sec with fs := some v, fsGen := s.sec.fsGen + 1 }, out := .kdp ch 4 .ok 0 [] :: s.out })
        ∧ (∀ slot : Byte, slot ≠ 0 → Tbl.get none s.keyBind slot.toNat = none → ∃ t, exec (.keySlotClear ch slot) s = .next t
          ∧ Tbl.get 0 t.keyGen slot.toNat = Tbl.get 0 s.keyGen slot.toNat + 1 ∧ (∀ k, k ≠ slot.toNat → Tbl.get 0 t.keyGen k = Tbl.get 0 s.keyGen k)
          ∧ t.out = .kdp ch 4 .ok 0 [] :: s.out ∧ t = { s with keyGen := t.keyGen, keyBind := t.keyBind, out := t.out })
        ∧ (∀ slot : Byte, slot = 0 ∨ (Tbl.get none s.keyBind slot.toNat).isSome = true → ∃ (t : State) (retry : Nat),
            exec (.keySlotClear ch slot) s = .next t ∧ t.out = .kdp ch 4 .conflict retry [] :: s.out ∧ t.keyGen = s.keyGen ∧ t.keyBind = s.keyBind)
        ∧ (∀ (v : Byte) (img : ImageFacts), s.fw.image = some img → img.revoke = 0 → s.active 2 = false →
            (s.sec.svn ≤ v.toNat → v.toNat ≤ img.svn → exec (.floorRaise ch v) s
              = .next { s with sec := s.sec.blow (floorBits s.sec.svn v.toNat 0), out := .kdp ch 4 .ok 0 [] :: s.out })
            ∧ (v.toNat < s.sec.svn ∨ img.svn < v.toNat → exec (.floorRaise ch v) s
              = .next { s with out := .kdp ch 4 .badArg 0 [] :: s.out }))
        ∧ (∀ m : DebugTokenMsg, m.level = 1 →
            (s.judgeToken m = .ok → ∃ t, exec (.debugToken ch m) s = .next t ∧ t.sec.level = max 1 s.sec.level ∧ t.sec.tenant = m.tenant
              ∧ t.sec.nonce = s.freeCtr ∧ t.out = .kdp ch 4 .ok 0 [] :: s.out
              ∧ t = { s with sec := { s.sec with level := t.sec.level, tenant := m.tenant, nonce := s.freeCtr }
                             freeCtr := s.freeCtr + 4, out := t.out }))
        ∧ (∀ m : DebugTokenMsg, m.nonce ≠ leNat s.debugNonce → ∃ (t : State) (st : Status), exec (.debugToken ch m) s = .next t ∧ st ≠ .ok
            ∧ t.sec = { s.sec with nonce := s.freeCtr } ∧ t.keyGen = s.keyGen ∧ t.out = .kdp ch 4 st 0 [] :: s.out)
        ∧ (∀ (n : Nat) (k : Fin 4) (mask : Byte) (pc : Quad),
            (s.sec.level ≠ 0 → (s.seat n).state ≠ .free → (s.seat n).entry.tenant = s.sec.tenant →
              (∃ t, exec (.seatBreakpoint ch n k mask pc true) s = .next t
                ∧ Tbl.get none t.sec.breaks k.val = some { seat := n, mask := mask.toNat, pc := pc }
                ∧ t = { s with sec := { s.sec with breaks := t.sec.breaks }, out := .kdp ch 4 .ok 0 [] :: s.out })
              ∧ (∃ t, exec (.seatBreakpoint ch n k mask pc false) s = .next t ∧ Tbl.get none t.sec.breaks k.val = none
                ∧ t = { s with sec := { s.sec with breaks := t.sec.breaks }, out := .kdp ch 4 .ok 0 [] :: s.out }))
            ∧ (s.sec.level = 0 ∨ (s.seat n).state = .free → ∀ on : Bool, exec (.seatBreakpoint ch n k mask pc on) s
                = .next { s with out := .kdp ch 4 .noAccess 0 [] :: s.out })))
    ∧ (∀ c : Cd, s.issuing c.val = true →
        (s.breakAt c.val = true → ∃ t, exec (.breakpointHit c) s = .next t ∧ t.play.map (·.phase) = some (.halting 0x02)
          ∧ t.memory = s.memory ∧ (∀ k, (t.seq k).ctx = (s.seq k).ctx))
        ∧ (s.breakAt c.val = false → exec (.breakpointHit c) s = .next s))

/-! ## The MCTP endpoint (17, R506 to R508; 19, R560, R561) -/

/-- MCTP control, PLDM and SPDM answer. The places of fields and the codes are the model's, from the standards that the spec names (log
44, 45); no unit answers in COLD and OPTIONS. -/
def Obligations.EndpointAnswers : Prop :=
  ∀ (s : State) (vdm : Bool),
    (s.dictOff = false →
      (∀ eid : Byte, eid ≠ 0 → eid ≠ 0xFF → exec (.setEndpointId vdm eid) s
          = .next { s with kdp := { s.kdp with eid := Tbl.set 0 s.kdp.eid (if vdm then 1 else 0) eid.toNat }
                           out := .mctp vdm 1 [0, 0, eid] :: s.out })
      ∧ (∀ eid : Byte, eid = 0 ∨ eid = 0xFF → exec (.setEndpointId vdm eid) s = .next { s with out := .mctp vdm 1 [0x02] :: s.out })
      ∧ exec (.getEndpointId vdm) s
          = .next { s with out := .mctp vdm 2 [0, BitVec.ofNat 8 (Tbl.get 0 s.kdp.eid (if vdm then 1 else 0))] :: s.out }
      ∧ (∀ ty : Byte, ty = 0xFF ∨ ty = 0 → exec (.getMctpVersionSupport vdm ty) s
          = .next { s with out := .mctp vdm 4 [0, 1, 0xF1, 0xF3, 0xFF, 0] :: s.out })
      ∧ (∀ ty : Byte, ty ∉ [0x00, 0x01, 0x05, 0x06, 0x7E, 0xFF] → exec (.getMctpVersionSupport vdm ty) s
          = .next { s with out := .mctp vdm 4 [0x80] :: s.out })
      ∧ (∀ ty : Byte, ty ∈ [0x01, 0x05, 0x06, 0x7E] → ∃ d, exec (.getMctpVersionSupport vdm ty) s
          = .next { s with out := .mctp vdm 4 (0 :: 1 :: d) :: s.out } ∧ d.length = 4)
      ∧ exec (.getMessageTypeSupport vdm) s = .next { s with out := .mctp vdm 5 [0, 4, 0x01, 0x05, 0x06, 0x7E] :: s.out }
      ∧ (∃ d, exec (.getVendorDefinedMessageSupport vdm 0) s = .next { s with out := .mctp vdm 6 (0 :: 0xFF :: 0 :: d) :: s.out }
          ∧ d.length = 4)
      ∧ (∀ k : Byte, k ≠ 0 → exec (.getVendorDefinedMessageSupport vdm k) s = .next { s with out := .mctp vdm 6 [0x02] :: s.out })
      ∧ exec (.getTid vdm) s = .next { s with out := .mctp vdm 0x10002 [0, s.kdp.tid] :: s.out }
      ∧ (∀ tid : Byte, tid ≠ 0 → tid ≠ 0xFF → exec (.setTid vdm tid) s
          = .next { s with kdp := { s.kdp with tid := tid }, out := .mctp vdm 0x10001 [0] :: s.out })
      ∧ (∀ tid : Byte, tid = 0 ∨ tid = 0xFF → exec (.setTid vdm tid) s = .next { s with out := .mctp vdm 0x10001 [0x02] :: s.out })
      ∧ exec (.getPldmTypes vdm) s = .next { s with out := .mctp vdm 0x10004 [0, 5, 0, 0, 0, 0, 0, 0, 0] :: s.out }
      ∧ (∀ ty : Byte, ty ≠ 0 → ty ≠ 2 →
          exec (.getPldmCommands vdm ty) s = .next { s with out := .mctp vdm 0x10005 [0x83] :: s.out }
          ∧ exec (.getPldmVersion vdm ty) s = .next { s with out := .mctp vdm 0x10003 [0x83] :: s.out })
      ∧ (∀ ty : Byte, ty = 0 ∨ ty = 2 →
          (∃ d, exec (.getPldmCommands vdm ty) s = .next { s with out := .mctp vdm 0x10005 (0 :: d) :: s.out } ∧ d.length = 32
            ∧ ∀ k, k < 256 → bit (leNat d) k = (if ty = 0 then [1, 2, 3, 4, 5] else [0x11, 0x21, 0x50, 0x51]).contains k)
          ∧ (∃ d, exec (.getPldmVersion vdm ty) s = .next { s with out := .mctp vdm 0x10003 (0 :: d) :: s.out } ∧ d.length = 4))
      ∧ (∃ d, exec (.getPdrRepositoryInfo vdm) s = .next { s with out := .mctp vdm 0x10250 (0 :: d) :: s.out } ∧ d.length = 40)
      ∧ (∀ handle : Nat, exec (.getPdr vdm handle) s
          = .next { s with out := .mctp vdm 0x10251 (if Config.pdr handle = [] then [0x82] else 0 :: Config.pdr handle) :: s.out })
      ∧ (∀ n : Nat, 1 ≤ n → n ≤ 27 → ∃ v, exec (.getSensorReading vdm n) s
          = .next { s with out := .mctp vdm 0x10211 (0 :: s.sensorState n :: v) :: s.out }
            ∧ (n = 1 → v = leBytes 4 (s.obj 0x200001 0 / 1000))
            ∧ (∀ d, n = d + 2 → d < 10 → v = leBytes 2 ((s.power.die d).tmax % 65536).toNat)
            ∧ (∀ k, n = k + 12 → v = leBytes 2 ((Tbl.get 0 s.power.memTmax k) % 65536).toNat))
      ∧ (∀ n : Nat, n = 0 ∨ 27 < n → exec (.getSensorReading vdm n) s = .next { s with out := .mctp vdm 0x10211 [0x80] :: s.out })
      ∧ exec (.getStateSensorReadings vdm 28) s
          = .next { s with out := .mctp vdm 0x10221 [0, 0, BitVec.ofNat 8 (devCode s.dev)] :: s.out }
      ∧ (∀ n : Nat, n ≠ 28 → exec (.getStateSensorReadings vdm n) s = .next { s with out := .mctp vdm 0x10221 [0x80] :: s.out })
      ∧ (s.spdmBusy = false →
          exec (.getMeasurements vdm 0) s = .next { s with out := .mctp vdm 0x50060 [7] :: s.out }
          ∧ (∀ k : Byte, 1 ≤ k.toNat → k.toNat ≤ 7 → exec (.getMeasurements vdm k) s
              = .next { s with out := .mctp vdm 0x50060 (s.signedBy (1 :: s.block k.toNat)) :: s.out })
          ∧ exec (.getMeasurements vdm 0xFF) s
              = .next { s with out := .mctp vdm 0x50060 (s.signedBy (7 :: (List.range 7).flatMap fun i => s.block (i + 1))) :: s.out }
          ∧ (∀ (eid : Nat) (chain : Bool), exec (.keyExchange vdm eid false chain) s = .next { s with out := .mctp vdm 0x5007F [1, 0] :: s.out })
          ∧ (∀ (eid : Nat) (chain : Bool), (s.kdp.secured.filter fun x => x.1 == vdm && x.2.1 == eid).length < 4 →
              ∃ t, exec (.keyExchange vdm eid true chain) s = .next t
                ∧ (∃ x, t.kdp.secured = s.kdp.secured ++ [(vdm, eid, x)] ∧ (chain = false → x = false)
                    ∧ (leNat (Tbl.get [] s.kdp.octets 0x700080) = 0 → x = false))
                ∧ t = { s with kdp := { s.kdp with secured := t.kdp.secured }, out := .mctp vdm 0x50064 (s.signedBy s.certificate) :: s.out })
          ∧ (∀ (eid : Nat) (chain : Bool), 4 ≤ (s.kdp.secured.filter fun x => x.1 == vdm && x.2.1 == eid).length →
              exec (.keyExchange vdm eid true chain) s = .next { s with out := .mctp vdm 0x5007F [0x0A, 0] :: s.out }))
      ∧ (s.spdmBusy = true →
          (∀ k : Byte, exec (.getMeasurements vdm k) s = .next { s with out := .mctp vdm 0x5007F [3, 0] :: s.out })
          ∧ ∀ (eid : Nat) (m c : Bool), exec (.keyExchange vdm eid m c) s = .next { s with out := .mctp vdm 0x5007F [3, 0] :: s.out }))
    ∧ (s.dictOff = true → exec (.getTid vdm) s = .next s ∧ exec (.getEndpointId vdm) s = .next s ∧ ∀ k, exec (.getMeasurements vdm k) s = .next s)

/-! ## Dummies, epochs and restores (18, section 18.6; 19, R554) -/

/-- The pool, shadow sets, ranges opened and closed on the buddy, their scrub, notices, epochs that open, restores that start and complete,
and the sweep (18, R527 to R531, R533, R536, R537, R540, R541; 19, R554; Tables 18-9, 18-13 to 18-15). -/
def Obligations.DummiesAndRestoresAct : Prop :=
  ∀ s : State,
    (∀ (ch : Channel) (mask : BitVec 48), s.expertOn ch 0x6400 → s.maint.hosted = [] → s.liveSeats = [] →
        exec (.dummyPool ch mask) s = .next { s with rel := { s.rel with pool := mask }, out := .kdp ch 4 .ok 0 [] :: s.out })
    ∧ (∀ (ch : Channel) (mask : BitVec 48) (n : Nat) (i : SeatInfo) (w : Window), s.expertOn ch 0x6400 → (n, i) ∈ s.liveSeats →
        w ∈ i.entry.windows → w.k = false → routeOf w.base = 0 → meetsPool mask w.base w.size = true → ∃ (t : State) (retry : Nat),
          exec (.dummyPool ch mask) s = .next t ∧ t.rel = s.rel ∧ t.out = .kdp ch 4 .conflict retry [] :: s.out)
    ∧ (∀ (ch : Channel) (n : Nat) (all : Bool) (mask : Half), s.expertOn ch 0x6400 →
        (n < s.entries → (s.seat n).state ≠ .free → ∃ t, exec (.shadowSet ch n all mask) s = .next t
          ∧ t.seat n = { s.seat n with shadowNext := some (if all then 0xFFFF else mask) } ∧ (∀ k, k ≠ n → t.seat k = s.seat k)
          ∧ t = { s with seats := t.seats, out := .kdp ch 4 .ok 0 [] :: s.out })
        ∧ ((s.seat n).state = .free → exec (.shadowSet ch n all mask) s = .next { s with out := .kdp ch 4 .notFound 0 [] :: s.out }))
    ∧ (∀ (ch : Channel) (n : Nat) (v : Word), s.expertOn ch 0x6400 → n < s.entries → n < 4096 → s.hasDummy n true = true →
        (s.mayStart 7 (some n) = true → (s.seat n).state = .parked → ∀ i, i = .restoreByEpoch ch n v ∨ i = .restoreByHeartbeat ch n v →
          ∃ t, exec i s = .next t ∧ t.maint.opens = s.maint.opens ++ [(s.mgmt.mbxSeq, n, true)]
            ∧ (∃ r, r ∈ t.maint.restores ∧ r.seat = n ∧ r.value = v.toNat ∧ (r.mode = 1 ↔ i = .restoreByHeartbeat ch n v) ∧ r.phase = 0)
            ∧ (∃ k, t.fab.out = s.fab.out ++ [k] ∧ k.pkt.op = 0x0B ∧ k.pkt.dstPos = (s.seat n).entry.buddy)
            ∧ t.out = .kdp ch 4 .ok 0 [] :: s.out)
        ∧ (s.mayStart 7 (some n) = true → (s.seat n).state ≠ .parked → ∃ (t : State) (retry : Nat), exec (.restoreByEpoch ch n v) s = .next t
          ∧ t.maint = s.maint ∧ t.out = .kdp ch 4 .conflict retry [] :: s.out)
        ∧ ((s.seat n).state ≠ .free → ∃ t, exec (.restoreQuery ch n) s = .next t
            ∧ t.maint.opens = s.maint.opens ++ [(s.mgmt.mbxSeq, n + 4096, true)] ∧ (∃ r ∈ t.maint.restores, r.seat = n ∧ r.mode = 2)
            ∧ t.seats = s.seats ∧ t.out = .kdp ch 4 .ok 0 [] :: s.out))
    ∧ (∀ (n : Nat) (r : Restore), s.maint.restores = [r] → r.key = n → r.mode ≠ 2 → r.phase = 6 → (s.seat n).state = .parked → s.groups = [] →
        ∃ t, exec (.restoreComplete n) s = .next t ∧ t.maint.restores = [] ∧ (t.seat n).lastEpoch.toNat = field r.held 8 8 % 2 ^ 64
          ∧ (t.seat n).inc = (s.seat n).inc + 1 ∧ (t.seat n).state = .parked ∧ (t.seat n).shadowNext = none
          ∧ (∀ k, k ≠ n → t.seat k = s.seat k) ∧ t.rel.lastError.map (fun e => (e.cls, e.code, e.status)) = some (1, 0x0702, 0))
    ∧ (∀ n : Nat, s.maint.restores = [] → exec (.restoreComplete n) s = .next s)
    ∧ (∀ (p : Play) (left : Nat) (n : Nat), s.play = some p → p.seat = n → n < 4096 → p.phase = .draining left → s.dev = .live → s.epochDue n = true →
        s.offered n = true → s.mayStart 5 (some n) = true → s.hasDummy n = true → s.half n 0 = none → (s.seat n).shadowNext = none →
        (s.seat n).shadow = 0 → 69632 ≤ (s.seat n).entry.dummyHalf → ∃ (t : State) (x : Epoch), exec .epochOpen s = .next t
          ∧ t.rel.epochs = s.rel.epochs ++ [x] ∧ x.seat = n ∧ x.epoch = (s.seat n).lastEpoch + 1 ∧ x.inc = (s.seat n).inc ∧ x.opened = s.now
          ∧ x.pages = 0 ∧ x.length = 65536 ∧ x.buddy = (s.seat n).entry.buddy ∧ (t.seat n).epochMark = BitVec.ofNat 64 (s.ns / 1000000000)
          ∧ ∃ k, t.fab.out = s.fab.out ++ [k] ∧ k.pkt.op = 0x0B ∧ k.pkt.dstPos = (s.seat n).entry.buddy)
    ∧ (s.play = none → exec .epochOpen s = .next s)
    ∧ (∀ p : Play, s.play = some p → s.epochDue p.seat = false → exec .epochOpen s = .next s)
    ∧ (∀ m : DummyMsg, s.hasTable = true → s.dev = .live → s.fab.rx = [] → s.hears m.srcPos = true → Tbl.get 0 s.mgmt.peers m.srcPos = 0 → m.receiverInc = 0 →
        s.liveSeats = [] → s.maint.hosted = [] →
        (m.base % 65536 = 0 → m.length % 65536 = 0 → m.length ≠ 0 → inPool s.rel.pool m.base m.length = true →
            overlap s.tableAt (512 * s.entries) m.base m.length = false → ∃ (t : State) (k : OutPkt), exec (.dummyOpen m) s = .next t
          ∧ t.maint.hosted = [{ pos := m.srcPos, serial := m.serial, seat := m.seat, tenant := m.tenant, base := m.base, length := m.length }]
          ∧ Tbl.get 0 t.mgmt.peers m.srcPos = m.senderInc.toNat
          ∧ t.fab.out = s.fab.out ++ [k] ∧ k.pkt.op = 0x0B ∧ k.pkt.dstPos = m.srcPos ∧ k.pkt.data.getD 6 0 = 0)
        ∧ (m.base % 65536 ≠ 0 → ∃ (t : State) (k : OutPkt), exec (.dummyOpen m) s = .next t ∧ t.maint.hosted = []
          ∧ t.fab.out = s.fab.out ++ [k] ∧ k.pkt.data.getD 6 0 = statusCode .badArg)
        ∧ (m.base % 65536 = 0 → m.length % 65536 = 0 → m.length ≠ 0 → inPool s.rel.pool m.base m.length = false →
            ∃ (t : State) (k : OutPkt), exec (.dummyOpen m) s = .next t ∧ t.maint.hosted = []
          ∧ t.fab.out = s.fab.out ++ [k] ∧ k.pkt.data.getD 6 0 = statusCode .noAccess))
    ∧ (∀ (m : DummyMsg) (h : Hosted), s.takesPackets = true → s.fab.rx = [] → s.hears m.srcPos = true → Tbl.get 0 s.mgmt.peers m.srcPos = 0 → s.maint.hosted = [h] →
        h.scrub = none →
        (h.serial = m.serial → h.seat = m.seat → h.base = m.base → ∃ t, exec (.dummyClose m) s = .next t
          ∧ t.maint.hosted = [{ h with scrub := some (s.ns + h.length * s.clk.div / 4 / 256) }]
          ∧ t = { s with maint := { s.maint with hosted := t.maint.hosted }, mgmt := { s.mgmt with peers := t.mgmt.peers } })
        ∧ (h.base ≠ m.base → ∃ t, exec (.dummyClose m) s = .next t ∧ t.maint = s.maint
          ∧ t = { s with mgmt := { s.mgmt with peers := t.mgmt.peers } }))
    ∧ (∀ (h : Hosted) (stop : Nat), s.maint.hosted = [h] → h.scrub = some stop → h.base % 64 = 0 → h.length % 64 = 0 →
        h.base + h.length ≤ farEnd → ∃ t, exec (.dummyScrubEnd h.base) s = .next t ∧ t.maint.hosted = []
          ∧ (∀ a, h.base ≤ a → a < h.base + h.length → t.memory.read1 (s.keyOf 0) a = (0, false))
          ∧ (∀ key a, farEnd ≤ a → t.memory.read1 key a = s.memory.read1 key a)
          ∧ t = { s with memory := t.memory, maint := { s.maint with hosted := [] } })
    ∧ (s.maint.hosted = [] → ∀ base, exec (.dummyScrubEnd base) s = .next s)
    ∧ (∀ m : DummyMsg, s.takesPackets = true → s.fab.rx = [] → s.hears m.srcPos = true → Tbl.get 0 s.mgmt.peers m.srcPos = 0 → m.half < 2 →
        ((s.seat m.seat).state ≠ .free → (s.seat m.seat).entry.dummyBase = m.base → (s.seat m.seat).entry.buddy = m.srcPos →
          ∃ t, exec (.dummyNotice m) s = .next t ∧ t.half m.seat m.half = none ∧ t.half m.seat (1 - m.half) = s.half m.seat (1 - m.half)
            ∧ t.rel.lastError.map (fun e => (e.cls, e.code, e.seat)) = some (1, 0x0703, m.seat) ∧ t.seats = s.seats)
        ∧ ((s.seat m.seat).state = .free → ∃ t, exec (.dummyNotice m) s = .next t ∧ t = { s with mgmt := { s.mgmt with peers := t.mgmt.peers } }))
    ∧ (s.maint.hosted = [] → exec (.sweep none) s = .next s)
    ∧ (∀ ch : Channel, s.expertOn ch 0x6400 → s.mayStart 6 = true →
        (s.maint.hosted = [] → exec (.sweep (some ch)) s = .next { s with out := .kdp ch 4 .ok 0 [] :: s.out })
        ∧ (∀ h : Hosted, s.maint.hosted = [h] → h.scrub = none → s.halfCommitted h.base (h.length / 2) = true →
            s.halfDiffers h.base (h.length / 2) = true → 8192 ≤ h.length → h.base % 64 = 0 → h.length % 128 = 0 →
            s.halfCommitted (h.base + h.length / 2) (h.length / 2) = false →
            ∃ (t : State) (k : OutPkt), exec (.sweep (some ch)) s = .next t
              ∧ t.memory = (s.writeSlot 0 (h.base + h.length / 2 - 4096) (good (zeros 4096))).memory
              ∧ t.fab.out = s.fab.out ++ [k] ∧ k.pkt.op = 0x0B ∧ k.pkt.dstPos = h.pos ∧ t.out = .kdp ch 4 .ok 0 [] :: s.out))

/-! ## Memory, reset and the invariant -/

/-- Bytes written under a key read back under that key, and no other byte that the key reads changes (08, R223, R230, R243, R244). -/
def Obligations.MemoryReadsBackWrites : Prop :=
  ∀ (m : Memory) (key a : Nat) (bs : List PByte), inOneMem a bs.length = true →
    ((m.write key a bs).read key a bs.length).map (·.1) = bs.map (·.1)
    ∧ ∀ x, x < a ∨ a + bs.length ≤ x → ((m.write key a bs).read1 key x).1 = (m.read1 key x).1

/-- What reset leaves (02, Tables 2-3 to 2-10; 09; 13, Table 13-3; 14, Table 14-3; 15, R434; 19, R562): the package COLD with no seat,
nothing in memory, the slowest divider, a free timebase at 0, no key bound, debug LOCKED; and the invariant holds. -/
def Obligations.ResetLeavesTheColdPackage : Prop :=
  State.reset.Inv ∧ State.reset.pending = [] ∧ State.reset.dev = .cold ∧ State.reset.play = none
    ∧ (∀ n, (State.reset.seat n).state = .free) ∧ (∀ a, State.reset.memory.read1 0 a = (0, false))
    ∧ State.reset.clk.div = 8 ∧ State.reset.clk.source = 0 ∧ State.reset.time.ns = 0 ∧ State.reset.time.state = 0
    ∧ (∀ k, Tbl.get none State.reset.keyBind k = none) ∧ State.reset.sec.level = 0 ∧ State.reset.sec.fs = none
    ∧ State.reset.groups = [] ∧ State.reset.host.numVfs = 0 ∧ State.reset.obj 0x610080 30000000 = 30000000

/-- Every step keeps the memory in its one canonical form: addresses rise, and no listed byte is 0 (08; the form is the model's). -/
def Obligations.EveryStepKeepsTheMemoryForm : Prop :=
  ∀ s t : State, s.Inv → step s = .next t → t.Inv
end

