-- ==== Sys2Proof/Laws/Exec.lean ====
section
/-! SUPPORT. What `exec` does with each command: one lemma per constructor, true by rfl, so that no proof unfolds the dispatch. -/

namespace Sys2Proof.Machine

@[simp] theorem exec_play (p : CmdPort) (seat : Nat) (s : State) : exec (.play p seat) s = execPlay p seat s := rfl
@[simp] theorem exec_halt (p : CmdPort) (seat : Nat) (s : State) : exec (.halt p seat) s = execHalt p seat s := rfl
@[simp] theorem exec_resume (p : CmdPort) (seat : Nat) (s : State) : exec (.resume p seat) s = execResume p seat s := rfl
@[simp] theorem exec_reset (p : CmdPort) (seat : Nat) (s : State) : exec (.reset p seat) s = execReset p seat s := rfl
@[simp] theorem exec_activate (seat : Nat) (facts : DeckFacts) (s : State) : exec (.activate seat facts) s = execActivate seat facts s := rfl
@[simp] theorem exec_activateComplete (s : State) : exec (.activateComplete) s = execActivateComplete s := rfl
@[simp] theorem exec_seat (seat : Nat) (s : State) : exec (.seat seat) s = execSeat seat s := rfl
@[simp] theorem exec_park (seat : Nat) (s : State) : exec (.park seat) s = execPark seat s := rfl
@[simp] theorem exec_release (seat : Nat) (s : State) : exec (.release seat) s = execRelease seat s := rfl
@[simp] theorem exec_releaseScrubComplete (s : State) : exec (.releaseScrubComplete) s = execReleaseScrubComplete s := rfl
@[simp] theorem exec_pin (seat : Nat) (s : State) : exec (.pin seat) s = execPin seat s := rfl
@[simp] theorem exec_unpin (seat : Nat) (s : State) : exec (.unpin seat) s = execUnpin seat s := rfl
@[simp] theorem exec_seatTableWrite (reg : SeatTableReg) (v : Word) (s : State) : exec (.seatTableWrite reg v) s = execSeatTableWrite reg v s := rfl
@[simp] theorem exec_registerWrite (f : Func) (off : Nat) (data : List Byte) (s : State) : exec (.registerWrite f off data) s = execRegisterWrite f off data s := rfl
@[simp] theorem exec_hifEventPop (f : Func) (s : State) : exec (.hifEventPop f) s = execHifEventPop f s := rfl
@[simp] theorem exec_irqCauseClear (f : Func) (v : Quad) (setAgain : Quad) (s : State) : exec (.irqCauseClear f v setAgain) s = execIrqCauseClear f v setAgain s := rfl
@[simp] theorem exec_irqMaskWrite (f : Func) (v : Quad) (s : State) : exec (.irqMaskWrite f v) s = execIrqMaskWrite f v s := rfl
@[simp] theorem exec_mbxInPost (f : Func) (s : State) : exec (.mbxInPost f) s = execMbxInPost f s := rfl
@[simp] theorem exec_messageAccept (f : Func) (s : State) : exec (.messageAccept f) s = execMessageAccept f s := rfl
@[simp] theorem exec_mbxOutClear (f : Func) (s : State) : exec (.mbxOutClear f) s = execMbxOutClear f s := rfl
@[simp] theorem exec_mbxOutWrite (f : Func) (s : State) : exec (.mbxOutWrite f) s = execMbxOutWrite f s := rfl
@[simp] theorem exec_functionLevelReset (f : Func) (s : State) : exec (.functionLevelReset f) s = execFunctionLevelReset f s := rfl
@[simp] theorem exec_vfDisable (numVfs : Nat) (s : State) : exec (.vfDisable numVfs) s = execVfDisable numVfs s := rfl
@[simp] theorem exec_bar2Access (write : Bool) (off : Nat) (len : Nat) (data : List Byte) (ep : Bool) (s : State) : exec (.bar2Access write off len data ep) s = execBar2Access write off len data ep s := rfl
@[simp] theorem exec_seatChoose (s : State) : exec (.seatChoose) s = execSeatChoose s := rfl
@[simp] theorem exec_seatLoad (seat : Nat) (s : State) : exec (.seatLoad seat) s = execSeatLoad seat s := rfl
@[simp] theorem exec_seatSwitch (s : State) : exec (.seatSwitch) s = execSeatSwitch s := rfl
@[simp] theorem exec_seatFirstIssue (s : State) : exec (.seatFirstIssue) s = execSeatFirstIssue s := rfl
@[simp] theorem exec_seatResetComplete (seat : Nat) (s : State) : exec (.seatResetComplete seat) s = execSeatResetComplete seat s := rfl
@[simp] theorem exec_add (i : Issue) (d : Dst) (a b : Src) (s : State) : exec (.add i d a b) s = execAdd i d a b s := rfl
@[simp] theorem exec_sub (i : Issue) (d : Dst) (a b : Src) (s : State) : exec (.sub i d a b) s = execSub i d a b s := rfl
@[simp] theorem exec_mul (i : Issue) (d : Dst) (a b : Src) (s : State) : exec (.mul i d a b) s = execMul i d a b s := rfl
@[simp] theorem exec_and (i : Issue) (d : Dst) (a b : Src) (s : State) : exec (.and i d a b) s = execAnd i d a b s := rfl
@[simp] theorem exec_or (i : Issue) (d : Dst) (a b : Src) (s : State) : exec (.or i d a b) s = execOr i d a b s := rfl
@[simp] theorem exec_xor (i : Issue) (d : Dst) (a b : Src) (s : State) : exec (.xor i d a b) s = execXor i d a b s := rfl
@[simp] theorem exec_shl (i : Issue) (d : Dst) (a b : Src) (s : State) : exec (.shl i d a b) s = execShl i d a b s := rfl
@[simp] theorem exec_shr (i : Issue) (d : Dst) (a b : Src) (s : State) : exec (.shr i d a b) s = execShr i d a b s := rfl
@[simp] theorem exec_sra (i : Issue) (d : Dst) (a b : Src) (s : State) : exec (.sra i d a b) s = execSra i d a b s := rfl
@[simp] theorem exec_min (i : Issue) (d : Dst) (a b : Src) (s : State) : exec (.min i d a b) s = execMin i d a b s := rfl
@[simp] theorem exec_max (i : Issue) (d : Dst) (a b : Src) (s : State) : exec (.max i d a b) s = execMax i d a b s := rfl
@[simp] theorem exec_minu (i : Issue) (d : Dst) (a b : Src) (s : State) : exec (.minu i d a b) s = execMinu i d a b s := rfl
@[simp] theorem exec_maxu (i : Issue) (d : Dst) (a b : Src) (s : State) : exec (.maxu i d a b) s = execMaxu i d a b s := rfl
@[simp] theorem exec_mov (i : Issue) (d : Dst) (a : Src) (s : State) : exec (.mov i d a) s = execMov i d a s := rfl
@[simp] theorem exec_li (i : Issue) (d : Dst) (v : Word) (s : State) : exec (.li i d v) s = execLi i d v s := rfl
@[simp] theorem exec_cmpCc (i : Issue) (cc : Cc) (d : Dst) (a b : Src) (s : State) : exec (.cmpCc i cc d a b) s = execCmpCc i cc d a b s := rfl
@[simp] theorem exec_ldN (i : Issue) (d : Dst) (off : Src) (s : State) : exec (.ldN i d off) s = execLdN i d off s := rfl
@[simp] theorem exec_stN (i : Issue) (off : Src) (v : Src) (s : State) : exec (.stN i off v) s = execStN i off v s := rfl
@[simp] theorem exec_ldC (i : Issue) (d : Dst) (off : Src) (s : State) : exec (.ldC i d off) s = execLdC i d off s := rfl
@[simp] theorem exec_cdid (i : Issue) (d : Dst) (s : State) : exec (.cdid i d) s = execCdid i d s := rfl
@[simp] theorem exec_rdcyc (i : Issue) (d : Dst) (s : State) : exec (.rdcyc i d) s = execRdcyc i d s := rfl
@[simp] theorem exec_rdtime (i : Issue) (d : Dst) (s : State) : exec (.rdtime i d) s = execRdtime i d s := rfl
@[simp] theorem exec_rdtel (i : Issue) (d : Dst) (s : State) : exec (.rdtel i d) s = execRdtel i d s := rfl
@[simp] theorem exec_seedHw (i : Issue) (d : Dst) (s : State) : exec (.seedHw i d) s = execSeedHw i d s := rfl
@[simp] theorem exec_registerResultLand (cd : Cd) (d : Dst) (s : State) : exec (.registerResultLand cd d) s = execRegisterResultLand cd d s := rfl
@[simp] theorem exec_vlen (i : Issue) (v : Src) (s : State) : exec (.vlen i v) s = execVlen i v s := rfl
@[simp] theorem exec_vrun (i : Issue) (a : VrunArgs) (s : State) : exec (.vrun i a) s = execVrun i a s := rfl
@[simp] theorem exec_vred (i : Issue) (op : VredOp) (d : Dst) (a : VrunArgs) (s : State) : exec (.vred i op d a) s = execVred i op d a s := rfl
@[simp] theorem exec_wld (i : Issue) (a : WldArgs) (s : State) : exec (.wld i a) s = execWld i a s := rfl
@[simp] theorem exec_mma (i : Issue) (a : MmaArgs) (s : State) : exec (.mma i a) s = execMma i a s := rfl
@[simp] theorem exec_mmag (i : Issue) (a : MmagArgs) (s : State) : exec (.mmag i a) s = execMmag i a s := rfl
@[simp] theorem exec_mvp (i : Issue) (a : MvpArgs) (s : State) : exec (.mvp i a) s = execMvp i a s := rfl
@[simp] theorem exec_dma (i : Issue) (engine : Fin 4) (desc : Nat) (s : State) : exec (.dma i engine desc) s = execDma i engine desc s := rfl
@[simp] theorem exec_xps (i : Issue) (desc : Nat) (s : State) : exec (.xps i desc) s = execXps i desc s := rfl
@[simp] theorem exec_dealCnt (i : Issue) (desc : Nat) (s : State) : exec (.dealCnt i desc) s = execDealCnt i desc s := rfl
@[simp] theorem exec_dealXch (i : Issue) (desc : Nat) (s : State) : exec (.dealXch i desc) s = execDealXch i desc s := rfl
@[simp] theorem exec_dealCap (i : Issue) (desc : Nat) (s : State) : exec (.dealCap i desc) s = execDealCap i desc s := rfl
@[simp] theorem exec_dealGth (i : Issue) (desc : Nat) (s : State) : exec (.dealGth i desc) s = execDealGth i desc s := rfl
@[simp] theorem exec_dealCmb (i : Issue) (desc : Nat) (s : State) : exec (.dealCmb i desc) s = execDealCmb i desc s := rfl
@[simp] theorem exec_allReduce (i : Issue) (desc : Nat) (s : State) : exec (.allReduce i desc) s = execAllReduce i desc s := rfl
@[simp] theorem exec_reduceScatter (i : Issue) (desc : Nat) (s : State) : exec (.reduceScatter i desc) s = execReduceScatter i desc s := rfl
@[simp] theorem exec_allGather (i : Issue) (desc : Nat) (s : State) : exec (.allGather i desc) s = execAllGather i desc s := rfl
@[simp] theorem exec_broadcast (i : Issue) (desc : Nat) (s : State) : exec (.broadcast i desc) s = execBroadcast i desc s := rfl
@[simp] theorem exec_reduce (i : Issue) (desc : Nat) (s : State) : exec (.reduce i desc) s = execReduce i desc s := rfl
@[simp] theorem exec_allToAll (i : Issue) (desc : Nat) (s : State) : exec (.allToAll i desc) s = execAllToAll i desc s := rfl
@[simp] theorem exec_barrier (i : Issue) (desc : Nat) (s : State) : exec (.barrier i desc) s = execBarrier i desc s := rfl
@[simp] theorem exec_digest (i : Issue) (desc : Nat) (s : State) : exec (.digest i desc) s = execDigest i desc s := rfl
@[simp] theorem exec_create (i : Issue) (desc : Nat) (s : State) : exec (.create i desc) s = execCreate i desc s := rfl
@[simp] theorem exec_destroy (i : Issue) (desc : Nat) (s : State) : exec (.destroy i desc) s = execDestroy i desc s := rfl
@[simp] theorem exec_nop (i : Issue) (s : State) : exec (.nop i) s = execNop i s := rfl
@[simp] theorem exec_tadd (i : Issue) (t : TallyRef) (amount : Src) (s : State) : exec (.tadd i t amount) s = execTadd i t amount s := rfl
@[simp] theorem exec_tld (i : Issue) (d : Dst) (t : TallyRef) (s : State) : exec (.tld i d t) s = execTld i d t s := rfl
@[simp] theorem exec_fset (i : Issue) (n : Nat) (s : State) : exec (.fset i n) s = execFset i n s := rfl
@[simp] theorem exec_fclr (i : Issue) (n : Nat) (s : State) : exec (.fclr i n) s = execFclr i n s := rfl
@[simp] theorem exec_lock (i : Issue) (d : Dst) (n : Nat) (s : State) : exec (.lock i d n) s = execLock i d n s := rfl
@[simp] theorem exec_lockStatus (cd : Cd) (s : State) : exec (.lockStatus cd) s = execLockStatus cd s := rfl
@[simp] theorem exec_unlock (i : Issue) (n : Nat) (s : State) : exec (.unlock i n) s = execUnlock i n s := rfl
@[simp] theorem exec_unlockRelease (cd : Cd) (s : State) : exec (.unlockRelease cd) s = execUnlockRelease cd s := rfl
@[simp] theorem exec_loop (i : Issue) (lvl : Fin 4) (count : Src) (last : Quad) (lastBytes : Nat) (s : State) : exec (.loop i lvl count last lastBytes) s = execLoop i lvl count last lastBytes s := rfl
@[simp] theorem exec_b (i : Issue) (target : Quad) (s : State) : exec (.b i target) s = execB i target s := rfl
@[simp] theorem exec_bCc (i : Issue) (cc : Cc) (a b : Src) (target : Quad) (s : State) : exec (.bCc i cc a b target) s = execBCc i cc a b target s := rfl
@[simp] theorem exec_bgCc (i : Issue) (cc : Cc) (a b : Src) (target : Quad) (s : State) : exec (.bgCc i cc a b target) s = execBgCc i cc a b target s := rfl
@[simp] theorem exec_rdx (i : Issue) (tag : Byte) (op : RdxOp) (g : Fin 16) (a : Src) (s : State) : exec (.rdx i tag op g a) s = execRdx i tag op g a s := rfl
@[simp] theorem exec_setph (i : Issue) (tag : Byte) (n : Nat) (s : State) : exec (.setph i tag n) s = execSetph i tag n s := rfl
@[simp] theorem exec_swpt (i : Issue) (tag : Byte) (k : Nat) (s : State) : exec (.swpt i tag k) s = execSwpt i tag k s := rfl
@[simp] theorem exec_swptDrainEnd (s : State) : exec (.swptDrainEnd) s = execSwptDrainEnd s := rfl
@[simp] theorem exec_end (i : Issue) (tag : Byte) (s : State) : exec (.end_ i tag) s = execEnd i tag s := rfl
@[simp] theorem exec_endComplete (s : State) : exec (.endComplete) s = execEndComplete s := rfl
@[simp] theorem exec_taddR (i : Issue) (d : Dst) (group : Half) (rank : Src) (n : Nat) (amount : Src) (s : State) : exec (.taddR i d group rank n amount) s = execTaddR i d group rank n amount s := rfl
@[simp] theorem exec_fetchFault (cd : Cd) (s : State) : exec (.fetchFault cd) s = execFetchFault cd s := rfl
@[simp] theorem exec_gangPoint (s : State) : exec (.gangPoint) s = execGangPoint s := rfl
@[simp] theorem exec_haltComplete (s : State) : exec (.haltComplete) s = execHaltComplete s := rfl
@[simp] theorem exec_signalDone (op : Nat) (s : State) : exec (.signalDone op) s = execSignalDone op s := rfl
@[simp] theorem exec_tallyAddApply (unit : Option Cd) (s : State) : exec (.tallyAddApply unit) s = execTallyAddApply unit s := rfl
@[simp] theorem exec_waitTimeout (cd : Cd) (what : WaitKind) (s : State) : exec (.waitTimeout cd what) s = execWaitTimeout cd what s := rfl
@[simp] theorem exec_phaseChange (s : State) : exec (.phaseChange) s = execPhaseChange s := rfl
@[simp] theorem exec_arrayOperationStart (s : State) : exec (.arrayOperationStart) s = execArrayOperationStart s := rfl
@[simp] theorem exec_checkColumnCompare (cd : Cd) (tile row : Nat) (bad : Option Nat) (s : State) : exec (.checkColumnCompare cd tile row bad) s = execCheckColumnCompare cd tile row bad s := rfl
@[simp] theorem exec_checkRowReadd (cd : Cd) (tile : Nat) (bad : Option Nat) (s : State) : exec (.checkRowReadd cd tile bad) s = execCheckRowReadd cd tile bad s := rfl
@[simp] theorem exec_arrayOperationEnd (s : State) : exec (.arrayOperationEnd) s = execArrayOperationEnd s := rfl
@[simp] theorem exec_softJokerAssign (cd : Cd) (row : Bool) (index : Nat) (s : State) : exec (.softJokerAssign cd row index) s = execSoftJokerAssign cd row index s := rfl
@[simp] theorem exec_mvpCompare (cd : Cd) (tile : Nat) (differ : Bool) (s : State) : exec (.mvpCompare cd tile differ) s = execMvpCompare cd tile differ s := rfl
@[simp] theorem exec_mvpEnd (cd : Cd) (s : State) : exec (.mvpEnd cd) s = execMvpEnd cd s := rfl
@[simp] theorem exec_tileBandClaim (cd : Cd) (s : State) : exec (.tileBandClaim cd) s = execTileBandClaim cd s := rfl
@[simp] theorem exec_tileEntryAvailable (cd : Cd) (s : State) : exec (.tileEntryAvailable cd) s = execTileEntryAvailable cd s := rfl
@[simp] theorem exec_tileEntryConsume (cd : Cd) (s : State) : exec (.tileEntryConsume cd) s = execTileEntryConsume cd s := rfl
@[simp] theorem exec_dmaBurstStart (cd : Cd) (engine : Fin 4) (s : State) : exec (.dmaBurstStart cd engine) s = execDmaBurstStart cd engine s := rfl
@[simp] theorem exec_stagingForward (burst : Nat) (s : State) : exec (.stagingForward burst) s = execStagingForward burst s := rfl
@[simp] theorem exec_burstCommit (burst : Nat) (s : State) : exec (.burstCommit burst) s = execBurstCommit burst s := rfl
@[simp] theorem exec_correctedWriteback (m : MemUnit) (sector : Nat) (s : State) : exec (.correctedWriteback m sector) s = execCorrectedWriteback m sector s := rfl
@[simp] theorem exec_scrubStep (m : MemUnit) (errs : List Nat) (s : State) : exec (.scrubStep m errs) s = execScrubStep m errs s := rfl
@[simp] theorem exec_refresh (m : MemUnit) (channel : Nat) (s : State) : exec (.refresh m channel) s = execRefresh m channel s := rfl
@[simp] theorem exec_refreshMultiplierChange (m : MemUnit) (temp : Int) (s : State) : exec (.refreshMultiplierChange m temp) s = execRefreshMultiplierChange m temp s := rfl
@[simp] theorem exec_ftBandModeWrite (ch : Channel) (v : Word) (s : State) : exec (.ftBandModeWrite ch v) s = execFtBandModeWrite ch v s := rfl
@[simp] theorem exec_tallyRegionWrite (off : Nat) (v : Word) (s : State) : exec (.tallyRegionWrite off v) s = execTallyRegionWrite off v s := rfl
@[simp] theorem exec_dbgSyncSelWrite (v : Word) (s : State) : exec (.dbgSyncSelWrite v) s = execDbgSyncSelWrite v s := rfl
@[simp] theorem exec_frameSend (sl : SliceId) (payload : List (BitVec 128)) (s : State) : exec (.frameSend sl payload) s = execFrameSend sl payload s := rfl
@[simp] theorem exec_frameReceive (sl : SliceId) (beats : List (BitVec 128)) (spares : List (BitVec 4)) (s : State) : exec (.frameReceive sl beats spares) s = execFrameReceive sl beats spares s := rfl
@[simp] theorem exec_linkLock (sl : SliceId) (beats : List (BitVec 128)) (spares : List (BitVec 4)) (s : State) : exec (.linkLock sl beats spares) s = execLinkLock sl beats spares s := rfl
@[simp] theorem exec_acceptanceCount (sl : SliceId) (accepted : Bool) (ringRows : Bool) (s : State) : exec (.acceptanceCount sl accepted ringRows) s = execAcceptanceCount sl accepted ringRows s := rfl
@[simp] theorem exec_controlMessageRelease (sl : SliceId) (beat : Fin 255) (s : State) : exec (.controlMessageRelease sl beat) s = execControlMessageRelease sl beat s := rfl
@[simp] theorem exec_linkFail (link : Fin 32) (slice : Nat) (dir : Bool) (s : State) : exec (.linkFail link slice dir) s = execLinkFail link slice dir s := rfl
@[simp] theorem exec_wireRepair (sl : SliceId) (wire : Nat) (s : State) : exec (.wireRepair sl wire) s = execWireRepair sl wire s := rfl
@[simp] theorem exec_flitSend (tp : Nat) (s : State) : exec (.flitSend tp) s = execFlitSend tp s := rfl
@[simp] theorem exec_flitReceive (tp : Nat) (got : FlitGot) (s : State) : exec (.flitReceive tp got) s = execFlitReceive tp got s := rfl
@[simp] theorem exec_nakRepeatTimer (tp : Nat) (s : State) : exec (.nakRepeatTimer tp) s = execNakRepeatTimer tp s := rfl
@[simp] theorem exec_ackTimeout (tp : Nat) (s : State) : exec (.ackTimeout tp) s = execAckTimeout tp s := rfl
@[simp] theorem exec_creditPartialReturn (tp : Nat) (bulk : Bool) (s : State) : exec (.creditPartialReturn tp bulk) s = execCreditPartialReturn tp bulk s := rfl
@[simp] theorem exec_portTraining (port : Nat) (s : State) : exec (.portTraining port) s = execPortTraining port s := rfl
@[simp] theorem exec_trainingTimeout (port : Nat) (s : State) : exec (.trainingTimeout port) s = execTrainingTimeout port s := rfl
@[simp] theorem exec_failedRetry (port : Nat) (s : State) : exec (.failedRetry port) s = execFailedRetry port s := rfl
@[simp] theorem exec_helloSend (tp : Nat) (s : State) : exec (.helloSend tp) s = execHelloSend tp s := rfl
@[simp] theorem exec_hello (tp : Nat) (m : HelloMsg) (s : State) : exec (.hello tp m) s = execHello tp m s := rfl
@[simp] theorem exec_closingFlit (tp : Nat) (s : State) : exec (.closingFlit tp) s = execClosingFlit tp s := rfl
@[simp] theorem exec_keyReady (tp : Nat) (generation : Nat) (confirm : Bool) (nonce : Nat) (s : State) : exec (.keyReady tp generation confirm nonce) s = execKeyReady tp generation confirm nonce s := rfl
@[simp] theorem exec_write (p : Packet) (s : State) : exec (.write p) s = execWrite p s := rfl
@[simp] theorem exec_writeAck (p : Packet) (s : State) : exec (.writeAck p) s = execWriteAck p s := rfl
@[simp] theorem exec_readReq (p : Packet) (s : State) : exec (.readReq p) s = execReadReq p s := rfl
@[simp] theorem exec_readData (p : Packet) (s : State) : exec (.readData p) s = execReadData p s := rfl
@[simp] theorem exec_taddPacket (p : Packet) (s : State) : exec (.taddPacket p) s = execTaddPacket p s := rfl
@[simp] theorem exec_taddStatus (p : Packet) (s : State) : exec (.taddStatus p) s = execTaddStatus p s := rfl
@[simp] theorem exec_collData (p : Packet) (s : State) : exec (.collData p) s = execCollData p s := rfl
@[simp] theorem exec_createRecord (r : CollRec) (s : State) : exec (.createRecord r) s = execCreateRecord r s := rfl
@[simp] theorem exec_ready (r : CollRec) (s : State) : exec (.ready r) s = execReady r s := rfl
@[simp] theorem exec_credit (r : CollRec) (s : State) : exec (.credit r) s = execCredit r s := rfl
@[simp] theorem exec_doneRecord (r : CollRec) (s : State) : exec (.doneRecord r) s = execDoneRecord r s := rfl
@[simp] theorem exec_abort (r : CollRec) (s : State) : exec (.abort r) s = execAbort r s := rfl
@[simp] theorem exec_digestRecord (r : CollRec) (s : State) : exec (.digestRecord r) s = execDigestRecord r s := rfl
@[simp] theorem exec_dealCount (p : Packet) (s : State) : exec (.dealCount p) s = execDealCount p s := rfl
@[simp] theorem exec_dealRow (p : Packet) (s : State) : exec (.dealRow p) s = execDealRow p s := rfl
@[simp] theorem exec_mbxPacket (m : MbxPacketMsg) (s : State) : exec (.mbxPacket m) s = execMbxPacket m s := rfl
@[simp] theorem exec_notice (p : Packet) (s : State) : exec (.notice p) s = execNotice p s := rfl
@[simp] theorem exec_packetUnknownOp (p : Packet) (s : State) : exec (.packetUnknownOp p) s = execPacketUnknownOp p s := rfl
@[simp] theorem exec_spineDataFrame (port : Nat) (fr : SpineFrame) (s : State) : exec (.spineDataFrame port fr) s = execSpineDataFrame port fr s := rfl
@[simp] theorem exec_spineAckFrame (port : Nat) (fr : SpineFrame) (s : State) : exec (.spineAckFrame port fr) s = execSpineAckFrame port fr s := rfl
@[simp] theorem exec_spineAckTimer (conn : Nat) (bulk : Bool) (s : State) : exec (.spineAckTimer conn bulk) s = execSpineAckTimer conn bulk s := rfl
@[simp] theorem exec_retransmitTimeout (conn : Nat) (bulk : Bool) (psn : Nat) (s : State) : exec (.retransmitTimeout conn bulk psn) s = execRetransmitTimeout conn bulk psn s := rfl
@[simp] theorem exec_ctrlOpen (m : CtrlMsg) (s : State) : exec (.ctrlOpen m) s = execCtrlOpen m s := rfl
@[simp] theorem exec_openAck (m : CtrlMsg) (s : State) : exec (.openAck m) s = execOpenAck m s := rfl
@[simp] theorem exec_redirect (m : CtrlMsg) (s : State) : exec (.redirect m) s = execRedirect m s := rfl
@[simp] theorem exec_close (m : CtrlMsg) (s : State) : exec (.close m) s = execClose m s := rfl
@[simp] theorem exec_closeAck (m : CtrlMsg) (s : State) : exec (.closeAck m) s = execCloseAck m s := rfl
@[simp] theorem exec_ctrlResendTimer (conn : Nat) (s : State) : exec (.ctrlResendTimer conn) s = execCtrlResendTimer conn s := rfl
@[simp] theorem exec_neighborDiscovery (port : Nat) (dstAddr : Nat) (echo : Bool) (s : State) : exec (.neighborDiscovery port dstAddr echo) s = execNeighborDiscovery port dstAddr echo s := rfl
@[simp] theorem exec_reportSendTimer (s : State) : exec (.reportSendTimer) s = execReportSendTimer s := rfl
@[simp] theorem exec_rosterSendTimer (s : State) : exec (.rosterSendTimer) s = execRosterSendTimer s := rfl
@[simp] theorem exec_report (m : RosterMsg) (s : State) : exec (.report m) s = execReport m s := rfl
@[simp] theorem exec_roster (m : RosterMsg) (s : State) : exec (.roster m) s = execRoster m s := rfl
@[simp] theorem exec_claim (m : RosterMsg) (s : State) : exec (.claim m) s = execClaim m s := rfl
@[simp] theorem exec_reportTimeout (pos : Nat) (s : State) : exec (.reportTimeout pos) s = execReportTimeout pos s := rfl
@[simp] theorem exec_claimTimer (s : State) : exec (.claimTimer) s = execClaimTimer s := rfl
@[simp] theorem exec_promoteSlot (ch : Channel) (n : Nat) (s : State) : exec (.promoteSlot ch n) s = execPromoteSlot ch n s := rfl
@[simp] theorem exec_syncIntervalTimer (s : State) : exec (.syncIntervalTimer) s = execSyncIntervalTimer s := rfl
@[simp] theorem exec_sync (m : TimeMsg) (s : State) : exec (.sync m) s = execSync m s := rfl
@[simp] theorem exec_followUp (m : TimeMsg) (s : State) : exec (.followUp m) s = execFollowUp m s := rfl
@[simp] theorem exec_delayReq (m : TimeMsg) (s : State) : exec (.delayReq m) s = execDelayReq m s := rfl
@[simp] theorem exec_delayResp (m : TimeMsg) (s : State) : exec (.delayResp m) s = execDelayResp m s := rfl
@[simp] theorem exec_exchangeTimeout (s : State) : exec (.exchangeTimeout) s = execExchangeTimeout s := rfl
@[simp] theorem exec_slewEnd (s : State) : exec (.slewEnd) s = execSlewEnd s := rfl
@[simp] theorem exec_holdoverEntry (s : State) : exec (.holdoverEntry) s = execHoldoverEntry s := rfl
@[simp] theorem exec_ptpSync (seq : Half) (twoStep : Bool) (seconds nanos : Nat) (ingress : Word) (s : State) : exec (.ptpSync seq twoStep seconds nanos ingress) s = execPtpSync seq twoStep seconds nanos ingress s := rfl
@[simp] theorem exec_ptpFollowUp (seq : Half) (seconds nanos : Nat) (s : State) : exec (.ptpFollowUp seq seconds nanos) s = execPtpFollowUp seq seconds nanos s := rfl
@[simp] theorem exec_ptpDelayResp (seq : Half) (seconds nanos : Nat) (s : State) : exec (.ptpDelayResp seq seconds nanos) s = execPtpDelayResp seq seconds nanos s := rfl
@[simp] theorem exec_ptpAnnounce (grandmaster : Word) (rank : Nat) (arb : Bool) (domain : Nat) (s : State) : exec (.ptpAnnounce grandmaster rank arb domain) s = execPtpAnnounce grandmaster rank arb domain s := rfl
@[simp] theorem exec_crystalStable (s : State) : exec (.crystalStable) s = execCrystalStable s := rfl
@[simp] theorem exec_crystalTimeout (s : State) : exec (.crystalTimeout) s = execCrystalTimeout s := rfl
@[simp] theorem exec_referenceLoss (s : State) : exec (.referenceLoss) s = execReferenceLoss s := rfl
@[simp] theorem exec_clkCclkDivWrite (v : Word) (s : State) : exec (.clkCclkDivWrite v) s = execClkCclkDivWrite v s := rfl
@[simp] theorem exec_dividerChange (s : State) : exec (.dividerChange) s = execDividerChange s := rfl
@[simp] theorem exec_powerBrakeAssert (s : State) : exec (.powerBrakeAssert) s = execPowerBrakeAssert s := rfl
@[simp] theorem exec_powerBrakeRelease (s : State) : exec (.powerBrakeRelease) s = execPowerBrakeRelease s := rfl
@[simp] theorem exec_thermalThrottle (memory : Bool) (temp : Int) (s : State) : exec (.thermalThrottle memory temp) s = execThermalThrottle memory temp s := rfl
@[simp] theorem exec_thermalThrottleEnd (memory : Bool) (temp : Int) (s : State) : exec (.thermalThrottleEnd memory temp) s = execThermalThrottleEnd memory temp s := rfl
@[simp] theorem exec_thermtrip (temp : Int) (s : State) : exec (.thermtrip temp) s = execThermtrip temp s := rfl
@[simp] theorem exec_ledgerIntervalEnd (rs : List DieReading) (s : State) : exec (.ledgerIntervalEnd rs) s = execLedgerIntervalEnd rs s := rfl
@[simp] theorem exec_budgetReport (s : State) : exec (.budgetReport) s = execBudgetReport s := rfl
@[simp] theorem exec_budgetGrant (die : Fin 10) (s : State) : exec (.budgetGrant die) s = execBudgetGrant die s := rfl
@[simp] theorem exec_grantMissFallback (die : Fin 10) (s : State) : exec (.grantMissFallback die) s = execGrantMissFallback die s := rfl
@[simp] theorem exec_reportMiss (die : Fin 10) (s : State) : exec (.reportMiss die) s = execReportMiss die s := rfl
@[simp] theorem exec_avsStepDone (rail : Fin 10) (readMv : Nat) (s : State) : exec (.avsStepDone rail readMv) s = execAvsStepDone rail readMv s := rfl
@[simp] theorem exec_avsStepTimeout (rail : Fin 10) (s : State) : exec (.avsStepTimeout rail) s = execAvsStepTimeout rail s := rfl
@[simp] theorem exec_pmbusPoll (rail : Nat) (faultBit : Bool) (tel : Telemetry) (answered : Bool) (s : State) : exec (.pmbusPoll rail faultBit tel answered) s = execPmbusPoll rail faultBit tel answered s := rfl
@[simp] theorem exec_clockGate (dom : Fin 44) (s : State) : exec (.clockGate dom) s = execClockGate dom s := rfl
@[simp] theorem exec_domainClose (dom : Fin 13) (s : State) : exec (.domainClose dom) s = execDomainClose dom s := rfl
@[simp] theorem exec_domainOff (dom : Fin 13) (s : State) : exec (.domainOff dom) s = execDomainOff dom s := rfl
@[simp] theorem exec_closeTimeout (dom : Fin 13) (s : State) : exec (.closeTimeout dom) s = execCloseTimeout dom s := rfl
@[simp] theorem exec_domainOpen (dom : Fin 13) (s : State) : exec (.domainOpen dom) s = execDomainOpen dom s := rfl
@[simp] theorem exec_dozeRequest (ch : Channel) (s : State) : exec (.dozeRequest ch) s = execDozeRequest ch s := rfl
@[simp] theorem exec_wakeNLow (s : State) : exec (.wakeNLow) s = execWakeNLow s := rfl
@[simp] theorem exec_wakeRequest (ch : Channel) (s : State) : exec (.wakeRequest ch) s = execWakeRequest ch s := rfl
@[simp] theorem exec_dozeTimerExpiry (s : State) : exec (.dozeTimerExpiry) s = execDozeTimerExpiry s := rfl
@[simp] theorem exec_powerOn (s : State) : exec (.powerOn) s = execPowerOn s := rfl
@[simp] theorem exec_supplyFault (rail : Nat) (s : State) : exec (.supplyFault rail) s = execSupplyFault rail s := rfl
@[simp] theorem exec_resetNAssert (s : State) : exec (.resetNAssert) s = execResetNAssert s := rfl
@[simp] theorem exec_resetNRelease (s : State) : exec (.resetNRelease) s = execResetNRelease s := rfl
@[simp] theorem exec_perstNAssert (s : State) : exec (.perstNAssert) s = execPerstNAssert s := rfl
@[simp] theorem exec_perstNRelease (s : State) : exec (.perstNRelease) s = execPerstNRelease s := rfl
@[simp] theorem exec_pcieLinkDown (s : State) : exec (.pcieLinkDown) s = execPcieLinkDown s := rfl
@[simp] theorem exec_resetRequestWarm (ch : Channel) (seq : Half) (s : State) : exec (.resetRequestWarm ch seq) s = execResetRequestWarm ch seq s := rfl
@[simp] theorem exec_resetRequestCold (ch : Channel) (seq : Half) (s : State) : exec (.resetRequestCold ch seq) s = execResetRequestCold ch seq s := rfl
@[simp] theorem exec_pwrResetReqWarm (s : State) : exec (.pwrResetReqWarm) s = execPwrResetReqWarm s := rfl
@[simp] theorem exec_pwrResetReqCold (s : State) : exec (.pwrResetReqCold) s = execPwrResetReqCold s := rfl
@[simp] theorem exec_pwrResetReqRecovery (reason : Nat) (s : State) : exec (.pwrResetReqRecovery reason) s = execPwrResetReqRecovery reason s := rfl
@[simp] theorem exec_jtagReset (s : State) : exec (.jtagReset) s = execJtagReset s := rfl
@[simp] theorem exec_blockReset (block : Nat) (s : State) : exec (.blockReset block) s = execBlockReset block s := rfl
@[simp] theorem exec_boardRecordWrite (ch : Channel) (data : List Byte) (readBackOk : Bool) (s : State) : exec (.boardRecordWrite ch data readBackOk) s = execBoardRecordWrite ch data readBackOk s := rfl
@[simp] theorem exec_load (f : Func) (seq : Half) (s : State) : exec (.load f seq) s = execLoad f seq s := rfl
@[simp] theorem exec_loadImageRead (r : ReadEnd) (facts : ImageFacts) (s : State) : exec (.loadImageRead r facts) s = execLoadImageRead r facts s := rfl
@[simp] theorem exec_fwWatchdogExpiry (core : Fin 14) (s : State) : exec (.fwWatchdogExpiry core) s = execFwWatchdogExpiry core s := rfl
@[simp] theorem exec_watchdogKick (core : Fin 5) (v : Word) (s : State) : exec (.watchdogKick core v) s = execWatchdogKick core v s := rfl
@[simp] theorem exec_componentFault (comp : Nat) (ownReport : Bool) (crcOk : Bool) (s : State) : exec (.componentFault comp ownReport crcOk) s = execComponentFault comp ownReport crcOk s := rfl
@[simp] theorem exec_open (f : Func) (seq : Half) (s : State) : exec (.open_ f seq) s = execOpen f seq s := rfl
@[simp] theorem exec_tallyAdd (f : Func) (seq : Half) (s : State) : exec (.tallyAdd f seq) s = execTallyAdd f seq s := rfl
@[simp] theorem exec_object (f : Func) (seq : Half) (s : State) : exec (.object f seq) s = execObject f seq s := rfl
@[simp] theorem exec_updateStage (f : Func) (seq : Half) (s : State) : exec (.updateStage f seq) s = execUpdateStage f seq s := rfl
@[simp] theorem exec_updateCommit (f : Func) (seq : Half) (s : State) : exec (.updateCommit f seq) s = execUpdateCommit f seq s := rfl
@[simp] theorem exec_componentHandover (s : State) : exec (.componentHandover) s = execComponentHandover s := rfl
@[simp] theorem exec_updateCancel (f : Func) (seq : Half) (s : State) : exec (.updateCancel f seq) s = execUpdateCancel f seq s := rfl
@[simp] theorem exec_telemetrySample (inTime : Bool) (s : State) : exec (.telemetrySample inTime) s = execTelemetrySample inTime s := rfl
@[simp] theorem exec_coreBusyWindow (busy : List Nat) (s : State) : exec (.coreBusyWindow busy) s = execCoreBusyWindow busy s := rfl
@[simp] theorem exec_openSession (ch : Channel) (m : KdpMsg) (s : State) : exec (.openSession ch m) s = execOpenSession ch m s := rfl
@[simp] theorem exec_closeSession (ch : Channel) (m : KdpMsg) (s : State) : exec (.closeSession ch m) s = execCloseSession ch m s := rfl
@[simp] theorem exec_kdpRead (ch : Channel) (m : KdpMsg) (s : State) : exec (.kdpRead ch m) s = execKdpRead ch m s := rfl
@[simp] theorem exec_kdpWrite (ch : Channel) (m : KdpMsg) (s : State) : exec (.kdpWrite ch m) s = execKdpWrite ch m s := rfl
@[simp] theorem exec_writeIf (ch : Channel) (m : KdpMsg) (s : State) : exec (.writeIf ch m) s = execWriteIf ch m s := rfl
@[simp] theorem exec_describe (ch : Channel) (m : KdpMsg) (s : State) : exec (.describe ch m) s = execDescribe ch m s := rfl
@[simp] theorem exec_keepalive (ch : Channel) (m : KdpMsg) (s : State) : exec (.keepalive ch m) s = execKeepalive ch m s := rfl
@[simp] theorem exec_sessionIdleTimeout (session : Quad) (s : State) : exec (.sessionIdleTimeout session) s = execSessionIdleTimeout session s := rfl
@[simp] theorem exec_snapshotLapse (ch : Channel) (session : Quad) (s : State) : exec (.snapshotLapse ch session) s = execSnapshotLapse ch session s := rfl
@[simp] theorem exec_stagingLapse (ch : Channel) (session : Quad) (s : State) : exec (.stagingLapse ch session) s = execStagingLapse ch session s := rfl
@[simp] theorem exec_dtlsHandshake (expertChain basicChain : Bool) (peer : Quad) (addr : Fin 3) (s : State) : exec (.dtlsHandshake expertChain basicChain peer addr) s = execDtlsHandshake expertChain basicChain peer addr s := rfl
@[simp] theorem exec_objectWrite (ch : Channel) (index sub : Nat) (data : List Byte) (s : State) : exec (.objectWrite ch index sub data) s = execObjectWrite ch index sub data s := rfl
@[simp] theorem exec_powerCapWrite (ch : Channel) (v : Quad) (s : State) : exec (.powerCapWrite ch v) s = execPowerCapWrite ch v s := rfl
@[simp] theorem exec_tpEnableWrite (ch : Channel) (port : Nat) (v : Byte) (s : State) : exec (.tpEnableWrite ch port v) s = execTpEnableWrite ch port v s := rfl
@[simp] theorem exec_spAddressWrite (ch : Channel) (q : Fin 8) (gateway : Bool) (v : Nat) (s : State) : exec (.spAddressWrite ch q gateway v) s = execSpAddressWrite ch q gateway v s := rfl
@[simp] theorem exec_logClear (ch : Channel) (v : Byte) (s : State) : exec (.logClear ch v) s = execLogClear ch v s := rfl
@[simp] theorem exec_foldRequest (ch : Channel) (v : Byte) (s : State) : exec (.foldRequest ch v) s = execFoldRequest ch v s := rfl
@[simp] theorem exec_sessionClose (ch : Channel) (session : Quad) (s : State) : exec (.sessionClose ch session) s = execSessionClose ch session s := rfl
@[simp] theorem exec_anchorWrite (ch : Channel) (expert : Bool) (v : Nat) (s : State) : exec (.anchorWrite ch expert v) s = execAnchorWrite ch expert v s := rfl
@[simp] theorem exec_kdpEnableWrite (ch : Channel) (v : Byte) (s : State) : exec (.kdpEnableWrite ch v) s = execKdpEnableWrite ch v s := rfl
@[simp] theorem exec_fabricSecret (ch : Channel) (v : Nat) (s : State) : exec (.fabricSecret ch v) s = execFabricSecret ch v s := rfl
@[simp] theorem exec_keySlotClear (ch : Channel) (slot : Byte) (s : State) : exec (.keySlotClear ch slot) s = execKeySlotClear ch slot s := rfl
@[simp] theorem exec_floorRaise (ch : Channel) (v : Byte) (s : State) : exec (.floorRaise ch v) s = execFloorRaise ch v s := rfl
@[simp] theorem exec_debugToken (ch : Channel) (m : DebugTokenMsg) (s : State) : exec (.debugToken ch m) s = execDebugToken ch m s := rfl
@[simp] theorem exec_seatBreakpoint (ch : Channel) (seat : Nat) (entry : Fin 4) (mask : Byte) (pc : Quad) (enable : Bool) (s : State) : exec (.seatBreakpoint ch seat entry mask pc enable) s = execSeatBreakpoint ch seat entry mask pc enable s := rfl
@[simp] theorem exec_breakpointHit (cd : Cd) (s : State) : exec (.breakpointHit cd) s = execBreakpointHit cd s := rfl
@[simp] theorem exec_setEndpointId (vdm : Bool) (eid : Byte) (s : State) : exec (.setEndpointId vdm eid) s = execSetEndpointId vdm eid s := rfl
@[simp] theorem exec_getEndpointId (vdm : Bool) (s : State) : exec (.getEndpointId vdm) s = execGetEndpointId vdm s := rfl
@[simp] theorem exec_getMctpVersionSupport (vdm : Bool) (msgType : Byte) (s : State) : exec (.getMctpVersionSupport vdm msgType) s = execGetMctpVersionSupport vdm msgType s := rfl
@[simp] theorem exec_getMessageTypeSupport (vdm : Bool) (s : State) : exec (.getMessageTypeSupport vdm) s = execGetMessageTypeSupport vdm s := rfl
@[simp] theorem exec_getVendorDefinedMessageSupport (vdm : Bool) (selector : Byte) (s : State) : exec (.getVendorDefinedMessageSupport vdm selector) s = execGetVendorDefinedMessageSupport vdm selector s := rfl
@[simp] theorem exec_getTid (vdm : Bool) (s : State) : exec (.getTid vdm) s = execGetTid vdm s := rfl
@[simp] theorem exec_setTid (vdm : Bool) (tid : Byte) (s : State) : exec (.setTid vdm tid) s = execSetTid vdm tid s := rfl
@[simp] theorem exec_getPldmTypes (vdm : Bool) (s : State) : exec (.getPldmTypes vdm) s = execGetPldmTypes vdm s := rfl
@[simp] theorem exec_getPldmCommands (vdm : Bool) (ptype : Byte) (s : State) : exec (.getPldmCommands vdm ptype) s = execGetPldmCommands vdm ptype s := rfl
@[simp] theorem exec_getPldmVersion (vdm : Bool) (ptype : Byte) (s : State) : exec (.getPldmVersion vdm ptype) s = execGetPldmVersion vdm ptype s := rfl
@[simp] theorem exec_getPdrRepositoryInfo (vdm : Bool) (s : State) : exec (.getPdrRepositoryInfo vdm) s = execGetPdrRepositoryInfo vdm s := rfl
@[simp] theorem exec_getPdr (vdm : Bool) (handle : Nat) (s : State) : exec (.getPdr vdm handle) s = execGetPdr vdm handle s := rfl
@[simp] theorem exec_getSensorReading (vdm : Bool) (sensor : Nat) (s : State) : exec (.getSensorReading vdm sensor) s = execGetSensorReading vdm sensor s := rfl
@[simp] theorem exec_getStateSensorReadings (vdm : Bool) (sensor : Nat) (s : State) : exec (.getStateSensorReadings vdm sensor) s = execGetStateSensorReadings vdm sensor s := rfl
@[simp] theorem exec_getMeasurements (vdm : Bool) (index : Byte) (s : State) : exec (.getMeasurements vdm index) s = execGetMeasurements vdm index s := rfl
@[simp] theorem exec_ppr (ch : Channel) (stack channel pseudo bank : Nat) (row : Quad) (s : State) : exec (.ppr ch stack channel pseudo bank row) s = execPpr ch stack channel pseudo bank row s := rfl
@[simp] theorem exec_repairStepEnd (good : Bool) (spareLeft : Bool) (s : State) : exec (.repairStepEnd good spareLeft) s = execRepairStepEnd good spareLeft s := rfl
@[simp] theorem exec_retrain (ch : Channel) (port : Nat) (s : State) : exec (.retrain ch port) s = execRetrain ch port s := rfl
@[simp] theorem exec_sweep (ch : Option Channel) (s : State) : exec (.sweep ch) s = execSweep ch s := rfl
@[simp] theorem exec_restoreByEpoch (ch : Channel) (seat : Nat) (epoch : Word) (s : State) : exec (.restoreByEpoch ch seat epoch) s = execRestoreByEpoch ch seat epoch s := rfl
@[simp] theorem exec_restoreByHeartbeat (ch : Channel) (seat : Nat) (heartbeat : Word) (s : State) : exec (.restoreByHeartbeat ch seat heartbeat) s = execRestoreByHeartbeat ch seat heartbeat s := rfl
@[simp] theorem exec_restoreQuery (ch : Channel) (seat : Nat) (s : State) : exec (.restoreQuery ch seat) s = execRestoreQuery ch seat s := rfl
@[simp] theorem exec_restoreComplete (seat : Nat) (s : State) : exec (.restoreComplete seat) s = execRestoreComplete seat s := rfl
@[simp] theorem exec_scrubFar (ch : Channel) (s : State) : exec (.scrubFar ch) s = execScrubFar ch s := rfl
@[simp] theorem exec_scrubNear (ch : Channel) (s : State) : exec (.scrubNear ch) s = execScrubNear ch s := rfl
@[simp] theorem exec_scrubSlab (ch : Channel) (s : State) : exec (.scrubSlab ch) s = execScrubSlab ch s := rfl
@[simp] theorem exec_shadowSet (ch : Channel) (seat : Nat) (all : Bool) (mask : Half) (s : State) : exec (.shadowSet ch seat all mask) s = execShadowSet ch seat all mask s := rfl
@[simp] theorem exec_dummyPool (ch : Channel) (mask : BitVec 48) (s : State) : exec (.dummyPool ch mask) s = execDummyPool ch mask s := rfl
@[simp] theorem exec_epochOpen (s : State) : exec (.epochOpen) s = execEpochOpen s := rfl
@[simp] theorem exec_dummyOpen (m : DummyMsg) (s : State) : exec (.dummyOpen m) s = execDummyOpen m s := rfl
@[simp] theorem exec_dummyClose (m : DummyMsg) (s : State) : exec (.dummyClose m) s = execDummyClose m s := rfl
@[simp] theorem exec_dummyNotice (m : DummyMsg) (s : State) : exec (.dummyNotice m) s = execDummyNotice m s := rfl
@[simp] theorem exec_dummyScrubEnd (base : Nat) (s : State) : exec (.dummyScrubEnd base) s = execDummyScrubEnd base s := rfl
@[simp] theorem exec_rekeyDue (port : Nat) (s : State) : exec (.rekeyDue port) s = execRekeyDue port s := rfl
@[simp] theorem exec_blockResetComplete (s : State) : exec (.blockResetComplete) s = execBlockResetComplete s := rfl
@[simp] theorem exec_railGood (rail : Nat) (s : State) : exec (.railGood rail) s = execRailGood rail s := rfl
@[simp] theorem exec_portTrainingComplete (port : Nat) (s : State) : exec (.portTrainingComplete port) s = execPortTrainingComplete port s := rfl
@[simp] theorem exec_fecAlignmentLoss (port : Nat) (s : State) : exec (.fecAlignmentLoss port) s = execFecAlignmentLoss port s := rfl
@[simp] theorem exec_pmbAlertNChange (low : Bool) (s : State) : exec (.pmbAlertNChange low) s = execPmbAlertNChange low s := rfl
@[simp] theorem exec_watchdogRestartTimeout (core : Fin 5) (s : State) : exec (.watchdogRestartTimeout core) s = execWatchdogRestartTimeout core s := rfl
@[simp] theorem exec_clockUngate (dom : Fin 44) (s : State) : exec (.clockUngate dom) s = execClockUngate dom s := rfl
@[simp] theorem exec_hostReadCompletion (tag : Nat) (data : List Byte) (ep : Bool) (s : State) : exec (.hostReadCompletion tag data ep) s = execHostReadCompletion tag data ep s := rfl
@[simp] theorem exec_vfEnable (numVfs : Nat) (s : State) : exec (.vfEnable numVfs) s = execVfEnable numVfs s := rfl
@[simp] theorem exec_updateStaged (r : ReadEnd) (facts : ImageFacts) (s : State) : exec (.updateStaged r facts) s = execUpdateStaged r facts s := rfl
@[simp] theorem exec_ptpMasterLoss (s : State) : exec (.ptpMasterLoss) s = execPtpMasterLoss s := rfl
@[simp] theorem exec_mgmtLinkChange (state : Fin 3) (s : State) : exec (.mgmtLinkChange state) s = execMgmtLinkChange state s := rfl
@[simp] theorem exec_keyExchange (vdm : Bool) (eid : Nat) (mutualAuth expertChain : Bool) (s : State) : exec (.keyExchange vdm eid mutualAuth expertChain) s = execKeyExchange vdm eid mutualAuth expertChain s := rfl
@[simp] theorem exec_resetDelayExpiry (s : State) : exec (.resetDelayExpiry) s = execResetDelayExpiry s := rfl
@[simp] theorem exec_msiXTableWrite (f : Func) (vector : Fin 32) (masked : Bool) (s : State) : exec (.msiXTableWrite f vector masked) s = execMsiXTableWrite f vector masked s := rfl

end Sys2Proof.Machine
end

