-- ==== Sys2Proof/Laws/Tbl.lean ====
section
/-! SUPPORT. Laws of the sparse tables: what a read gives after a write, and that every operation keeps the canonical form. -/

namespace Sys2Proof.Machine

variable {α : Type}

theorem Tbl.get_put_self (d : α) (k : Nat) (v : α) (t : Tbl α) : Tbl.get d (Tbl.put k v t) k = v := by
  induction t with
  | nil => simp [Tbl.put, Tbl.get]
  | cons e t ih =>
    obtain ⟨k', v'⟩ := e
    by_cases h : k < k'
    · simp [Tbl.put, Tbl.get, h]
    · by_cases h2 : k = k'
      · simp [Tbl.put, Tbl.get, h2]
      · have h3 : ¬ k' = k := fun e => h2 e.symm
        simp [Tbl.put, Tbl.get, h, h2, h3, ih]

theorem Tbl.get_put_ne (d : α) {k j : Nat} (v : α) (t : Tbl α) (hj : j ≠ k) : Tbl.get d (Tbl.put k v t) j = Tbl.get d t j := by
  have hk : ¬ k = j := fun e => hj e.symm
  induction t with
  | nil => simp [Tbl.put, Tbl.get, hk]
  | cons e t ih =>
    obtain ⟨k', v'⟩ := e
    by_cases h : k < k'
    · simp [Tbl.put, Tbl.get, h, hk]
    · by_cases h2 : k = k'
      · subst h2; simp [Tbl.put, Tbl.get, hk]
      · simp [Tbl.put, Tbl.get, h, h2, ih]

theorem Tbl.get_drop_self (d : α) (k : Nat) (t : Tbl α) : Tbl.get d (Tbl.drop k t) k = d := by
  induction t with
  | nil => rfl
  | cons e t ih =>
    obtain ⟨k', v'⟩ := e
    by_cases h : k' = k <;> simp [Tbl.drop, Tbl.get, h, ih]

theorem Tbl.get_drop_ne (d : α) {k j : Nat} (t : Tbl α) (hj : j ≠ k) : Tbl.get d (Tbl.drop k t) j = Tbl.get d t j := by
  induction t with
  | nil => rfl
  | cons e t ih =>
    obtain ⟨k', v'⟩ := e
    by_cases h : k' = k
    · have h2 : ¬ k' = j := fun e => hj (e.symm.trans h)
      simp [Tbl.drop, Tbl.get, h, ih]
      intro e; exact absurd e.symm hj
    · simp [Tbl.drop, Tbl.get, h, ih]

section
variable [DecidableEq α]

/-- A read of the key that was set gives the value. -/
@[simp] theorem Tbl.get_set_self (d : α) (t : Tbl α) (k : Nat) (v : α) : Tbl.get d (Tbl.set d t k v) k = v := by
  unfold Tbl.set
  split
  · next h => rw [Tbl.get_drop_self, h]
  · exact Tbl.get_put_self d k v t

/-- A write leaves every other key alone. -/
theorem Tbl.get_set_ne (d : α) (t : Tbl α) {k j : Nat} (v : α) (hj : j ≠ k) : Tbl.get d (Tbl.set d t k v) j = Tbl.get d t j := by
  unfold Tbl.set
  split
  · exact Tbl.get_drop_ne d t hj
  · exact Tbl.get_put_ne d v t hj

@[simp] theorem Tbl.get_modify_self (d : α) (t : Tbl α) (k : Nat) (f : α → α) :
    Tbl.get d (Tbl.modify d t k f) k = f (Tbl.get d t k) := Tbl.get_set_self d t k _

theorem Tbl.get_modify_ne (d : α) (t : Tbl α) {k j : Nat} (f : α → α) (hj : j ≠ k) :
    Tbl.get d (Tbl.modify d t k f) j = Tbl.get d t j := Tbl.get_set_ne d t _ hj

/-- Both cases of a read after a write. -/
theorem Tbl.get_set (d : α) (t : Tbl α) (k j : Nat) (v : α) :
    Tbl.get d (Tbl.set d t k v) j = if j = k then v else Tbl.get d t j := by
  split
  · next h => rw [h, Tbl.get_set_self]
  · next h => exact Tbl.get_set_ne d t v h

theorem Tbl.get_modify (d : α) (t : Tbl α) (k j : Nat) (f : α → α) :
    Tbl.get d (Tbl.modify d t k f) j = if j = k then f (Tbl.get d t k) else Tbl.get d t j := by
  unfold Tbl.modify; exact Tbl.get_set d t k j _

end

/-! ## The canonical form -/

theorem Tbl.above_trans {k j : Nat} {t : Tbl α} (h : Tbl.above j t = true) (hk : k ≤ j) : Tbl.above k t = true := by
  simp only [Tbl.above, List.all_eq_true, decide_eq_true_eq] at *
  intro e he
  exact Nat.lt_of_le_of_lt hk (h e he)

theorem Tbl.above_put {k j : Nat} (v : α) {t : Tbl α} (h : Tbl.above j t = true) (hk : j < k) : Tbl.above j (Tbl.put k v t) = true := by
  induction t with
  | nil => simp [Tbl.put, Tbl.above, hk]
  | cons e t ih =>
    obtain ⟨k', v'⟩ := e
    simp only [Tbl.above, List.all_cons, Bool.and_eq_true, decide_eq_true_eq] at h
    have h2 : Tbl.above j t = true := h.2
    unfold Tbl.put
    split
    · simp only [Tbl.above, List.all_cons, Bool.and_eq_true, decide_eq_true_eq]; exact ⟨hk, h.1, h.2⟩
    · split
      · simp only [Tbl.above, List.all_cons, Bool.and_eq_true, decide_eq_true_eq]; exact ⟨hk, h.2⟩
      · simp only [Tbl.above, List.all_cons, Bool.and_eq_true, decide_eq_true_eq]; exact ⟨h.1, ih h2⟩

theorem Tbl.above_drop {k j : Nat} {t : Tbl α} (h : Tbl.above j t = true) : Tbl.above j (Tbl.drop k t) = true := by
  induction t with
  | nil => rfl
  | cons e t ih =>
    obtain ⟨k', v'⟩ := e
    simp only [Tbl.above, List.all_cons, Bool.and_eq_true, decide_eq_true_eq] at h
    unfold Tbl.drop
    split
    · exact ih h.2
    · simp only [Tbl.above, List.all_cons, Bool.and_eq_true, decide_eq_true_eq]; exact ⟨h.1, ih h.2⟩

theorem Tbl.above_filter {j : Nat} {t : Tbl α} (p : Nat × α → Bool) (h : Tbl.above j t = true) :
    Tbl.above j (t.filter p) = true := by
  simp only [Tbl.above, List.all_eq_true] at *
  intro e he
  exact h e (List.mem_filter.mp he).1

section
variable [DecidableEq α]

theorem Tbl.wf_put (d : α) {k : Nat} {v : α} {t : Tbl α} (h : Tbl.wf d t = true) (hv : v ≠ d) : Tbl.wf d (Tbl.put k v t) = true := by
  induction t with
  | nil => simp [Tbl.put, Tbl.wf, Tbl.above, hv]
  | cons e t ih =>
    obtain ⟨k', v'⟩ := e
    simp only [Tbl.wf, Bool.and_eq_true, decide_eq_true_eq] at h
    unfold Tbl.put
    split
    · next hk =>
      simp only [Tbl.wf, Bool.and_eq_true, decide_eq_true_eq]
      refine ⟨⟨hv, ?_⟩, h⟩
      simp only [Tbl.above, List.all_cons, Bool.and_eq_true, decide_eq_true_eq]
      exact ⟨hk, Tbl.above_trans h.1.2 (Nat.le_of_lt hk)⟩
    · split
      · next hk => subst hk; simp only [Tbl.wf, Bool.and_eq_true, decide_eq_true_eq]; exact ⟨⟨hv, h.1.2⟩, h.2⟩
      · next h1 h2 =>
        simp only [Tbl.wf, Bool.and_eq_true, decide_eq_true_eq]
        exact ⟨⟨h.1.1, Tbl.above_put v h.1.2 (by omega)⟩, ih h.2⟩

theorem Tbl.wf_drop (d : α) {k : Nat} {t : Tbl α} (h : Tbl.wf d t = true) : Tbl.wf d (Tbl.drop k t) = true := by
  induction t with
  | nil => rfl
  | cons e t ih =>
    obtain ⟨k', v'⟩ := e
    simp only [Tbl.wf, Bool.and_eq_true, decide_eq_true_eq] at h
    unfold Tbl.drop
    split
    · exact ih h.2
    · simp only [Tbl.wf, Bool.and_eq_true, decide_eq_true_eq]
      exact ⟨⟨h.1.1, Tbl.above_drop h.1.2⟩, ih h.2⟩

/-- A write keeps the canonical form. -/
theorem Tbl.wf_set (d : α) {t : Tbl α} (k : Nat) (v : α) (h : Tbl.wf d t = true) : Tbl.wf d (Tbl.set d t k v) = true := by
  unfold Tbl.set
  split
  · exact Tbl.wf_drop d h
  · next hv => exact Tbl.wf_put d h hv

theorem Tbl.wf_modify (d : α) {t : Tbl α} (k : Nat) (f : α → α) (h : Tbl.wf d t = true) : Tbl.wf d (Tbl.modify d t k f) = true :=
  Tbl.wf_set d k _ h

/-- Dropping entries keeps the canonical form. -/
theorem Tbl.wf_filter (d : α) {t : Tbl α} (p : Nat × α → Bool) (h : Tbl.wf d t = true) : Tbl.wf d (t.filter p) = true := by
  induction t with
  | nil => rfl
  | cons e t ih =>
    obtain ⟨k', v'⟩ := e
    simp only [Tbl.wf, Bool.and_eq_true, decide_eq_true_eq] at h
    simp only [List.filter_cons]
    split
    · simp only [Tbl.wf, Bool.and_eq_true, decide_eq_true_eq]
      exact ⟨⟨h.1.1, Tbl.above_filter p h.1.2⟩, ih h.2⟩
    · exact ih h.2

theorem Tbl.above_mapAll (d : α) (f : Nat → α → α) {j : Nat} {t : Tbl α} (h : Tbl.above j t = true) :
    Tbl.above j (Tbl.mapAll d f t) = true := by
  induction t with
  | nil => rfl
  | cons e t ih =>
    obtain ⟨k, v⟩ := e
    simp only [Tbl.above, List.all_cons, Bool.and_eq_true, decide_eq_true_eq] at h
    unfold Tbl.mapAll
    split
    · exact Tbl.above_drop (ih h.2)
    · simp only [Tbl.above, List.all_cons, Bool.and_eq_true, decide_eq_true_eq]; exact ⟨h.1, ih h.2⟩

/-- Changing every entry keeps the canonical form. -/
theorem Tbl.wf_mapAll (d : α) (f : Nat → α → α) {t : Tbl α} (h : Tbl.wf d t = true) : Tbl.wf d (Tbl.mapAll d f t) = true := by
  induction t with
  | nil => rfl
  | cons e t ih =>
    obtain ⟨k, v⟩ := e
    simp only [Tbl.wf, Bool.and_eq_true, decide_eq_true_eq] at h
    unfold Tbl.mapAll
    split
    · exact Tbl.wf_drop d (ih h.2)
    · next hv =>
      simp only [Tbl.wf, Bool.and_eq_true, decide_eq_true_eq]
      exact ⟨⟨hv, Tbl.above_mapAll d f h.1.2⟩, ih h.2⟩

/-- A read after a change of every entry, for a change that keeps the default. -/
theorem Tbl.get_mapAll (d : α) (f : Nat → α → α) (t : Tbl α) (k : Nat) (hd : f k d = d) :
    Tbl.get d (Tbl.mapAll d f t) k = f k (Tbl.get d t k) := by
  induction t with
  | nil => simp [Tbl.mapAll, Tbl.get, hd]
  | cons e t ih =>
    obtain ⟨j, v⟩ := e
    by_cases hj : j = k
    · subst hj
      by_cases hv : f j v = d
      · simp [Tbl.mapAll, Tbl.get, hv, Tbl.get_drop_self]
      · simp [Tbl.mapAll, Tbl.get, hv]
    · by_cases hv : f j v = d
      · simp [Tbl.mapAll, Tbl.get, hv, hj, Tbl.get_drop_ne d _ (fun e => hj e.symm), ih]
      · simp [Tbl.mapAll, Tbl.get, hv, hj, ih]

end

end Sys2Proof.Machine
end

