-- ==== Sys2Proof/Laws/Memory.lean ====
section
/-! SUPPORT. Laws of the memories: every operation keeps the byte list in its canonical form, and what a read gives after a
write of one cell. -/

namespace Sys2Proof.Machine

/-! ## The canonical form -/

theorem memory_reset_wf : State.reset.memory.wf := by decide

/-- Folding steps that each keep the form keeps it. -/
theorem Memory.wf_foldl {β : Type} (f : Memory → β → Memory) (hf : ∀ m b, m.wf → (f m b).wf) (l : List β) (m : Memory) (h : m.wf) :
    (l.foldl f m).wf := by
  induction l generalizing m with
  | nil => exact h
  | cons b l ih => exact ih _ (hf m b h)

theorem Memory.put1_wf (m : Memory) (c : Nat) (b : Byte) (h : m.wf) : (m.put1 c b).wf := Tbl.wf_set 0 c b h

theorem Memory.openRow_wf (m : Memory) (a : Nat) (h : m.wf) : (m.openRow a).wf := by
  unfold Memory.openRow
  split
  · exact h
  · exact Tbl.wf_filter 0 _ h

theorem Memory.rekey_wf (m : Memory) (key sec lo hi : Nat) (h : m.wf) : (m.rekey key sec lo hi).wf := by
  unfold Memory.rekey
  dsimp only
  split
  · exact h
  · refine Memory.wf_foldl (fun (m' : Memory) i =>
      if lo ≤ sec * 64 + i && sec * 64 + i < hi then m' else
        m'.put1 (cellOf m.bandMode (sec * 64) + i) (m.read1 key (sec * 64 + i)).1) (fun m' i h' => ?_) (List.range 64) m h
    split
    · exact h'
    · exact Memory.put1_wf m' _ _ h'

theorem Memory.putAll_wf (m : Memory) (a : Nat) (bs : List PByte) (h : m.wf) : (m.putAll a bs).wf := by
  induction bs generalizing m a with
  | nil => exact h
  | cons b t ih => exact ih _ _ (Memory.put1_wf m _ _ h)

theorem Memory.markSector_wf (m : Memory) (a : Nat) (bs : List PByte) (sec : Nat) (h : m.wf) : (m.markSector a bs sec).wf := h
theorem Memory.stampPages_wf (m : Memory) (a len : Nat) (h : m.wf) : (m.stampPages a len).wf := h
theorem Memory.clearWritten_wf (m : Memory) (h : m.wf) : m.clearWritten.wf := h
theorem Memory.zeroRange_wf (m : Memory) (key a len : Nat) (h : m.wf) : (m.zeroRange key a len).wf := Tbl.wf_filter 0 _ h

/-- A write keeps the canonical form. -/
theorem Memory.write_wf (m : Memory) (key a : Nat) (bs : List PByte) (h : m.wf) : (m.write key a bs).wf := by
  unfold Memory.write
  dsimp only
  split
  · exact h
  · have h1 : (if isSlab a then (rows a bs.length).foldl (fun m r => m.openRow (r * 512)) m else m).wf := by
      split
      · exact Memory.wf_foldl _ (fun m r h => Memory.openRow_wf m _ h) _ m h
      · exact h
    generalize (if isSlab a then (rows a bs.length).foldl (fun m r => m.openRow (r * 512)) m else m) = m1 at h1 ⊢
    have h2 : (if a < farEnd then (sectors a bs.length).foldl (fun m x => m.rekey key x a (a + bs.length)) m1 else m1).wf := by
      split
      · exact Memory.wf_foldl _ (fun m x h => Memory.rekey_wf m _ _ _ _ h) _ m1 h1
      · exact h1
    generalize (if a < farEnd then (sectors a bs.length).foldl (fun m x => m.rekey key x a (a + bs.length)) m1 else m1) = m2 at h2 ⊢
    have h3 := Memory.wf_foldl (fun (m : Memory) x => m.markSector a bs x) (fun m x h => Memory.markSector_wf m a bs x h)
      (sectors a bs.length) _ (Memory.putAll_wf m2 a bs h2)
    split
    · exact h3
    · exact h3

theorem State.writeSlot_wf (s : State) (slot a : Nat) (bs : List PByte) (h : s.memory.wf) : (s.writeSlot slot a bs).memory.wf :=
  Memory.write_wf _ _ _ _ h

/-! ## One cell -/

@[simp] theorem Memory.cell_put1_self (m : Memory) (c : Nat) (b : Byte) : (m.put1 c b).cell c = b := Tbl.get_set_self 0 m.mem c b

/-- A store of one cell leaves every other cell alone. -/
theorem Memory.cell_put1_ne (m : Memory) {c d : Nat} (b : Byte) (h : d ≠ c) : (m.put1 c b).cell d = m.cell d :=
  Tbl.get_set_ne 0 m.mem b h

@[simp] theorem Memory.put1_bandMode (m : Memory) (c : Nat) (b : Byte) : (m.put1 c b).bandMode = m.bandMode := rfl
@[simp] theorem Memory.put1_written (m : Memory) (c : Nat) (b : Byte) : (m.put1 c b).written = m.written := rfl
@[simp] theorem Memory.put1_poison (m : Memory) (c : Nat) (b : Byte) : (m.put1 c b).poison = m.poison := rfl
@[simp] theorem Memory.put1_sectorKey (m : Memory) (c : Nat) (b : Byte) : (m.put1 c b).sectorKey = m.sectorKey := rfl

@[simp] theorem Memory.putAll_bandMode (m : Memory) (a : Nat) (bs : List PByte) : (m.putAll a bs).bandMode = m.bandMode := by
  induction bs generalizing m a with
  | nil => rfl
  | cons b t ih => exact ih _ _

@[simp] theorem Memory.putAll_written (m : Memory) (a : Nat) (bs : List PByte) : (m.putAll a bs).written = m.written := by
  induction bs generalizing m a with
  | nil => rfl
  | cons b t ih => exact ih _ _

@[simp] theorem Memory.putAll_sectorKey (m : Memory) (a : Nat) (bs : List PByte) : (m.putAll a bs).sectorKey = m.sectorKey := by
  induction bs generalizing m a with
  | nil => rfl
  | cons b t ih => exact ih _ _

/-- An access that does not lie in one memory writes nothing (08, R244). -/
theorem Memory.write_outside (m : Memory) (key a : Nat) (bs : List PByte) (h : inOneMem a bs.length = false) : m.write key a bs = m := by
  unfold Memory.write; simp [h]

/-- A write of no bytes changes nothing. -/
@[simp] theorem Memory.write_nil (m : Memory) (key a : Nat) : m.write key a [] = m := by
  unfold Memory.write; simp

@[simp] theorem Memory.read_length (m : Memory) (key a n : Nat) : (m.read key a n).length = n := by
  induction n generalizing a with
  | zero => rfl
  | succ n ih => simp [Memory.read, ih]

/-! ## Only the memory changes -/

@[simp] theorem State.writeSlot_seats (s : State) (slot a : Nat) (bs : List PByte) : (s.writeSlot slot a bs).seats = s.seats := rfl
@[simp] theorem State.writeSlot_pending (s : State) (slot a : Nat) (bs : List PByte) : (s.writeSlot slot a bs).pending = s.pending := rfl
@[simp] theorem State.writeSlot_out (s : State) (slot a : Nat) (bs : List PByte) : (s.writeSlot slot a bs).out = s.out := rfl
@[simp] theorem State.writeSlot_sync (s : State) (slot a : Nat) (bs : List PByte) : (s.writeSlot slot a bs).sync = s.sync := rfl
@[simp] theorem State.writeSlot_objs (s : State) (slot a : Nat) (bs : List PByte) : (s.writeSlot slot a bs).objs = s.objs := rfl
@[simp] theorem State.writeSlot_host (s : State) (slot a : Nat) (bs : List PByte) : (s.writeSlot slot a bs).host = s.host := rfl

end Sys2Proof.Machine
end

