-- ==== Sys2Proof/Laws/State.lean ====
section
/-! SUPPORT. The small lemmas of the shared operations on the state: what each gives, and the fields that each leaves alone. -/

namespace Sys2Proof.Machine

/-! ## Reads after writes -/

@[simp] theorem State.fn_modFn_self (s : State) (f : Nat) (g : FnPage → FnPage) : (s.modFn f g).fn f = g (s.fn f) := by
  simp [State.fn, State.modFn]
theorem State.fn_modFn (s : State) (f k : Nat) (g : FnPage → FnPage) :
    (s.modFn f g).fn k = if k = f then g (s.fn f) else s.fn k := by
  simp [State.fn, State.modFn, Tbl.get_modify]
@[simp] theorem State.seat_modSeat_self (s : State) (n : Nat) (g : SeatInfo → SeatInfo) : (s.modSeat n g).seat n = g (s.seat n) := by
  simp [State.seat, State.modSeat]
theorem State.seat_modSeat (s : State) (n k : Nat) (g : SeatInfo → SeatInfo) :
    (s.modSeat n g).seat k = if k = n then g (s.seat n) else s.seat k := by
  simp [State.seat, State.modSeat, Tbl.get_modify]
@[simp] theorem State.seq_modSeq_self (s : State) (c : Nat) (g : Seq → Seq) : (s.modSeq c g).seq c = g (s.seq c) := by
  simp [State.seq, State.modSeq]
theorem State.seq_modSeq (s : State) (c k : Nat) (g : Seq → Seq) :
    (s.modSeq c g).seq k = if k = c then g (s.seq c) else s.seq k := by
  simp [State.seq, State.modSeq, Tbl.get_modify]
@[simp] theorem State.obj_setObj_self (s : State) (k v d : Nat) : (s.setObj k v).obj k d = v := by
  simp [State.obj, State.setObj]
theorem State.obj_setObj (s : State) (k j v d : Nat) : (s.setObj k v).obj j d = if j = k then v else s.obj j d := by
  unfold State.obj State.setObj; rw [Tbl.get_set]; split <;> rfl
/-- A counter rises by `n` and stays at its largest value (17, R485). -/
theorem State.obj_bump (s : State) (k w n j d : Nat) :
    (s.bump k w n).obj j d = if j = k then min (s.obj k 0 + n) (maxOf w) else s.obj j d := by
  unfold State.bump; exact State.obj_setObj s k j _ d
@[simp] theorem State.out_emit (s : State) (x : Output) : (s.emit x).out = x :: s.out := rfl

/-! ## Frames: one lemma per operation, one equation per field that it leaves alone -/

@[simp] theorem State.modFn_frame (s : State) (f : Nat) (g : FnPage → FnPage) :
    (s.modFn f g).pending = s.pending ∧ (s.modFn f g).dev = s.dev ∧ (s.modFn f g).seats = s.seats ∧
    (s.modFn f g).stamp = s.stamp ∧ (s.modFn f g).chosen = s.chosen ∧ (s.modFn f g).play = s.play ∧
    (s.modFn f g).phaseNext = s.phaseNext ∧ (s.modFn f g).seqs = s.seqs ∧ (s.modFn f g).ops = s.ops ∧
    (s.modFn f g).nextOp = s.nextOp ∧ (s.modFn f g).sync = s.sync ∧ (s.modFn f g).memory = s.memory ∧
    (s.modFn f g).time = s.time ∧ (s.modFn f g).rel = s.rel ∧ (s.modFn f g).fw = s.fw ∧
    (s.modFn f g).objs = s.objs ∧ (s.modFn f g).clk = s.clk ∧ (s.modFn f g).arr = s.arr ∧
    (s.modFn f g).links = s.links ∧ (s.modFn f g).power = s.power ∧ (s.modFn f g).boot = s.boot ∧
    (s.modFn f g).mgmt = s.mgmt ∧ (s.modFn f g).kdp = s.kdp ∧ (s.modFn f g).sec = s.sec ∧
    (s.modFn f g).maint = s.maint ∧ (s.modFn f g).fab = s.fab ∧ (s.modFn f g).table = s.table ∧
    (s.modFn f g).groups = s.groups ∧ (s.modFn f g).unitMap = s.unitMap ∧ (s.modFn f g).deckBuf = s.deckBuf ∧
    (s.modFn f g).deckFacts = s.deckFacts ∧ (s.modFn f g).keyBind = s.keyBind ∧ (s.modFn f g).keyGen = s.keyGen ∧
    (s.modFn f g).freeCtr = s.freeCtr ∧ (s.modFn f g).out = s.out := by
  and_intros <;> rfl

@[simp] theorem State.modSeat_frame (s : State) (n : Nat) (g : SeatInfo → SeatInfo) :
    (s.modSeat n g).pending = s.pending ∧ (s.modSeat n g).dev = s.dev ∧ (s.modSeat n g).host = s.host ∧
    (s.modSeat n g).stamp = s.stamp ∧ (s.modSeat n g).chosen = s.chosen ∧ (s.modSeat n g).play = s.play ∧
    (s.modSeat n g).phaseNext = s.phaseNext ∧ (s.modSeat n g).seqs = s.seqs ∧ (s.modSeat n g).ops = s.ops ∧
    (s.modSeat n g).nextOp = s.nextOp ∧ (s.modSeat n g).sync = s.sync ∧ (s.modSeat n g).memory = s.memory ∧
    (s.modSeat n g).time = s.time ∧ (s.modSeat n g).rel = s.rel ∧ (s.modSeat n g).fw = s.fw ∧
    (s.modSeat n g).objs = s.objs ∧ (s.modSeat n g).clk = s.clk ∧ (s.modSeat n g).arr = s.arr ∧
    (s.modSeat n g).links = s.links ∧ (s.modSeat n g).power = s.power ∧ (s.modSeat n g).boot = s.boot ∧
    (s.modSeat n g).mgmt = s.mgmt ∧ (s.modSeat n g).kdp = s.kdp ∧ (s.modSeat n g).sec = s.sec ∧
    (s.modSeat n g).maint = s.maint ∧ (s.modSeat n g).fab = s.fab ∧ (s.modSeat n g).table = s.table ∧
    (s.modSeat n g).groups = s.groups ∧ (s.modSeat n g).unitMap = s.unitMap ∧ (s.modSeat n g).deckBuf = s.deckBuf ∧
    (s.modSeat n g).deckFacts = s.deckFacts ∧ (s.modSeat n g).keyBind = s.keyBind ∧
    (s.modSeat n g).keyGen = s.keyGen ∧ (s.modSeat n g).freeCtr = s.freeCtr ∧ (s.modSeat n g).out = s.out := by
  and_intros <;> rfl

@[simp] theorem State.modSeq_frame (s : State) (c : Nat) (g : Seq → Seq) :
    (s.modSeq c g).pending = s.pending ∧ (s.modSeq c g).dev = s.dev ∧ (s.modSeq c g).host = s.host ∧
    (s.modSeq c g).seats = s.seats ∧ (s.modSeq c g).stamp = s.stamp ∧ (s.modSeq c g).chosen = s.chosen ∧
    (s.modSeq c g).play = s.play ∧ (s.modSeq c g).phaseNext = s.phaseNext ∧ (s.modSeq c g).ops = s.ops ∧
    (s.modSeq c g).nextOp = s.nextOp ∧ (s.modSeq c g).sync = s.sync ∧ (s.modSeq c g).memory = s.memory ∧
    (s.modSeq c g).time = s.time ∧ (s.modSeq c g).rel = s.rel ∧ (s.modSeq c g).fw = s.fw ∧
    (s.modSeq c g).objs = s.objs ∧ (s.modSeq c g).clk = s.clk ∧ (s.modSeq c g).arr = s.arr ∧
    (s.modSeq c g).links = s.links ∧ (s.modSeq c g).power = s.power ∧ (s.modSeq c g).boot = s.boot ∧
    (s.modSeq c g).mgmt = s.mgmt ∧ (s.modSeq c g).kdp = s.kdp ∧ (s.modSeq c g).sec = s.sec ∧
    (s.modSeq c g).maint = s.maint ∧ (s.modSeq c g).fab = s.fab ∧ (s.modSeq c g).table = s.table ∧
    (s.modSeq c g).groups = s.groups ∧ (s.modSeq c g).unitMap = s.unitMap ∧ (s.modSeq c g).deckBuf = s.deckBuf ∧
    (s.modSeq c g).deckFacts = s.deckFacts ∧ (s.modSeq c g).keyBind = s.keyBind ∧
    (s.modSeq c g).keyGen = s.keyGen ∧ (s.modSeq c g).freeCtr = s.freeCtr ∧ (s.modSeq c g).out = s.out := by
  and_intros <;> rfl

@[simp] theorem State.emit_frame (s : State) (x : Output) :
    (s.emit x).pending = s.pending ∧ (s.emit x).dev = s.dev ∧ (s.emit x).host = s.host ∧
    (s.emit x).seats = s.seats ∧ (s.emit x).stamp = s.stamp ∧ (s.emit x).chosen = s.chosen ∧
    (s.emit x).play = s.play ∧ (s.emit x).phaseNext = s.phaseNext ∧ (s.emit x).seqs = s.seqs ∧
    (s.emit x).ops = s.ops ∧ (s.emit x).nextOp = s.nextOp ∧ (s.emit x).sync = s.sync ∧
    (s.emit x).memory = s.memory ∧ (s.emit x).time = s.time ∧ (s.emit x).rel = s.rel ∧ (s.emit x).fw = s.fw ∧
    (s.emit x).objs = s.objs ∧ (s.emit x).clk = s.clk ∧ (s.emit x).arr = s.arr ∧ (s.emit x).links = s.links ∧
    (s.emit x).power = s.power ∧ (s.emit x).boot = s.boot ∧ (s.emit x).mgmt = s.mgmt ∧ (s.emit x).kdp = s.kdp ∧
    (s.emit x).sec = s.sec ∧ (s.emit x).maint = s.maint ∧ (s.emit x).fab = s.fab ∧ (s.emit x).table = s.table ∧
    (s.emit x).groups = s.groups ∧ (s.emit x).unitMap = s.unitMap ∧ (s.emit x).deckBuf = s.deckBuf ∧
    (s.emit x).deckFacts = s.deckFacts ∧ (s.emit x).keyBind = s.keyBind ∧ (s.emit x).keyGen = s.keyGen ∧
    (s.emit x).freeCtr = s.freeCtr := by
  and_intros <;> rfl

@[simp] theorem State.setObj_frame (s : State) (k v : Nat) :
    (s.setObj k v).pending = s.pending ∧ (s.setObj k v).dev = s.dev ∧ (s.setObj k v).host = s.host ∧
    (s.setObj k v).seats = s.seats ∧ (s.setObj k v).stamp = s.stamp ∧ (s.setObj k v).chosen = s.chosen ∧
    (s.setObj k v).play = s.play ∧ (s.setObj k v).phaseNext = s.phaseNext ∧ (s.setObj k v).seqs = s.seqs ∧
    (s.setObj k v).ops = s.ops ∧ (s.setObj k v).nextOp = s.nextOp ∧ (s.setObj k v).sync = s.sync ∧
    (s.setObj k v).memory = s.memory ∧ (s.setObj k v).time = s.time ∧ (s.setObj k v).rel = s.rel ∧
    (s.setObj k v).fw = s.fw ∧ (s.setObj k v).clk = s.clk ∧ (s.setObj k v).arr = s.arr ∧
    (s.setObj k v).links = s.links ∧ (s.setObj k v).power = s.power ∧ (s.setObj k v).boot = s.boot ∧
    (s.setObj k v).mgmt = s.mgmt ∧ (s.setObj k v).kdp = s.kdp ∧ (s.setObj k v).sec = s.sec ∧
    (s.setObj k v).maint = s.maint ∧ (s.setObj k v).fab = s.fab ∧ (s.setObj k v).table = s.table ∧
    (s.setObj k v).groups = s.groups ∧ (s.setObj k v).unitMap = s.unitMap ∧ (s.setObj k v).deckBuf = s.deckBuf ∧
    (s.setObj k v).deckFacts = s.deckFacts ∧ (s.setObj k v).keyBind = s.keyBind ∧
    (s.setObj k v).keyGen = s.keyGen ∧ (s.setObj k v).freeCtr = s.freeCtr ∧ (s.setObj k v).out = s.out := by
  and_intros <;> rfl

@[simp] theorem State.bump_frame (s : State) (k w n : Nat) :
    (s.bump k w n).pending = s.pending ∧ (s.bump k w n).dev = s.dev ∧ (s.bump k w n).host = s.host ∧
    (s.bump k w n).seats = s.seats ∧ (s.bump k w n).stamp = s.stamp ∧ (s.bump k w n).chosen = s.chosen ∧
    (s.bump k w n).play = s.play ∧ (s.bump k w n).phaseNext = s.phaseNext ∧ (s.bump k w n).seqs = s.seqs ∧
    (s.bump k w n).ops = s.ops ∧ (s.bump k w n).nextOp = s.nextOp ∧ (s.bump k w n).sync = s.sync ∧
    (s.bump k w n).memory = s.memory ∧ (s.bump k w n).time = s.time ∧ (s.bump k w n).rel = s.rel ∧
    (s.bump k w n).fw = s.fw ∧ (s.bump k w n).clk = s.clk ∧ (s.bump k w n).arr = s.arr ∧
    (s.bump k w n).links = s.links ∧ (s.bump k w n).power = s.power ∧ (s.bump k w n).boot = s.boot ∧
    (s.bump k w n).mgmt = s.mgmt ∧ (s.bump k w n).kdp = s.kdp ∧ (s.bump k w n).sec = s.sec ∧
    (s.bump k w n).maint = s.maint ∧ (s.bump k w n).fab = s.fab ∧ (s.bump k w n).table = s.table ∧
    (s.bump k w n).groups = s.groups ∧ (s.bump k w n).unitMap = s.unitMap ∧ (s.bump k w n).deckBuf = s.deckBuf ∧
    (s.bump k w n).deckFacts = s.deckFacts ∧ (s.bump k w n).keyBind = s.keyBind ∧
    (s.bump k w n).keyGen = s.keyGen ∧ (s.bump k w n).freeCtr = s.freeCtr ∧ (s.bump k w n).out = s.out := by
  and_intros <;> rfl

@[simp] theorem State.writeSlot_frame (s : State) (k a : Nat) (bs : List PByte) :
    (s.writeSlot k a bs).pending = s.pending ∧ (s.writeSlot k a bs).dev = s.dev ∧
    (s.writeSlot k a bs).host = s.host ∧ (s.writeSlot k a bs).seats = s.seats ∧
    (s.writeSlot k a bs).stamp = s.stamp ∧ (s.writeSlot k a bs).chosen = s.chosen ∧
    (s.writeSlot k a bs).play = s.play ∧ (s.writeSlot k a bs).phaseNext = s.phaseNext ∧
    (s.writeSlot k a bs).seqs = s.seqs ∧ (s.writeSlot k a bs).ops = s.ops ∧
    (s.writeSlot k a bs).nextOp = s.nextOp ∧ (s.writeSlot k a bs).sync = s.sync ∧
    (s.writeSlot k a bs).time = s.time ∧ (s.writeSlot k a bs).rel = s.rel ∧ (s.writeSlot k a bs).fw = s.fw ∧
    (s.writeSlot k a bs).objs = s.objs ∧ (s.writeSlot k a bs).clk = s.clk ∧ (s.writeSlot k a bs).arr = s.arr ∧
    (s.writeSlot k a bs).links = s.links ∧ (s.writeSlot k a bs).power = s.power ∧
    (s.writeSlot k a bs).boot = s.boot ∧ (s.writeSlot k a bs).mgmt = s.mgmt ∧ (s.writeSlot k a bs).kdp = s.kdp ∧
    (s.writeSlot k a bs).sec = s.sec ∧ (s.writeSlot k a bs).maint = s.maint ∧ (s.writeSlot k a bs).fab = s.fab ∧
    (s.writeSlot k a bs).table = s.table ∧ (s.writeSlot k a bs).groups = s.groups ∧
    (s.writeSlot k a bs).unitMap = s.unitMap ∧ (s.writeSlot k a bs).deckBuf = s.deckBuf ∧
    (s.writeSlot k a bs).deckFacts = s.deckFacts ∧ (s.writeSlot k a bs).keyBind = s.keyBind ∧
    (s.writeSlot k a bs).keyGen = s.keyGen ∧ (s.writeSlot k a bs).freeCtr = s.freeCtr ∧
    (s.writeSlot k a bs).out = s.out := by
  and_intros <;> rfl

@[simp] theorem State.queueAdd_frame (s : State) (u : Nat) (a : Add) :
    (s.queueAdd u a).pending = s.pending ∧ (s.queueAdd u a).dev = s.dev ∧ (s.queueAdd u a).host = s.host ∧
    (s.queueAdd u a).seats = s.seats ∧ (s.queueAdd u a).stamp = s.stamp ∧ (s.queueAdd u a).chosen = s.chosen ∧
    (s.queueAdd u a).play = s.play ∧ (s.queueAdd u a).phaseNext = s.phaseNext ∧ (s.queueAdd u a).seqs = s.seqs ∧
    (s.queueAdd u a).ops = s.ops ∧ (s.queueAdd u a).nextOp = s.nextOp ∧ (s.queueAdd u a).memory = s.memory ∧
    (s.queueAdd u a).time = s.time ∧ (s.queueAdd u a).rel = s.rel ∧ (s.queueAdd u a).fw = s.fw ∧
    (s.queueAdd u a).objs = s.objs ∧ (s.queueAdd u a).clk = s.clk ∧ (s.queueAdd u a).arr = s.arr ∧
    (s.queueAdd u a).links = s.links ∧ (s.queueAdd u a).power = s.power ∧ (s.queueAdd u a).boot = s.boot ∧
    (s.queueAdd u a).mgmt = s.mgmt ∧ (s.queueAdd u a).kdp = s.kdp ∧ (s.queueAdd u a).sec = s.sec ∧
    (s.queueAdd u a).maint = s.maint ∧ (s.queueAdd u a).fab = s.fab ∧ (s.queueAdd u a).table = s.table ∧
    (s.queueAdd u a).groups = s.groups ∧ (s.queueAdd u a).unitMap = s.unitMap ∧
    (s.queueAdd u a).deckBuf = s.deckBuf ∧ (s.queueAdd u a).deckFacts = s.deckFacts ∧
    (s.queueAdd u a).keyBind = s.keyBind ∧ (s.queueAdd u a).keyGen = s.keyGen ∧
    (s.queueAdd u a).freeCtr = s.freeCtr ∧ (s.queueAdd u a).out = s.out := by
  and_intros <;> rfl

@[simp] theorem State.hinted_frame (s : State) (st : Status) (r : Nat) :
    ((s.hinted st r).2).pending = s.pending ∧ ((s.hinted st r).2).dev = s.dev ∧ ((s.hinted st r).2).host = s.host ∧
    ((s.hinted st r).2).seats = s.seats ∧ ((s.hinted st r).2).stamp = s.stamp ∧
    ((s.hinted st r).2).chosen = s.chosen ∧ ((s.hinted st r).2).play = s.play ∧
    ((s.hinted st r).2).phaseNext = s.phaseNext ∧ ((s.hinted st r).2).seqs = s.seqs ∧
    ((s.hinted st r).2).ops = s.ops ∧ ((s.hinted st r).2).nextOp = s.nextOp ∧ ((s.hinted st r).2).sync = s.sync ∧
    ((s.hinted st r).2).memory = s.memory ∧ ((s.hinted st r).2).time = s.time ∧ ((s.hinted st r).2).rel = s.rel ∧
    ((s.hinted st r).2).fw = s.fw ∧ ((s.hinted st r).2).objs = s.objs ∧ ((s.hinted st r).2).clk = s.clk ∧
    ((s.hinted st r).2).arr = s.arr ∧ ((s.hinted st r).2).links = s.links ∧ ((s.hinted st r).2).power = s.power ∧
    ((s.hinted st r).2).boot = s.boot ∧ ((s.hinted st r).2).mgmt = s.mgmt ∧ ((s.hinted st r).2).kdp = s.kdp ∧
    ((s.hinted st r).2).sec = s.sec ∧ ((s.hinted st r).2).maint = s.maint ∧ ((s.hinted st r).2).fab = s.fab ∧
    ((s.hinted st r).2).table = s.table ∧ ((s.hinted st r).2).groups = s.groups ∧
    ((s.hinted st r).2).unitMap = s.unitMap ∧ ((s.hinted st r).2).deckBuf = s.deckBuf ∧
    ((s.hinted st r).2).deckFacts = s.deckFacts ∧ ((s.hinted st r).2).keyBind = s.keyBind ∧
    ((s.hinted st r).2).keyGen = s.keyGen ∧ ((s.hinted st r).2).out = s.out := by
  unfold State.hinted
  split
  all_goals simp [State.free]

@[simp] theorem State.sendMsix_frame (s : State) (f v : Nat) :
    (s.sendMsix f v).pending = s.pending ∧ (s.sendMsix f v).dev = s.dev ∧ (s.sendMsix f v).seats = s.seats ∧
    (s.sendMsix f v).stamp = s.stamp ∧ (s.sendMsix f v).chosen = s.chosen ∧ (s.sendMsix f v).play = s.play ∧
    (s.sendMsix f v).phaseNext = s.phaseNext ∧ (s.sendMsix f v).seqs = s.seqs ∧ (s.sendMsix f v).ops = s.ops ∧
    (s.sendMsix f v).nextOp = s.nextOp ∧ (s.sendMsix f v).sync = s.sync ∧ (s.sendMsix f v).memory = s.memory ∧
    (s.sendMsix f v).time = s.time ∧ (s.sendMsix f v).rel = s.rel ∧ (s.sendMsix f v).fw = s.fw ∧
    (s.sendMsix f v).objs = s.objs ∧ (s.sendMsix f v).clk = s.clk ∧ (s.sendMsix f v).arr = s.arr ∧
    (s.sendMsix f v).links = s.links ∧ (s.sendMsix f v).power = s.power ∧ (s.sendMsix f v).boot = s.boot ∧
    (s.sendMsix f v).mgmt = s.mgmt ∧ (s.sendMsix f v).kdp = s.kdp ∧ (s.sendMsix f v).sec = s.sec ∧
    (s.sendMsix f v).maint = s.maint ∧ (s.sendMsix f v).fab = s.fab ∧ (s.sendMsix f v).table = s.table ∧
    (s.sendMsix f v).groups = s.groups ∧ (s.sendMsix f v).unitMap = s.unitMap ∧
    (s.sendMsix f v).deckBuf = s.deckBuf ∧ (s.sendMsix f v).deckFacts = s.deckFacts ∧
    (s.sendMsix f v).keyBind = s.keyBind ∧ (s.sendMsix f v).keyGen = s.keyGen ∧ (s.sendMsix f v).freeCtr = s.freeCtr := by
  unfold State.sendMsix
  dsimp only
  split <;> simp

@[simp] theorem State.raiseIrq_frame (s : State) (f v : Nat) :
    (s.raiseIrq f v).pending = s.pending ∧ (s.raiseIrq f v).dev = s.dev ∧ (s.raiseIrq f v).seats = s.seats ∧
    (s.raiseIrq f v).stamp = s.stamp ∧ (s.raiseIrq f v).chosen = s.chosen ∧ (s.raiseIrq f v).play = s.play ∧
    (s.raiseIrq f v).phaseNext = s.phaseNext ∧ (s.raiseIrq f v).seqs = s.seqs ∧ (s.raiseIrq f v).ops = s.ops ∧
    (s.raiseIrq f v).nextOp = s.nextOp ∧ (s.raiseIrq f v).sync = s.sync ∧ (s.raiseIrq f v).memory = s.memory ∧
    (s.raiseIrq f v).time = s.time ∧ (s.raiseIrq f v).rel = s.rel ∧ (s.raiseIrq f v).fw = s.fw ∧
    (s.raiseIrq f v).objs = s.objs ∧ (s.raiseIrq f v).clk = s.clk ∧ (s.raiseIrq f v).arr = s.arr ∧
    (s.raiseIrq f v).links = s.links ∧ (s.raiseIrq f v).power = s.power ∧ (s.raiseIrq f v).boot = s.boot ∧
    (s.raiseIrq f v).mgmt = s.mgmt ∧ (s.raiseIrq f v).kdp = s.kdp ∧ (s.raiseIrq f v).sec = s.sec ∧
    (s.raiseIrq f v).maint = s.maint ∧ (s.raiseIrq f v).fab = s.fab ∧ (s.raiseIrq f v).table = s.table ∧
    (s.raiseIrq f v).groups = s.groups ∧ (s.raiseIrq f v).unitMap = s.unitMap ∧
    (s.raiseIrq f v).deckBuf = s.deckBuf ∧ (s.raiseIrq f v).deckFacts = s.deckFacts ∧
    (s.raiseIrq f v).keyBind = s.keyBind ∧ (s.raiseIrq f v).keyGen = s.keyGen ∧ (s.raiseIrq f v).freeCtr = s.freeCtr := by
  unfold State.raiseIrq
  dsimp only
  split
  · simp
  · split <;> simp

@[simp] theorem State.raiseAll_frame (s : State) (fs : List Nat) (v : Nat) :
    (s.raiseAll fs v).pending = s.pending ∧ (s.raiseAll fs v).dev = s.dev ∧ (s.raiseAll fs v).seats = s.seats ∧
    (s.raiseAll fs v).stamp = s.stamp ∧ (s.raiseAll fs v).chosen = s.chosen ∧ (s.raiseAll fs v).play = s.play ∧
    (s.raiseAll fs v).phaseNext = s.phaseNext ∧ (s.raiseAll fs v).seqs = s.seqs ∧ (s.raiseAll fs v).ops = s.ops ∧
    (s.raiseAll fs v).nextOp = s.nextOp ∧ (s.raiseAll fs v).sync = s.sync ∧ (s.raiseAll fs v).memory = s.memory ∧
    (s.raiseAll fs v).time = s.time ∧ (s.raiseAll fs v).rel = s.rel ∧ (s.raiseAll fs v).fw = s.fw ∧
    (s.raiseAll fs v).objs = s.objs ∧ (s.raiseAll fs v).clk = s.clk ∧ (s.raiseAll fs v).arr = s.arr ∧
    (s.raiseAll fs v).links = s.links ∧ (s.raiseAll fs v).power = s.power ∧ (s.raiseAll fs v).boot = s.boot ∧
    (s.raiseAll fs v).mgmt = s.mgmt ∧ (s.raiseAll fs v).kdp = s.kdp ∧ (s.raiseAll fs v).sec = s.sec ∧
    (s.raiseAll fs v).maint = s.maint ∧ (s.raiseAll fs v).fab = s.fab ∧ (s.raiseAll fs v).table = s.table ∧
    (s.raiseAll fs v).groups = s.groups ∧ (s.raiseAll fs v).unitMap = s.unitMap ∧
    (s.raiseAll fs v).deckBuf = s.deckBuf ∧ (s.raiseAll fs v).deckFacts = s.deckFacts ∧
    (s.raiseAll fs v).keyBind = s.keyBind ∧ (s.raiseAll fs v).keyGen = s.keyGen ∧
    (s.raiseAll fs v).freeCtr = s.freeCtr := by
  unfold State.raiseAll
  induction fs generalizing s with
  | nil => simp
  | cons f fs ih => simp [ih]

@[simp] theorem State.setDev_frame (s : State) (d : DevState) :
    (s.setDev d).pending = s.pending ∧ (s.setDev d).seats = s.seats ∧ (s.setDev d).stamp = s.stamp ∧
    (s.setDev d).chosen = s.chosen ∧ (s.setDev d).play = s.play ∧ (s.setDev d).phaseNext = s.phaseNext ∧
    (s.setDev d).seqs = s.seqs ∧ (s.setDev d).ops = s.ops ∧ (s.setDev d).nextOp = s.nextOp ∧
    (s.setDev d).sync = s.sync ∧ (s.setDev d).memory = s.memory ∧ (s.setDev d).time = s.time ∧
    (s.setDev d).rel = s.rel ∧ (s.setDev d).fw = s.fw ∧ (s.setDev d).objs = s.objs ∧ (s.setDev d).clk = s.clk ∧
    (s.setDev d).arr = s.arr ∧ (s.setDev d).links = s.links ∧ (s.setDev d).power = s.power ∧
    (s.setDev d).boot = s.boot ∧ (s.setDev d).mgmt = s.mgmt ∧ (s.setDev d).kdp = s.kdp ∧ (s.setDev d).sec = s.sec ∧
    (s.setDev d).maint = s.maint ∧ (s.setDev d).fab = s.fab ∧ (s.setDev d).table = s.table ∧
    (s.setDev d).groups = s.groups ∧ (s.setDev d).unitMap = s.unitMap ∧ (s.setDev d).deckBuf = s.deckBuf ∧
    (s.setDev d).deckFacts = s.deckFacts ∧ (s.setDev d).keyBind = s.keyBind ∧ (s.setDev d).keyGen = s.keyGen ∧
    (s.setDev d).freeCtr = s.freeCtr := by
  unfold State.setDev
  split <;> simp

@[simp] theorem State.pushEvent_frame (s : State) (f : Nat) (e : Event) :
    (s.pushEvent f e).pending = s.pending ∧ (s.pushEvent f e).dev = s.dev ∧ (s.pushEvent f e).seats = s.seats ∧
    (s.pushEvent f e).stamp = s.stamp ∧ (s.pushEvent f e).chosen = s.chosen ∧ (s.pushEvent f e).play = s.play ∧
    (s.pushEvent f e).phaseNext = s.phaseNext ∧ (s.pushEvent f e).seqs = s.seqs ∧ (s.pushEvent f e).ops = s.ops ∧
    (s.pushEvent f e).nextOp = s.nextOp ∧ (s.pushEvent f e).sync = s.sync ∧ (s.pushEvent f e).memory = s.memory ∧
    (s.pushEvent f e).time = s.time ∧ (s.pushEvent f e).rel = s.rel ∧ (s.pushEvent f e).fw = s.fw ∧
    (s.pushEvent f e).objs = s.objs ∧ (s.pushEvent f e).clk = s.clk ∧ (s.pushEvent f e).arr = s.arr ∧
    (s.pushEvent f e).links = s.links ∧ (s.pushEvent f e).power = s.power ∧ (s.pushEvent f e).boot = s.boot ∧
    (s.pushEvent f e).mgmt = s.mgmt ∧ (s.pushEvent f e).kdp = s.kdp ∧ (s.pushEvent f e).sec = s.sec ∧
    (s.pushEvent f e).maint = s.maint ∧ (s.pushEvent f e).fab = s.fab ∧ (s.pushEvent f e).table = s.table ∧
    (s.pushEvent f e).groups = s.groups ∧ (s.pushEvent f e).unitMap = s.unitMap ∧
    (s.pushEvent f e).deckBuf = s.deckBuf ∧ (s.pushEvent f e).deckFacts = s.deckFacts ∧
    (s.pushEvent f e).keyBind = s.keyBind ∧ (s.pushEvent f e).keyGen = s.keyGen ∧
    (s.pushEvent f e).freeCtr = s.freeCtr := by
  unfold State.pushEvent
  split <;> simp

@[simp] theorem State.appendEvent_frame (s : State) (n : Nat) :
    (s.appendEvent n).pending = s.pending ∧ (s.appendEvent n).dev = s.dev ∧ (s.appendEvent n).seats = s.seats ∧
    (s.appendEvent n).stamp = s.stamp ∧ (s.appendEvent n).chosen = s.chosen ∧ (s.appendEvent n).play = s.play ∧
    (s.appendEvent n).phaseNext = s.phaseNext ∧ (s.appendEvent n).seqs = s.seqs ∧ (s.appendEvent n).ops = s.ops ∧
    (s.appendEvent n).nextOp = s.nextOp ∧ (s.appendEvent n).sync = s.sync ∧ (s.appendEvent n).memory = s.memory ∧
    (s.appendEvent n).time = s.time ∧ (s.appendEvent n).rel = s.rel ∧ (s.appendEvent n).fw = s.fw ∧
    (s.appendEvent n).objs = s.objs ∧ (s.appendEvent n).clk = s.clk ∧ (s.appendEvent n).arr = s.arr ∧
    (s.appendEvent n).links = s.links ∧ (s.appendEvent n).power = s.power ∧ (s.appendEvent n).boot = s.boot ∧
    (s.appendEvent n).mgmt = s.mgmt ∧ (s.appendEvent n).kdp = s.kdp ∧ (s.appendEvent n).sec = s.sec ∧
    (s.appendEvent n).maint = s.maint ∧ (s.appendEvent n).fab = s.fab ∧ (s.appendEvent n).table = s.table ∧
    (s.appendEvent n).groups = s.groups ∧ (s.appendEvent n).unitMap = s.unitMap ∧
    (s.appendEvent n).deckBuf = s.deckBuf ∧ (s.appendEvent n).deckFacts = s.deckFacts ∧
    (s.appendEvent n).keyBind = s.keyBind ∧ (s.appendEvent n).keyGen = s.keyGen ∧
    (s.appendEvent n).freeCtr = s.freeCtr := by
  unfold State.appendEvent
  dsimp only
  split <;> simp

@[simp] theorem State.queueMsg_frame (s : State) (f : Nat) (m : List Byte) :
    (s.queueMsg f m).pending = s.pending ∧ (s.queueMsg f m).dev = s.dev ∧ (s.queueMsg f m).seats = s.seats ∧
    (s.queueMsg f m).stamp = s.stamp ∧ (s.queueMsg f m).chosen = s.chosen ∧ (s.queueMsg f m).play = s.play ∧
    (s.queueMsg f m).phaseNext = s.phaseNext ∧ (s.queueMsg f m).seqs = s.seqs ∧ (s.queueMsg f m).ops = s.ops ∧
    (s.queueMsg f m).nextOp = s.nextOp ∧ (s.queueMsg f m).sync = s.sync ∧ (s.queueMsg f m).memory = s.memory ∧
    (s.queueMsg f m).time = s.time ∧ (s.queueMsg f m).rel = s.rel ∧ (s.queueMsg f m).fw = s.fw ∧
    (s.queueMsg f m).objs = s.objs ∧ (s.queueMsg f m).clk = s.clk ∧ (s.queueMsg f m).arr = s.arr ∧
    (s.queueMsg f m).links = s.links ∧ (s.queueMsg f m).power = s.power ∧ (s.queueMsg f m).boot = s.boot ∧
    (s.queueMsg f m).mgmt = s.mgmt ∧ (s.queueMsg f m).kdp = s.kdp ∧ (s.queueMsg f m).sec = s.sec ∧
    (s.queueMsg f m).maint = s.maint ∧ (s.queueMsg f m).fab = s.fab ∧ (s.queueMsg f m).table = s.table ∧
    (s.queueMsg f m).groups = s.groups ∧ (s.queueMsg f m).unitMap = s.unitMap ∧
    (s.queueMsg f m).deckBuf = s.deckBuf ∧ (s.queueMsg f m).deckFacts = s.deckFacts ∧
    (s.queueMsg f m).keyBind = s.keyBind ∧ (s.queueMsg f m).keyGen = s.keyGen ∧
    (s.queueMsg f m).freeCtr = s.freeCtr ∧ (s.queueMsg f m).out = s.out := by
  and_intros <;> rfl

@[simp] theorem State.notice_frame (s : State) (f k : Nat) (st : Status) (b : List Byte) :
    (s.notice f k st b).pending = s.pending ∧ (s.notice f k st b).dev = s.dev ∧
    (s.notice f k st b).seats = s.seats ∧ (s.notice f k st b).stamp = s.stamp ∧
    (s.notice f k st b).chosen = s.chosen ∧ (s.notice f k st b).play = s.play ∧
    (s.notice f k st b).phaseNext = s.phaseNext ∧ (s.notice f k st b).seqs = s.seqs ∧
    (s.notice f k st b).ops = s.ops ∧ (s.notice f k st b).nextOp = s.nextOp ∧ (s.notice f k st b).sync = s.sync ∧
    (s.notice f k st b).memory = s.memory ∧ (s.notice f k st b).time = s.time ∧ (s.notice f k st b).rel = s.rel ∧
    (s.notice f k st b).fw = s.fw ∧ (s.notice f k st b).objs = s.objs ∧ (s.notice f k st b).clk = s.clk ∧
    (s.notice f k st b).arr = s.arr ∧ (s.notice f k st b).links = s.links ∧ (s.notice f k st b).power = s.power ∧
    (s.notice f k st b).boot = s.boot ∧ (s.notice f k st b).mgmt = s.mgmt ∧ (s.notice f k st b).kdp = s.kdp ∧
    (s.notice f k st b).sec = s.sec ∧ (s.notice f k st b).maint = s.maint ∧ (s.notice f k st b).fab = s.fab ∧
    (s.notice f k st b).table = s.table ∧ (s.notice f k st b).groups = s.groups ∧
    (s.notice f k st b).unitMap = s.unitMap ∧ (s.notice f k st b).deckBuf = s.deckBuf ∧
    (s.notice f k st b).deckFacts = s.deckFacts ∧ (s.notice f k st b).keyBind = s.keyBind ∧
    (s.notice f k st b).keyGen = s.keyGen ∧ (s.notice f k st b).freeCtr = s.freeCtr ∧
    (s.notice f k st b).out = s.out := by
  unfold State.notice
  simp

@[simp] theorem State.noticeError_frame (s : State) (f : Nat) (r : Report) :
    (s.noticeError f r).pending = s.pending ∧ (s.noticeError f r).dev = s.dev ∧
    (s.noticeError f r).seats = s.seats ∧ (s.noticeError f r).stamp = s.stamp ∧
    (s.noticeError f r).chosen = s.chosen ∧ (s.noticeError f r).play = s.play ∧
    (s.noticeError f r).phaseNext = s.phaseNext ∧ (s.noticeError f r).seqs = s.seqs ∧
    (s.noticeError f r).ops = s.ops ∧ (s.noticeError f r).nextOp = s.nextOp ∧ (s.noticeError f r).sync = s.sync ∧
    (s.noticeError f r).memory = s.memory ∧ (s.noticeError f r).time = s.time ∧ (s.noticeError f r).rel = s.rel ∧
    (s.noticeError f r).fw = s.fw ∧ (s.noticeError f r).objs = s.objs ∧ (s.noticeError f r).clk = s.clk ∧
    (s.noticeError f r).arr = s.arr ∧ (s.noticeError f r).links = s.links ∧ (s.noticeError f r).power = s.power ∧
    (s.noticeError f r).boot = s.boot ∧ (s.noticeError f r).mgmt = s.mgmt ∧ (s.noticeError f r).kdp = s.kdp ∧
    (s.noticeError f r).sec = s.sec ∧ (s.noticeError f r).maint = s.maint ∧ (s.noticeError f r).fab = s.fab ∧
    (s.noticeError f r).table = s.table ∧ (s.noticeError f r).groups = s.groups ∧
    (s.noticeError f r).unitMap = s.unitMap ∧ (s.noticeError f r).deckBuf = s.deckBuf ∧
    (s.noticeError f r).deckFacts = s.deckFacts ∧ (s.noticeError f r).keyBind = s.keyBind ∧
    (s.noticeError f r).keyGen = s.keyGen ∧ (s.noticeError f r).freeCtr = s.freeCtr ∧
    (s.noticeError f r).out = s.out := by
  unfold State.noticeError
  dsimp only
  split <;> simp

@[simp] theorem State.noticeErrors_frame (s : State) (fs : List Nat) (r : Report) :
    (fs.foldl (fun s f => s.noticeError f r) s).pending = s.pending ∧
    (fs.foldl (fun s f => s.noticeError f r) s).dev = s.dev ∧
    (fs.foldl (fun s f => s.noticeError f r) s).seats = s.seats ∧
    (fs.foldl (fun s f => s.noticeError f r) s).stamp = s.stamp ∧
    (fs.foldl (fun s f => s.noticeError f r) s).chosen = s.chosen ∧
    (fs.foldl (fun s f => s.noticeError f r) s).play = s.play ∧
    (fs.foldl (fun s f => s.noticeError f r) s).phaseNext = s.phaseNext ∧
    (fs.foldl (fun s f => s.noticeError f r) s).seqs = s.seqs ∧
    (fs.foldl (fun s f => s.noticeError f r) s).ops = s.ops ∧
    (fs.foldl (fun s f => s.noticeError f r) s).nextOp = s.nextOp ∧
    (fs.foldl (fun s f => s.noticeError f r) s).sync = s.sync ∧
    (fs.foldl (fun s f => s.noticeError f r) s).memory = s.memory ∧
    (fs.foldl (fun s f => s.noticeError f r) s).time = s.time ∧
    (fs.foldl (fun s f => s.noticeError f r) s).rel = s.rel ∧
    (fs.foldl (fun s f => s.noticeError f r) s).fw = s.fw ∧
    (fs.foldl (fun s f => s.noticeError f r) s).objs = s.objs ∧
    (fs.foldl (fun s f => s.noticeError f r) s).clk = s.clk ∧
    (fs.foldl (fun s f => s.noticeError f r) s).arr = s.arr ∧
    (fs.foldl (fun s f => s.noticeError f r) s).links = s.links ∧
    (fs.foldl (fun s f => s.noticeError f r) s).power = s.power ∧
    (fs.foldl (fun s f => s.noticeError f r) s).boot = s.boot ∧
    (fs.foldl (fun s f => s.noticeError f r) s).mgmt = s.mgmt ∧
    (fs.foldl (fun s f => s.noticeError f r) s).kdp = s.kdp ∧
    (fs.foldl (fun s f => s.noticeError f r) s).sec = s.sec ∧
    (fs.foldl (fun s f => s.noticeError f r) s).maint = s.maint ∧
    (fs.foldl (fun s f => s.noticeError f r) s).fab = s.fab ∧
    (fs.foldl (fun s f => s.noticeError f r) s).table = s.table ∧
    (fs.foldl (fun s f => s.noticeError f r) s).groups = s.groups ∧
    (fs.foldl (fun s f => s.noticeError f r) s).unitMap = s.unitMap ∧
    (fs.foldl (fun s f => s.noticeError f r) s).deckBuf = s.deckBuf ∧
    (fs.foldl (fun s f => s.noticeError f r) s).deckFacts = s.deckFacts ∧
    (fs.foldl (fun s f => s.noticeError f r) s).keyBind = s.keyBind ∧
    (fs.foldl (fun s f => s.noticeError f r) s).keyGen = s.keyGen ∧
    (fs.foldl (fun s f => s.noticeError f r) s).freeCtr = s.freeCtr ∧
    (fs.foldl (fun s f => s.noticeError f r) s).out = s.out := by
  induction fs generalizing s with
  | nil => simp
  | cons f fs ih => simp [ih]

@[simp] theorem State.report_frame (s : State) (cls code action : Nat) (seat : Option Nat) (d : List Nat) (st : Status) (die : Nat) (x : List (List Byte)) :
    (s.report cls code action seat d st die x).pending = s.pending ∧
    (s.report cls code action seat d st die x).dev = s.dev ∧
    (s.report cls code action seat d st die x).seats = s.seats ∧
    (s.report cls code action seat d st die x).stamp = s.stamp ∧
    (s.report cls code action seat d st die x).chosen = s.chosen ∧
    (s.report cls code action seat d st die x).play = s.play ∧
    (s.report cls code action seat d st die x).phaseNext = s.phaseNext ∧
    (s.report cls code action seat d st die x).seqs = s.seqs ∧
    (s.report cls code action seat d st die x).ops = s.ops ∧
    (s.report cls code action seat d st die x).nextOp = s.nextOp ∧
    (s.report cls code action seat d st die x).sync = s.sync ∧
    (s.report cls code action seat d st die x).memory = s.memory ∧
    (s.report cls code action seat d st die x).time = s.time ∧
    (s.report cls code action seat d st die x).fw = s.fw ∧ (s.report cls code action seat d st die x).clk = s.clk ∧
    (s.report cls code action seat d st die x).arr = s.arr ∧
    (s.report cls code action seat d st die x).links = s.links ∧
    (s.report cls code action seat d st die x).power = s.power ∧
    (s.report cls code action seat d st die x).boot = s.boot ∧
    (s.report cls code action seat d st die x).mgmt = s.mgmt ∧
    (s.report cls code action seat d st die x).kdp = s.kdp ∧
    (s.report cls code action seat d st die x).sec = s.sec ∧
    (s.report cls code action seat d st die x).maint = s.maint ∧
    (s.report cls code action seat d st die x).fab = s.fab ∧
    (s.report cls code action seat d st die x).table = s.table ∧
    (s.report cls code action seat d st die x).groups = s.groups ∧
    (s.report cls code action seat d st die x).unitMap = s.unitMap ∧
    (s.report cls code action seat d st die x).deckBuf = s.deckBuf ∧
    (s.report cls code action seat d st die x).deckFacts = s.deckFacts ∧
    (s.report cls code action seat d st die x).keyBind = s.keyBind ∧
    (s.report cls code action seat d st die x).keyGen = s.keyGen ∧
    (s.report cls code action seat d st die x).freeCtr = s.freeCtr := by
  unfold State.report
  dsimp only
  split <;> simp

@[simp] theorem State.signalOf_frame (s : State) (c u n : Nat) (t : Target) :
    (s.signalOf c u n t).pending = s.pending ∧ (s.signalOf c u n t).dev = s.dev ∧
    (s.signalOf c u n t).seats = s.seats ∧ (s.signalOf c u n t).stamp = s.stamp ∧
    (s.signalOf c u n t).chosen = s.chosen ∧ (s.signalOf c u n t).play = s.play ∧
    (s.signalOf c u n t).phaseNext = s.phaseNext ∧ (s.signalOf c u n t).ops = s.ops ∧
    (s.signalOf c u n t).nextOp = s.nextOp ∧ (s.signalOf c u n t).memory = s.memory ∧
    (s.signalOf c u n t).time = s.time ∧ (s.signalOf c u n t).rel = s.rel ∧ (s.signalOf c u n t).fw = s.fw ∧
    (s.signalOf c u n t).objs = s.objs ∧ (s.signalOf c u n t).clk = s.clk ∧ (s.signalOf c u n t).arr = s.arr ∧
    (s.signalOf c u n t).links = s.links ∧ (s.signalOf c u n t).power = s.power ∧
    (s.signalOf c u n t).boot = s.boot ∧ (s.signalOf c u n t).mgmt = s.mgmt ∧ (s.signalOf c u n t).kdp = s.kdp ∧
    (s.signalOf c u n t).sec = s.sec ∧ (s.signalOf c u n t).maint = s.maint ∧ (s.signalOf c u n t).fab = s.fab ∧
    (s.signalOf c u n t).table = s.table ∧ (s.signalOf c u n t).groups = s.groups ∧
    (s.signalOf c u n t).unitMap = s.unitMap ∧ (s.signalOf c u n t).deckBuf = s.deckBuf ∧
    (s.signalOf c u n t).deckFacts = s.deckFacts ∧ (s.signalOf c u n t).keyBind = s.keyBind ∧
    (s.signalOf c u n t).keyGen = s.keyGen ∧ (s.signalOf c u n t).freeCtr = s.freeCtr := by
  unfold State.signalOf
  cases t <;> simp [State.setFlag]

@[simp] theorem State.signalNow_frame (s : State) (i : Issue) :
    (s.signalNow i).pending = s.pending ∧ (s.signalNow i).dev = s.dev ∧ (s.signalNow i).seats = s.seats ∧
    (s.signalNow i).stamp = s.stamp ∧ (s.signalNow i).chosen = s.chosen ∧ (s.signalNow i).play = s.play ∧
    (s.signalNow i).phaseNext = s.phaseNext ∧ (s.signalNow i).ops = s.ops ∧ (s.signalNow i).nextOp = s.nextOp ∧
    (s.signalNow i).memory = s.memory ∧ (s.signalNow i).time = s.time ∧ (s.signalNow i).rel = s.rel ∧
    (s.signalNow i).fw = s.fw ∧ (s.signalNow i).objs = s.objs ∧ (s.signalNow i).clk = s.clk ∧
    (s.signalNow i).arr = s.arr ∧ (s.signalNow i).links = s.links ∧ (s.signalNow i).power = s.power ∧
    (s.signalNow i).boot = s.boot ∧ (s.signalNow i).mgmt = s.mgmt ∧ (s.signalNow i).kdp = s.kdp ∧
    (s.signalNow i).sec = s.sec ∧ (s.signalNow i).maint = s.maint ∧ (s.signalNow i).fab = s.fab ∧
    (s.signalNow i).table = s.table ∧ (s.signalNow i).groups = s.groups ∧ (s.signalNow i).unitMap = s.unitMap ∧
    (s.signalNow i).deckBuf = s.deckBuf ∧ (s.signalNow i).deckFacts = s.deckFacts ∧
    (s.signalNow i).keyBind = s.keyBind ∧ (s.signalNow i).keyGen = s.keyGen ∧ (s.signalNow i).freeCtr = s.freeCtr := by
  unfold State.signalNow
  split <;> simp

@[simp] theorem State.signalIssue_frame (s : State) (i : Issue) :
    (s.signalIssue i).pending = s.pending ∧ (s.signalIssue i).dev = s.dev ∧ (s.signalIssue i).seats = s.seats ∧
    (s.signalIssue i).stamp = s.stamp ∧ (s.signalIssue i).chosen = s.chosen ∧ (s.signalIssue i).play = s.play ∧
    (s.signalIssue i).phaseNext = s.phaseNext ∧ (s.signalIssue i).ops = s.ops ∧
    (s.signalIssue i).nextOp = s.nextOp ∧ (s.signalIssue i).memory = s.memory ∧ (s.signalIssue i).time = s.time ∧
    (s.signalIssue i).rel = s.rel ∧ (s.signalIssue i).fw = s.fw ∧ (s.signalIssue i).objs = s.objs ∧
    (s.signalIssue i).clk = s.clk ∧ (s.signalIssue i).arr = s.arr ∧ (s.signalIssue i).links = s.links ∧
    (s.signalIssue i).power = s.power ∧ (s.signalIssue i).boot = s.boot ∧ (s.signalIssue i).mgmt = s.mgmt ∧
    (s.signalIssue i).kdp = s.kdp ∧ (s.signalIssue i).sec = s.sec ∧ (s.signalIssue i).maint = s.maint ∧
    (s.signalIssue i).fab = s.fab ∧ (s.signalIssue i).table = s.table ∧ (s.signalIssue i).groups = s.groups ∧
    (s.signalIssue i).unitMap = s.unitMap ∧ (s.signalIssue i).deckBuf = s.deckBuf ∧
    (s.signalIssue i).deckFacts = s.deckFacts ∧ (s.signalIssue i).keyBind = s.keyBind ∧
    (s.signalIssue i).keyGen = s.keyGen ∧ (s.signalIssue i).freeCtr = s.freeCtr := by
  unfold State.signalIssue
  split <;> simp

@[simp] theorem State.put_frame (s : State) (c : Nat) (d : Dst) (v : Word) :
    (s.put c d v).pending = s.pending ∧ (s.put c d v).dev = s.dev ∧ (s.put c d v).host = s.host ∧
    (s.put c d v).seats = s.seats ∧ (s.put c d v).stamp = s.stamp ∧ (s.put c d v).chosen = s.chosen ∧
    (s.put c d v).play = s.play ∧ (s.put c d v).phaseNext = s.phaseNext ∧ (s.put c d v).ops = s.ops ∧
    (s.put c d v).nextOp = s.nextOp ∧ (s.put c d v).sync = s.sync ∧ (s.put c d v).memory = s.memory ∧
    (s.put c d v).time = s.time ∧ (s.put c d v).rel = s.rel ∧ (s.put c d v).fw = s.fw ∧
    (s.put c d v).objs = s.objs ∧ (s.put c d v).clk = s.clk ∧ (s.put c d v).arr = s.arr ∧
    (s.put c d v).links = s.links ∧ (s.put c d v).power = s.power ∧ (s.put c d v).boot = s.boot ∧
    (s.put c d v).mgmt = s.mgmt ∧ (s.put c d v).kdp = s.kdp ∧ (s.put c d v).sec = s.sec ∧
    (s.put c d v).maint = s.maint ∧ (s.put c d v).fab = s.fab ∧ (s.put c d v).table = s.table ∧
    (s.put c d v).groups = s.groups ∧ (s.put c d v).unitMap = s.unitMap ∧ (s.put c d v).deckBuf = s.deckBuf ∧
    (s.put c d v).deckFacts = s.deckFacts ∧ (s.put c d v).keyBind = s.keyBind ∧ (s.put c d v).keyGen = s.keyGen ∧
    (s.put c d v).freeCtr = s.freeCtr ∧ (s.put c d v).out = s.out := by
  unfold State.put
  cases d with
  | s r => dsimp only; split <;> simp
  | g r => simp

@[simp] theorem State.advance_frame (s : State) (c b : Nat) :
    (s.advance c b).pending = s.pending ∧ (s.advance c b).dev = s.dev ∧ (s.advance c b).host = s.host ∧
    (s.advance c b).seats = s.seats ∧ (s.advance c b).stamp = s.stamp ∧ (s.advance c b).chosen = s.chosen ∧
    (s.advance c b).play = s.play ∧ (s.advance c b).phaseNext = s.phaseNext ∧ (s.advance c b).ops = s.ops ∧
    (s.advance c b).nextOp = s.nextOp ∧ (s.advance c b).sync = s.sync ∧ (s.advance c b).memory = s.memory ∧
    (s.advance c b).time = s.time ∧ (s.advance c b).rel = s.rel ∧ (s.advance c b).fw = s.fw ∧
    (s.advance c b).objs = s.objs ∧ (s.advance c b).clk = s.clk ∧ (s.advance c b).arr = s.arr ∧
    (s.advance c b).links = s.links ∧ (s.advance c b).power = s.power ∧ (s.advance c b).boot = s.boot ∧
    (s.advance c b).mgmt = s.mgmt ∧ (s.advance c b).kdp = s.kdp ∧ (s.advance c b).sec = s.sec ∧
    (s.advance c b).maint = s.maint ∧ (s.advance c b).fab = s.fab ∧ (s.advance c b).table = s.table ∧
    (s.advance c b).groups = s.groups ∧ (s.advance c b).unitMap = s.unitMap ∧ (s.advance c b).deckBuf = s.deckBuf ∧
    (s.advance c b).deckFacts = s.deckFacts ∧ (s.advance c b).keyBind = s.keyBind ∧
    (s.advance c b).keyGen = s.keyGen ∧ (s.advance c b).freeCtr = s.freeCtr ∧ (s.advance c b).out = s.out := by
  and_intros <;> rfl

@[simp] theorem State.branchTo_frame (s : State) (c : Nat) (t : Quad) :
    (s.branchTo c t).pending = s.pending ∧ (s.branchTo c t).dev = s.dev ∧ (s.branchTo c t).host = s.host ∧
    (s.branchTo c t).seats = s.seats ∧ (s.branchTo c t).stamp = s.stamp ∧ (s.branchTo c t).chosen = s.chosen ∧
    (s.branchTo c t).play = s.play ∧ (s.branchTo c t).phaseNext = s.phaseNext ∧ (s.branchTo c t).ops = s.ops ∧
    (s.branchTo c t).nextOp = s.nextOp ∧ (s.branchTo c t).sync = s.sync ∧ (s.branchTo c t).memory = s.memory ∧
    (s.branchTo c t).time = s.time ∧ (s.branchTo c t).rel = s.rel ∧ (s.branchTo c t).fw = s.fw ∧
    (s.branchTo c t).objs = s.objs ∧ (s.branchTo c t).clk = s.clk ∧ (s.branchTo c t).arr = s.arr ∧
    (s.branchTo c t).links = s.links ∧ (s.branchTo c t).power = s.power ∧ (s.branchTo c t).boot = s.boot ∧
    (s.branchTo c t).mgmt = s.mgmt ∧ (s.branchTo c t).kdp = s.kdp ∧ (s.branchTo c t).sec = s.sec ∧
    (s.branchTo c t).maint = s.maint ∧ (s.branchTo c t).fab = s.fab ∧ (s.branchTo c t).table = s.table ∧
    (s.branchTo c t).groups = s.groups ∧ (s.branchTo c t).unitMap = s.unitMap ∧
    (s.branchTo c t).deckBuf = s.deckBuf ∧ (s.branchTo c t).deckFacts = s.deckFacts ∧
    (s.branchTo c t).keyBind = s.keyBind ∧ (s.branchTo c t).keyGen = s.keyGen ∧
    (s.branchTo c t).freeCtr = s.freeCtr ∧ (s.branchTo c t).out = s.out := by
  and_intros <;> rfl

@[simp] theorem State.beginStall_frame (s : State) (c : Nat) (k : Stall) :
    (s.beginStall c k).pending = s.pending ∧ (s.beginStall c k).dev = s.dev ∧ (s.beginStall c k).host = s.host ∧
    (s.beginStall c k).seats = s.seats ∧ (s.beginStall c k).stamp = s.stamp ∧
    (s.beginStall c k).chosen = s.chosen ∧ (s.beginStall c k).play = s.play ∧
    (s.beginStall c k).phaseNext = s.phaseNext ∧ (s.beginStall c k).ops = s.ops ∧
    (s.beginStall c k).nextOp = s.nextOp ∧ (s.beginStall c k).sync = s.sync ∧
    (s.beginStall c k).memory = s.memory ∧ (s.beginStall c k).time = s.time ∧ (s.beginStall c k).rel = s.rel ∧
    (s.beginStall c k).fw = s.fw ∧ (s.beginStall c k).objs = s.objs ∧ (s.beginStall c k).clk = s.clk ∧
    (s.beginStall c k).arr = s.arr ∧ (s.beginStall c k).links = s.links ∧ (s.beginStall c k).power = s.power ∧
    (s.beginStall c k).boot = s.boot ∧ (s.beginStall c k).mgmt = s.mgmt ∧ (s.beginStall c k).kdp = s.kdp ∧
    (s.beginStall c k).sec = s.sec ∧ (s.beginStall c k).maint = s.maint ∧ (s.beginStall c k).fab = s.fab ∧
    (s.beginStall c k).table = s.table ∧ (s.beginStall c k).groups = s.groups ∧
    (s.beginStall c k).unitMap = s.unitMap ∧ (s.beginStall c k).deckBuf = s.deckBuf ∧
    (s.beginStall c k).deckFacts = s.deckFacts ∧ (s.beginStall c k).keyBind = s.keyBind ∧
    (s.beginStall c k).keyGen = s.keyGen ∧ (s.beginStall c k).freeCtr = s.freeCtr ∧ (s.beginStall c k).out = s.out := by
  unfold State.beginStall
  repeat' split
  all_goals simp

@[simp] theorem State.pushOp_frame (s : State) (c : Nat) (u : OpUnit) (ins : Instr) (done : List (Nat × Target)) (fin : Bool) (data : List Byte) (vals : List Nat) :
    (s.pushOp c u ins done fin data vals).pending = s.pending ∧ (s.pushOp c u ins done fin data vals).dev = s.dev ∧
    (s.pushOp c u ins done fin data vals).host = s.host ∧ (s.pushOp c u ins done fin data vals).seats = s.seats ∧
    (s.pushOp c u ins done fin data vals).stamp = s.stamp ∧
    (s.pushOp c u ins done fin data vals).chosen = s.chosen ∧ (s.pushOp c u ins done fin data vals).play = s.play ∧
    (s.pushOp c u ins done fin data vals).phaseNext = s.phaseNext ∧
    (s.pushOp c u ins done fin data vals).seqs = s.seqs ∧ (s.pushOp c u ins done fin data vals).sync = s.sync ∧
    (s.pushOp c u ins done fin data vals).memory = s.memory ∧ (s.pushOp c u ins done fin data vals).time = s.time ∧
    (s.pushOp c u ins done fin data vals).rel = s.rel ∧ (s.pushOp c u ins done fin data vals).fw = s.fw ∧
    (s.pushOp c u ins done fin data vals).objs = s.objs ∧ (s.pushOp c u ins done fin data vals).clk = s.clk ∧
    (s.pushOp c u ins done fin data vals).arr = s.arr ∧ (s.pushOp c u ins done fin data vals).links = s.links ∧
    (s.pushOp c u ins done fin data vals).power = s.power ∧ (s.pushOp c u ins done fin data vals).boot = s.boot ∧
    (s.pushOp c u ins done fin data vals).mgmt = s.mgmt ∧ (s.pushOp c u ins done fin data vals).kdp = s.kdp ∧
    (s.pushOp c u ins done fin data vals).sec = s.sec ∧ (s.pushOp c u ins done fin data vals).maint = s.maint ∧
    (s.pushOp c u ins done fin data vals).fab = s.fab ∧ (s.pushOp c u ins done fin data vals).table = s.table ∧
    (s.pushOp c u ins done fin data vals).groups = s.groups ∧
    (s.pushOp c u ins done fin data vals).unitMap = s.unitMap ∧
    (s.pushOp c u ins done fin data vals).deckBuf = s.deckBuf ∧
    (s.pushOp c u ins done fin data vals).deckFacts = s.deckFacts ∧
    (s.pushOp c u ins done fin data vals).keyBind = s.keyBind ∧
    (s.pushOp c u ins done fin data vals).keyGen = s.keyGen ∧
    (s.pushOp c u ins done fin data vals).freeCtr = s.freeCtr ∧ (s.pushOp c u ins done fin data vals).out = s.out := by
  and_intros <;> rfl

@[simp] theorem State.modOp_frame (s : State) (id : Nat) (g : Op → Op) :
    (s.modOp id g).pending = s.pending ∧ (s.modOp id g).dev = s.dev ∧ (s.modOp id g).host = s.host ∧
    (s.modOp id g).seats = s.seats ∧ (s.modOp id g).stamp = s.stamp ∧ (s.modOp id g).chosen = s.chosen ∧
    (s.modOp id g).play = s.play ∧ (s.modOp id g).phaseNext = s.phaseNext ∧ (s.modOp id g).seqs = s.seqs ∧
    (s.modOp id g).nextOp = s.nextOp ∧ (s.modOp id g).sync = s.sync ∧ (s.modOp id g).memory = s.memory ∧
    (s.modOp id g).time = s.time ∧ (s.modOp id g).rel = s.rel ∧ (s.modOp id g).fw = s.fw ∧
    (s.modOp id g).objs = s.objs ∧ (s.modOp id g).clk = s.clk ∧ (s.modOp id g).arr = s.arr ∧
    (s.modOp id g).links = s.links ∧ (s.modOp id g).power = s.power ∧ (s.modOp id g).boot = s.boot ∧
    (s.modOp id g).mgmt = s.mgmt ∧ (s.modOp id g).kdp = s.kdp ∧ (s.modOp id g).sec = s.sec ∧
    (s.modOp id g).maint = s.maint ∧ (s.modOp id g).fab = s.fab ∧ (s.modOp id g).table = s.table ∧
    (s.modOp id g).groups = s.groups ∧ (s.modOp id g).unitMap = s.unitMap ∧ (s.modOp id g).deckBuf = s.deckBuf ∧
    (s.modOp id g).deckFacts = s.deckFacts ∧ (s.modOp id g).keyBind = s.keyBind ∧
    (s.modOp id g).keyGen = s.keyGen ∧ (s.modOp id g).freeCtr = s.freeCtr ∧ (s.modOp id g).out = s.out := by
  and_intros <;> rfl

@[simp] theorem State.writeStateBytes_frame (s : State) (n : Nat) :
    (s.writeStateBytes n).pending = s.pending ∧ (s.writeStateBytes n).dev = s.dev ∧
    (s.writeStateBytes n).host = s.host ∧ (s.writeStateBytes n).seats = s.seats ∧
    (s.writeStateBytes n).stamp = s.stamp ∧ (s.writeStateBytes n).chosen = s.chosen ∧
    (s.writeStateBytes n).play = s.play ∧ (s.writeStateBytes n).phaseNext = s.phaseNext ∧
    (s.writeStateBytes n).seqs = s.seqs ∧ (s.writeStateBytes n).ops = s.ops ∧
    (s.writeStateBytes n).nextOp = s.nextOp ∧ (s.writeStateBytes n).sync = s.sync ∧
    (s.writeStateBytes n).time = s.time ∧ (s.writeStateBytes n).rel = s.rel ∧ (s.writeStateBytes n).fw = s.fw ∧
    (s.writeStateBytes n).objs = s.objs ∧ (s.writeStateBytes n).clk = s.clk ∧ (s.writeStateBytes n).arr = s.arr ∧
    (s.writeStateBytes n).links = s.links ∧ (s.writeStateBytes n).power = s.power ∧
    (s.writeStateBytes n).boot = s.boot ∧ (s.writeStateBytes n).mgmt = s.mgmt ∧ (s.writeStateBytes n).kdp = s.kdp ∧
    (s.writeStateBytes n).sec = s.sec ∧ (s.writeStateBytes n).maint = s.maint ∧ (s.writeStateBytes n).fab = s.fab ∧
    (s.writeStateBytes n).table = s.table ∧ (s.writeStateBytes n).groups = s.groups ∧
    (s.writeStateBytes n).unitMap = s.unitMap ∧ (s.writeStateBytes n).deckBuf = s.deckBuf ∧
    (s.writeStateBytes n).deckFacts = s.deckFacts ∧ (s.writeStateBytes n).keyBind = s.keyBind ∧
    (s.writeStateBytes n).keyGen = s.keyGen ∧ (s.writeStateBytes n).freeCtr = s.freeCtr ∧
    (s.writeStateBytes n).out = s.out := by
  unfold State.writeStateBytes
  simp

@[simp] theorem State.setSeat_frame (s : State) (n : Nat) (st : SeatState) (c : Option Byte) :
    (s.setSeat n st c).pending = s.pending ∧ (s.setSeat n st c).dev = s.dev ∧ (s.setSeat n st c).stamp = s.stamp ∧
    (s.setSeat n st c).chosen = s.chosen ∧ (s.setSeat n st c).play = s.play ∧
    (s.setSeat n st c).phaseNext = s.phaseNext ∧ (s.setSeat n st c).seqs = s.seqs ∧
    (s.setSeat n st c).ops = s.ops ∧ (s.setSeat n st c).nextOp = s.nextOp ∧ (s.setSeat n st c).sync = s.sync ∧
    (s.setSeat n st c).time = s.time ∧ (s.setSeat n st c).rel = s.rel ∧ (s.setSeat n st c).fw = s.fw ∧
    (s.setSeat n st c).objs = s.objs ∧ (s.setSeat n st c).clk = s.clk ∧ (s.setSeat n st c).arr = s.arr ∧
    (s.setSeat n st c).links = s.links ∧ (s.setSeat n st c).power = s.power ∧ (s.setSeat n st c).boot = s.boot ∧
    (s.setSeat n st c).mgmt = s.mgmt ∧ (s.setSeat n st c).kdp = s.kdp ∧ (s.setSeat n st c).sec = s.sec ∧
    (s.setSeat n st c).maint = s.maint ∧ (s.setSeat n st c).fab = s.fab ∧ (s.setSeat n st c).table = s.table ∧
    (s.setSeat n st c).groups = s.groups ∧ (s.setSeat n st c).unitMap = s.unitMap ∧
    (s.setSeat n st c).deckBuf = s.deckBuf ∧ (s.setSeat n st c).deckFacts = s.deckFacts ∧
    (s.setSeat n st c).keyBind = s.keyBind ∧ (s.setSeat n st c).keyGen = s.keyGen ∧
    (s.setSeat n st c).freeCtr = s.freeCtr := by
  unfold State.setSeat
  simp

@[simp] theorem State.setPending_frame (s : State) (n : Nat) :
    (s.setPending n).pending = s.pending ∧ (s.setPending n).dev = s.dev ∧ (s.setPending n).host = s.host ∧
    (s.setPending n).chosen = s.chosen ∧ (s.setPending n).play = s.play ∧
    (s.setPending n).phaseNext = s.phaseNext ∧ (s.setPending n).seqs = s.seqs ∧ (s.setPending n).ops = s.ops ∧
    (s.setPending n).nextOp = s.nextOp ∧ (s.setPending n).sync = s.sync ∧ (s.setPending n).memory = s.memory ∧
    (s.setPending n).time = s.time ∧ (s.setPending n).rel = s.rel ∧ (s.setPending n).fw = s.fw ∧
    (s.setPending n).objs = s.objs ∧ (s.setPending n).clk = s.clk ∧ (s.setPending n).arr = s.arr ∧
    (s.setPending n).links = s.links ∧ (s.setPending n).power = s.power ∧ (s.setPending n).boot = s.boot ∧
    (s.setPending n).mgmt = s.mgmt ∧ (s.setPending n).kdp = s.kdp ∧ (s.setPending n).sec = s.sec ∧
    (s.setPending n).maint = s.maint ∧ (s.setPending n).fab = s.fab ∧ (s.setPending n).table = s.table ∧
    (s.setPending n).groups = s.groups ∧ (s.setPending n).unitMap = s.unitMap ∧
    (s.setPending n).deckBuf = s.deckBuf ∧ (s.setPending n).deckFacts = s.deckFacts ∧
    (s.setPending n).keyBind = s.keyBind ∧ (s.setPending n).keyGen = s.keyGen ∧
    (s.setPending n).freeCtr = s.freeCtr ∧ (s.setPending n).out = s.out := by
  unfold State.setPending
  split <;> simp

@[simp] theorem State.respond_frame (s : State) (p : CmdPort) (c n : Nat) (st : Status) (r : Nat) :
    (s.respond p c n st r).pending = s.pending ∧ (s.respond p c n st r).dev = s.dev ∧
    (s.respond p c n st r).seats = s.seats ∧ (s.respond p c n st r).stamp = s.stamp ∧
    (s.respond p c n st r).chosen = s.chosen ∧ (s.respond p c n st r).play = s.play ∧
    (s.respond p c n st r).phaseNext = s.phaseNext ∧ (s.respond p c n st r).seqs = s.seqs ∧
    (s.respond p c n st r).ops = s.ops ∧ (s.respond p c n st r).nextOp = s.nextOp ∧
    (s.respond p c n st r).sync = s.sync ∧ (s.respond p c n st r).memory = s.memory ∧
    (s.respond p c n st r).time = s.time ∧ (s.respond p c n st r).rel = s.rel ∧ (s.respond p c n st r).fw = s.fw ∧
    (s.respond p c n st r).objs = s.objs ∧ (s.respond p c n st r).clk = s.clk ∧
    (s.respond p c n st r).arr = s.arr ∧ (s.respond p c n st r).links = s.links ∧
    (s.respond p c n st r).power = s.power ∧ (s.respond p c n st r).boot = s.boot ∧
    (s.respond p c n st r).mgmt = s.mgmt ∧ (s.respond p c n st r).kdp = s.kdp ∧
    (s.respond p c n st r).sec = s.sec ∧ (s.respond p c n st r).maint = s.maint ∧
    (s.respond p c n st r).fab = s.fab ∧ (s.respond p c n st r).table = s.table ∧
    (s.respond p c n st r).groups = s.groups ∧ (s.respond p c n st r).unitMap = s.unitMap ∧
    (s.respond p c n st r).deckBuf = s.deckBuf ∧ (s.respond p c n st r).deckFacts = s.deckFacts ∧
    (s.respond p c n st r).keyBind = s.keyBind ∧ (s.respond p c n st r).keyGen = s.keyGen ∧
    (s.respond p c n st r).out = s.out := by
  unfold State.respond
  dsimp only
  cases p <;> simp

end Sys2Proof.Machine
end

