-- ==== Sys2Proof/Tests/Slice0.lean ====
section
/-! SUPPORT. Tests: for every statement with hypotheses, states and operands that meet them, clause by clause; the spec's worked cases;
and an ill-formed command for each check of WellFormed. -/

namespace Sys2Proof.Machine
open Sys2Proof

set_option linter.unusedVariables false
set_option Elab.async false

/-- An expert session's channel. -/
def wExp : Channel := .mctp false 8 true

/-- A LIVE package with 16 seat entries, two VFs, no seat in use, and one expert session. -/
def wLive : State :=
  { dev := .live
    host := { linkUp := true, numVfs := 2, tableSize := 16, tableBase := 2 }
    boot := { perstLow := false, beenLive := true, cause := 1, scope := 4 }
    clk := { source := 2, xtalGood := true, pllLock := true, div := 4, ledger := 4 }
    power := { good := 0x7FFFF }
    kdp := { sessions := [{ id := 1, ch := wExp, expert := true }], lastId := 1 } }

/-- `wLive` with seat `n` as given. -/
def wSeat (n : Nat) (i : SeatInfo) : State := { wLive with seats := [(n, i)] }

/-- Bytes `d` placed at offset `off`. -/
def wPut (b : List Byte) (off : Nat) (d : List Byte) : List Byte := b.take off ++ d ++ b.drop (off + d.length)

/-- The 512 bytes of a seat-table entry: tenant 5, owner 1, key slot 3, a deck at address 0, and one window of 1 MiB at 0x100000. -/
def wEntry : List Byte :=
  wPut (wPut (wPut (wPut (wPut (zeros 512) 1 [1, 5, 0, 1]) 0x11 [3, 0xFF, 0xFF]) 0x28 [0, 0, 3])
    0x32 [16, 0, 0, 0, 16, 0, 0, 0, 4, 0]) 0x80 ([0, 0, 0x10, 0, 0, 0, 0, 0] ++ [0, 0, 0x10, 0, 0, 0, 0x17, 0])

/-- `wLive` with that entry in the table at seat 1. -/
def wTable : State := { wLive with memory := ({} : Memory).write 0 0x20200 (good wEntry) }

/-- A deck of eight streams of 4,096 bytes, with a constant pool. -/
def wDeck : Deck :=
  { size := 0x40000, constOff := 0x1000, constSize := 0x100, phaseCount := 2, phaseOff := 0x8000, eprogCount := 1
    streams := List.replicate 8 { off := 0x2000, len := 0x1000, entry := 0 } }

/-- Seat 1 PLAYING: one window in the far tier; with `host` its deck lies in host memory. -/
def wPlaying (host : Bool) : SeatInfo :=
  { state := .playing, cached := true, inc := 1, deck := some wDeck, eprogs := [[{ op := .mov 0 (.imm 0) }]]
    entry := { format := 1, tenant := 5, owner := 1, keySlot := 3, cdCount := 16, pkgCount := 16, lockCount := 4, groupQuota := 4
               deckHandle := if host then 2 ^ 44 else 0
               windows := [{ base := 0x100000, size := 0x100000, r := true, w := true, x := true }
                           , { base := 2 ^ 48, size := 0x100000, r := true, w := true, x := true }] } }

/-- The package plays seat 1. -/
def wPlay : State := { wLive with seats := [(1, wPlaying false)], play := some { seat := 1, phase := .issuing } }
/-- The same with the deck in host memory. -/
def wHost : State := { wPlay with seats := [(1, wPlaying true)] }
/-- `wHost` whose deck's one phase gives every slot to the owner whose code both halves of byte `b` hold. -/
def wSlots (b : Byte) : State := { wPlay with seats := [(1, { wPlaying true with phases := List.replicate 159744 (b, false) })] }
/-- An instruction of CD 3's sequencer, and one of CD 0's. -/
def wI : Issue := { cd := 3, bytes := 8 }
def wI0 : Issue := { cd := 0, bytes := 8 }
/-- `wPlay` with loop level 2 of CD 3 as given. -/
def wLoop (l : LoopLvl) : State := wPlay.modSeq 3 fun q => { q with ctx := { q.ctx with lc := [(2, l)] } }
/-- The sequencer that stands at gang instruction `f c` on each CD. -/
def wGang (f : Nat → Instr) : State :=
  (List.range 8).foldl (fun s c => s.modSeq c fun q => { q with gang := some (f c) }) wPlay

/-- One BF16 row of one column, and a one-column FP32 output. -/
def wTen : Tensor := { format := 2, rows := 1, cols := 1, rowStride := 64 }
def wOut : Tensor := { format := 1, rows := 1, cols := 1, rowStride := 64 }
/-- A 1 × 1 × k product. -/
def wMma (k : Nat) : MmaArgs := { tag := 1, m := 1, n := 1, k := k, outFormat := 1, a := wTen, b := wTen, c := wOut }
/-- WLD of that product's B. -/
def wWld : WldArgs := { tag := 1, n := 1, k := 1, b := wTen }
/-- The product as the gang point fixes it, with its one tile on CD 3. -/
def wProd (k : Nat) (queue : Bool) : Prod :=
  { mmaProd (wMma k) 0 (List.replicate 8 wTen) (List.replicate 8 wTen) (List.replicate 8 wOut) (List.replicate 8 none) (List.replicate 8 none)
    with toQueue := queue, tiles := [{ seg := 0, row0 := 0, rows := 1, col0 := 0, cols := 1, cd := 3 }] }
/-- An operation of unit `u` on CD `c` of seat 1. -/
def wOp (id c : Nat) (u : OpUnit) (i : Instr) (data : List Byte) (vals : List Nat) : Op :=
  { id := id, cd := c, unit := u, seat := 1, inc := 1, pc := 0, instr := i, data := data, vals := vals }
/-- An LD.N of CD 0 that waits for phase 0, which gives the narrow view every slot. -/
def wNarrow : State :=
  { (wSlots 0x44).modSeq 0 fun q => { q with pend := [{ dst := .s 4, src := .ldn, op := some 7 }] } with
    ops := [wOp 7 0 .narrow (.ldN wI0 (.s 4) (.imm 8)) [] [8]], phaseNext := some (0, []) }
/-- `wPlay`, whose slots are the array's and the vector engine's, with array operation `o` at the head of its queue, and CD 3's slice as
given; and the same with no slot of any unit. -/
def wArr (p : Prod) (started : Bool) (g : SliceProg) : ArrOp := { id := 7, prod := p, started := started, prog := [(3, g)] }
def wArrays (o : ArrOp) : State := { wSlots 0x31 with ops := [wOp 7 0 .array (.nop wI) [] []], arr := { prods := [o] } }
def wNoSlots (s : State) : State := { s with seats := wHost.seats }
/-- The descriptor of an MMAG with one segment of one row. -/
def wMmagDesc : List Byte :=
  wPut (wPut (wPut (wPut (zeros 96) 0 [1]) 4 [1, 0, 0, 0, 1, 0, 0, 0, 0, 4, 2, 2, 1]) 0x34 [1]) 0x44 [1]
def wMmag : MmagArgs := { tag := 1, desc := 0, bs := [wTen] }
def wMmags : State :=
  (List.range 8).foldl (fun s c => s.modSeq c fun q => { q with gangDesc := wMmagDesc }) (wGang fun _ => .mmag wI wMmag)
/-- An MVP of one batch row, whose W lies in CD 3's near tier, and the seat that may read it. -/
def wMvp (k : Nat) : MvpArgs :=
  { batch := 1, n := .imm 1, k := .imm (BitVec.ofNat 64 k), wAddr := 0, w := wTen, x := wTen, out := wOut }
def wNear : State := { wPlay with seats := [(1, { wPlaying false with
  entry := { (wPlaying false).entry with windows := [{ base := nearBase + 3 * 0x200000000, size := 0x100000, r := true, x := true }] } })] }
def wMvps (k : Nat) (g : MvpProg) : State :=
  { wNear with ops := [wOp 7 3 .mvp (.mvp wI (wMvp k)) [] []], arr := { mvp := [(3, g)] } }
/-- The same on CD 0, with a deck in the far tier whose first phase gives a slot on each near-tier channel of CD 0 and on its first slab port to
the MVP. -/
def wMvpOp : Op := wOp 7 0 .mvp (.mvp wI0 (wMvp 64)) [] []
def wMvpRuns (g : MvpProg) : State :=
  { wPlay with seats := [(1, { wPlaying false with
                                entry := { (wPlaying true).entry with windows :=
                                  [{ base := nearBase, size := 0x100000, r := true }, { base := 0x100000, size := 0x100000, x := true }] } })]
               memory := (0x108000 :: (List.range 32).map fun c => 0x10A600 + 128 * c).foldl (fun m a => m.write 0 a (good [0x22])) {}
               ops := [wMvpOp], arr := { mvp := [(0, g)] } }
/-- A tile-queue entry of one element, and CD 3's queue with `n` of them. -/
def wTile (avail : Bool) : TEntry := { op := 7, n := 1, row0 := 0, col0 := 0, rows := 1, cols := 1, tag := 1, filled := 1, avail := avail }
def wTiles (n : Nat) : State :=
  let s := wArrays (wArr (wProd 1 true) true {})
  { s with ops := s.ops ++ [wOp 9 3 .vec (.vrun wI { block := 0 }) [] []]
           arr := { s.arr with queues := [(3, { entries := List.replicate n (wTile true), mmas := [7], vruns := [9] })] } }
/-- The same with a VRUN that reads a mask, and no slot. -/
def wMaskOp : Op := wOp 9 3 .vec (.vrun wI { block := 0 }) (wPut (zeros 256) 0x10 [1]) []
def wMasked : State := wNoSlots { wTiles 1 with ops := [wOp 7 0 .array (.nop wI) [] [], wMaskOp] }
/-- A DMA copy of 64 bytes as DMA engine 1 of CD 0 holds it, from device address `a`. -/
def wDmaDesc (op : Byte) : List Byte := wPut (zeros 64) 0x10 [64, 0, 0, 0, 1, 0, 0, 0, 1, 0, 0, 0, op]
def wDmaOp (op : Byte) (a : Nat) : Op := wOp 7 0 (.dma 1) (.dma wI0 1 0) (wDmaDesc op) [a, 0x180000]
def wDma (op : Byte) (a : Nat) : State := { wSlots 0x66 with ops := [wDmaOp op a] }
/-- One burst of it with the hops as given, to device address `b`; the slots belong to the owner in `o`. -/
def wBurst (stage : Nat) (hops : List Hop) (b : Nat) : Burst :=
  { id := 2, op := 7, src := 0x100000, dst := b, len := 1, data := [(5, false)], stage := stage, hops := hops }
def wBursts (o : Byte) (stage : Nat) (hops : List Hop) (b : Nat) : State :=
  { wSlots o with ops := [wDmaOp 0 0x100000], memory := { bursts := [wBurst stage hops b] } }
/-- The WDL hop from CD 0 to CD 1. -/
def wHop : List Hop := hopsOf false 0 1

/-- Slice 0 of link 0, whose key is 0, and the control slice of the link, whose key is 128. -/
def wSl (n : Fin 129) : SliceId := { link := 0, dir := false, slice := n }
/-- Trained links with one sender and one receiver as given, under key `k`. -/
def wLinks (k : Nat) (x : LinkSend) (r : LinkRecv) : State := { wLive with links := { trained := true, send := [(k, x)], recv := [(k, r)] } }
/-- Eight frames whose payloads leave no remainder: seven with the beats that follow them, and the beat 0 of the eighth. -/
def wBeats : List (BitVec 128) := 0xFFFFFFFF :: List.replicate 254 0
def wMarked : Nat → BitVec 128
  | 0 => beat0 0 true false false 0 0
  | n + 1 => beat0 (BitVec.ofNat 16 (n + 1)) true false false 0
      (BitVec.ofNat 32 (crcBits 32 0x04C11DB7 0 (beatBits (wMarked n) 32 32)) ^^^ 0xFFFFFFFF)
def wSearch : List (BitVec 128) := (List.range 7).flatMap fun n => wMarked n :: wBeats
def wEighth : BitVec 128 := wMarked 7
/-- A control slice's held frame whose beats are `l`. -/
def wHeld (l : List (BitVec 128)) : LinkHeld := { seq := 0, missed := false, crc := 0, raw := [], payload := l, mism := [] }
/-- A set of key and salt, the bytes of a flit sealed under it with the counter of its kind, and port 33 up and as given with that set. -/
def wSet : List Byte := (List.range 36).map (BitVec.ofNat 8)
def wFlit (f : Flit) (ctr : Nat) : List Byte := flitBytes wSet ctr f
def wUp (p : Port) : Port := { p with state := .active, fs := 1, rxSet := wSet }
def wNull (ctr : Nat) : List Byte := wFlit { payload := leBytes 8 ctr } ctr
/-- Table 1: this package at position 0, slot 0; position 1 holds slot 1 and deals where `d` is 1; fabric secret in use. -/
def wTab (d : Nat) : State :=
  { wLive with
    table := { id := 1, position := 0, seen := true
               roster := { dealer := d, epoch := 4, entries := { state := 2, slot := 0, revision := 6 } :: { state := 2, slot := 1, revision := 6 } :: List.replicate 16 {} }
               base := { dealer := d, epoch := 4, entries := { state := 2, slot := 0 } :: { state := 2, slot := 1 } :: List.replicate 16 {} } }
    fw := { wire := 6, pkgInc := 1 }, sec := { fs := some 5, fsGen := 1 } }
/-- Table 1 while position 1 is JOINING. -/
def wJoin : State :=
  { wTab 0 with table := { (wTab 0).table with roster := { (wTab 0).table.roster with entries := { state := 2, slot := 0 } :: { state := 1 } :: List.replicate 16 {} } } }
/-- Port `n` of `wTab` as given. -/
def wPort (n : Nat) (p : Port) : State := { wTab 1 with fab := { ports := [(n, p)] } }
/-- A HELLO of wire revision `v` that echoes count 4. -/
def wHello (v : Nat) : HelloMsg :=
  { revision := v, tableId := 1, position := 1, port := 0, serial := 7, trumpCredits := 8, bulkCredits := 8, count := 1, echo := 4 }
/-- A packet `p` that port 5 has delivered, before and after a unit takes it. -/
def wRx (s : State) (p : Packet) : State := { s with fab := { s.fab with rx := [(5, p)] } }
def wTook (s : State) : State := { s with fab := { s.fab with rx := [] } }
/-- `wTab` with seat 1, tenant 5, whose window 0 peers may read and write. -/
def wPeer : State := { wTab 1 with seats := [(1, { state := .seated, inc := 1
                                                   entry := { tenant := 5, pkgCount := 16, windows := [{ base := 0x100000, size := 0x1000, r := true, w := true, c := true }] } })] }
/-- `wPeer` whose IPS links have failed. -/
def wPeerCut : State := { wPeer with links := { failed := (List.range 16).map (· + 16) } }
/-- Group 9 of tenant 5: this package's seat 1 is rank 0, position 1's seat 6 is rank 1. -/
def wGroup (colls : List Coll) (deals : List Deal) : Group :=
  { tenant := 5, id := 9, seat := 1, cd := 3, cls := 0, rank := 0, hash := 0, colls := colls, deals := deals
    members := [{ table := 1, slot := 0, seat := 1, inc := some 1 }, { table := 1, slot := 1, seat := 6, inc := some 2 }] }
def wGroups (g : Group) : State := { wPeer with groups := [g] }
/-- The same while the seat plays with no slot of any unit. -/
def wGroupsIdle (g : Group) : State := { wNoSlots wPlay with table := (wTab 1).table, fw := (wTab 1).fw, sec := (wTab 1).sec, groups := [g] }
/-- A collective of that group that waits for its peer. -/
def wColl (opcode : Nat) (format : Byte) : Coll :=
  { seq := 1, op := 7, hash := 3, opcode := opcode, peers := [1], count := 1, root := 1, stage := 3, format := format, copied := true }
def wRec (seq hash : Nat) : CollRec := { group := 9, tenant := 5, rank := 1, sequence := seq, hash := hash, incarnation := 2 }
/-- A packet of group 9 from position 1. -/
def wPkt (op : Byte) (arg : Word) (tag : Half) (data : List Byte) : Packet :=
  { op := op, tag := tag, tenant := 5, group := 9, srcPos := 1, incarnation := 2, arg := arg, data := data }
/-- A burst of `wPlay`'s engine that waits for a reply from position 1. -/
def wAway (wr : Bool) : Burst :=
  { id := 2, op := 7, src := if wr then 0x100000 else 17 * 2 ^ 48, dst := if wr then 17 * 2 ^ 48 else 0x100000, len := 1, stage := 3
    data := if wr then [(5, false)] else [] }
def wAways (wr : Bool) : State :=
  { wTab 1 with ops := [wDmaOp 0 0], memory := { bursts := [wAway wr] } }
/-- A remote add whose status is due. -/
def wRadd : RemoteAdd :=
  { tag := 4, seat := 1, inc := 1, cd := 3, dst := .s 4, sent := true, table := 1, slot := 1, pkt := wPkt 5 0 4 [] }
/-- Connection 0, open or in phase `ph`, whose trump stream is as given, with spine port 64 up. -/
def wConn (ph sends : Nat) (st : SpineStream) : Conn :=
  { phase := ph, table := 2, slot := 3, position := 4, peerId := 9, serial := 7, sends := sends, trump := st }
def wSpine (c : Conn) : State :=
  { wTab 1 with fab := { ports := [(64, { state := .active })], conns := [(0, some c)] } }
def wCtrl (rev redirect : Nat) : CtrlMsg :=
  { revision := rev, tableId := 2, position := 4, slot := 3, serial := 7, connection := 9, redirect := redirect, ctr := 1, srcAddr := 5 }
/-- A frame of connection 0 that passes the checks of its port; and frames with the tag that connection `c` looks for. -/
def wFrame (psn : Nat) : SpineFrame := { conn := 0, bulk := false, psn := psn, dst := leNat ((wTab 1).ownAddr 64).reverse }
def wTagged (c : Conn) (ack : Bool) (fr : SpineFrame) : SpineFrame :=
  { fr with tag := (frameSeal ((c.readSets fr.keyPhase).drop 36) fr ack ((c.stream fr.bulk).extend ack fr.psn)).drop (fr.packets.flatMap packetBytes).length }
/-- A CTRL frame of kind `k` that passes them. -/
def wCtrlOk (k : Nat) (m : CtrlMsg) : CtrlMsg := { m with dst := leNat ((wTab 1).ownAddr 64).reverse, tag := (ctrlSeal 5 k m).drop 64 }
def wSpineUp : State := { wTab 1 with fab := { ports := [(64, { state := .active })] } }
/-- `wPlay` at that table with a descriptor in CD 3's slab. -/
def wDesc (b : List Byte) : State :=
  { wPlay with table := (wTab 1).table, memory := ({} : Memory).write 0 (slabAddr 3 0) (good b) }
/-- The descriptors of a BARRIER of group 9 and of its CREATE. -/
def wBarrier : List Byte := wPut (zeros 64) 0 [9, 0, 7]
def wCreate : List Byte := wPut (wPut (zeros 80) 0 [9, 0, 0, 0, 2]) 0x40 [1, 0, 0, 0, 1, 0, 0, 0, 1, 0, 1, 0, 6]
/-- A CREATE of one member. -/
def wCreate1 : List Byte := wPut (wPut (zeros 72) 0 [9, 0, 0, 0, 1]) 0x40 [1, 0, 0, 0, 1]
/-- The descriptor of a DEAL.CNT with rows of 64 bytes. -/
def wDeal : List Byte := wPut (wPut (wPut (zeros 128) 0x15 [1, 2]) 0x18 [64]) 0x20 [1]
/-- A deal of group 9 with sequence 1, whose exchange has not run; one whose descriptor is known; and a member that plays and gives the deal unit
every slot. -/
def wDealIn (desc : List Byte) : Deal := { ord := 0, seq := some 1, cds := if desc = [] then [] else [(3, { desc := desc })] }
def wDealer (p : Packet) : State :=
  wRx { wSlots 0x99 with table := (wTab 1).table, fw := (wTab 1).fw, groups := [wGroup [] [wDealIn wDeal]] } p
/-- `wLive` whose expert session's channel stands, with a message `m` of that session. -/
def wAsk : State := { wLive with kdp := { wLive.kdp with secured := [(false, 8, true)] } }
def wSess : Session := { id := 1, ch := wExp, expert := true }
def wMsg (index sub : Nat) (data : List Byte) : KdpMsg := { sequence := 1, session := 1, index := index, sub := sub, data := data }
def wCap : Obj := obj 2 "power_cap" .u32 .rw .retained 3000
/-- `wLive` with one request `r` open. -/
def wReq (r : Req) : State := { wLive with fw := { wLive.fw with reqs := [r] } }
/-- `wPeer` whose pool holds the far-tier block at 2 ^ 33, with hosted dummies `hs`. -/
def wPool (hs : List Hosted) : State := { wTab 1 with rel := { pool := 2 }, maint := { hosted := hs } }
def wHosted (scrub : Option Nat) : Hosted := { pos := 1, serial := 7, seat := 3, tenant := 5, base := 0x200000000, length := 0x20000, scrub := scrub }
/-- `wTable` with a deck's header at device address 0x100000. -/
def wDecked : State :=
  { wTable with memory := wTable.memory.write 0 0x100000 (good ([0x44, 0x45, 0x43, 0x4B, 0, 3, 0, 2, 0, 0, 0, 0, 0, 0x80, 2, 0] ++ zeros 20
      ++ [1, 0, 0, 0, 0, 0x10, 0, 0] ++ zeros 20
      ++ ((List.range 8).flatMap fun n => leBytes 4 (0x200 + 64 * n) ++ [64, 0, 0, 0] ++ zeros 8) ++ zeros 320)) }

/-- The remainder of the payload `wBeats` is 0, and the search finds the eight markers. -/
theorem frameCrc_wBeats (p : BitVec 128) :
    frameCrc p wBeats = BitVec.ofNat 32 (crcBits 32 0x04C11DB7 0 (beatBits p 32 32)) ^^^ 0xFFFFFFFF := by
  have h0 : crcBits 32 0x04C11DB7 0xFFFFFFFF (beatBits 0xFFFFFFFF 0 128) = 0 := by decide +kernel
  have h1 : crcBits 32 0x04C11DB7 0 (beatBits 0 0 128) = 0 := by decide +kernel
  have hz : ∀ n, (List.replicate n (0 : BitVec 128)).foldl (fun c x => crcBits 32 0x04C11DB7 c (beatBits x 0 128)) 0 = 0 := by
    intro n
    induction n with
    | zero => rfl
    | succ n ih => rw [List.replicate_succ, List.foldl_cons, h1, ih]
  unfold frameCrc wBeats
  rw [List.foldl_cons, h0, hz]
theorem wSearch_locks : lockAt (wSearch ++ [wEighth]) = some 0 := by
  have hb : ∀ n, n < 7 → ((wSearch ++ [wEighth]).drop (0 + 256 * n + 1)).take 255 = wBeats := by decide +kernel
  have hc : candOk (wSearch ++ [wEighth]) 0 = true := by
    unfold candOk
    rw [Bool.and_eq_true, List.all_eq_true]
    refine ⟨by decide +kernel, fun n hn => ?_⟩
    have hn := List.mem_range.1 hn
    simp only [hb n hn, frameCrc_wBeats]
    revert n
    decide +kernel
  unfold lockAt
  rw [List.find?_range_eq_some]
  exact ⟨hc, by decide +kernel, fun j hj => absurd hj (Nat.not_lt_zero j)⟩
/-- Operands without N:M positions load clean tiles. -/
theorem loadsClean_of (s : State) (o : ArrOp) (c : Nat) (h : ∀ g ∈ o.prod.segs, ∀ t ∈ g.b, t.keep = 0) : s.loadsClean o c := by
  intro tl _ q
  have hl : ∀ t ∈ o.prod.bShares tl, t.keep = 0 := by
    unfold Prod.bShares
    rw [List.getD_eq_getElem?_getD]
    cases hg : o.prod.segs[tl.seg]? with
    | none => simp
    | some g => exact h g (List.mem_of_getElem? hg)
  have hh : ∀ tb own n, (bHome (o.prod.bShares tl) tb own n).2.1.keep = 0 := by
    intro tb own n
    unfold bHome
    simp only [List.getD_eq_getElem?_getD]
    cases hg : (o.prod.bShares tl)[(shareOf (o.prod.bShares tl) own (holdsCol tb n)).getD own]? with
    | none => rfl
    | some t => exact hl t (List.mem_of_getElem? hg)
  unfold State.badGroup
  rw [Option.map_eq_none_iff, List.find?_eq_none]
  intro x hx
  obtain ⟨k, -, j, -, rfl⟩ : ∃ k, k ∈ _ ∧ ∃ j, j ∈ List.range tl.cols ∧ _ = x := by simpa only [List.mem_flatMap, List.mem_map] using hx
  split <;> simp [hh]

theorem witness_StepRunsTheFrontCommand :
    (∃ (s : State), s.pending = [] ∧ (s.clk.source = 0 ∨ s.power.tripLow = true))
    ∧ (∃ (s : State), s.pending = [] ∧ 2 ≤ s.clk.source ∧ s.power.tripLow = false ∧ s.time.stepDue = none ∧ s.keeperCounts = true)
    ∧ (∃ (s : State), s.pending = [] ∧ 2 ≤ s.clk.source ∧ s.power.tripLow = false ∧ s.time.stepDue = none ∧ s.keeperCounts = false ∧ s.play = none ∧
      s.time.freq = 0 ∧ s.time.slew = 0) :=
  ⟨⟨{ wLive with clk := {} }, by decide +kernel⟩,
   ⟨{ wLive with dev := .doze }, by decide +kernel⟩,
   ⟨wLive, by decide +kernel⟩⟩

theorem witness_SeatCommandsTakeEffect :
    (∃ (s : State) (p : CmdPort) (n : Nat), s.takes p n ∧ (s.seat n).state = SeatState.seated)
    ∧ (∃ (s : State) (p : CmdPort) (n : Nat), s.takes p n ∧ (s.seat n).state = SeatState.halted ∧ ((s.seat n).fromPlaying = true → (s.seat
      n).slabIntact = true))
    ∧ (∃ (s : State) (p : CmdPort) (n : Nat), s.takes p n ∧ ((s.seat n).state = SeatState.seated ∨ (s.seat n).state = SeatState.halted ∨ (s.seat
      n).state = SeatState.playing))
    ∧ (∃ (s : State) (p : CmdPort) (n : Nat), s.takes p n ∧ p = CmdPort.seatCmd ∧ (s.seat n).state = SeatState.parked ∧ (s.seat n).cached = false ∧
      s.fnEnabled (s.ownerNow n) = true ∧ s.mapOk n = true)
    ∧ (∃ (s : State) (p : CmdPort) (n : Nat), s.takes p n ∧ p = CmdPort.seatCmd ∧ ((s.seat n).state = SeatState.seated ∨ (s.seat n).state =
      SeatState.halted))
    ∧ (∃ (s : State) (p : CmdPort) (n : Nat), s.takes p n ∧ p = CmdPort.seatCmd ∧ ((s.seat n).state = SeatState.seated ∨ (s.seat n).state =
      SeatState.halted ∨ (s.seat n).state = SeatState.parked))
    ∧ (∃ (s : State) (p : CmdPort) (n : Nat), s.takes p n ∧ p = CmdPort.seatCmd ∧ (s.seat n).state = SeatState.seated ∧ (s.seat n).cached = true ∧
      (s.seat n).pinned = false ∧ s.pinnedCount < s.pinMax) :=
  ⟨⟨wSeat 15 { state := .seated, cached := true }, .seatCmd, 15, by unfold State.takes State.judges; decide +kernel, by decide +kernel⟩,
   ⟨wSeat 0 { state := .halted, cached := true, fromPlaying := true, slabIntact := true }, .doorbell 0, 0, by unfold State.takes State.judges; decide +kernel,
     by decide +kernel, by decide +kernel⟩,
   ⟨wSeat 1 { state := .playing, cached := true, entry := { owner := 2 } }, .doorbell 2, 1, by unfold State.takes State.judges; decide +kernel,
     by decide +kernel⟩,
   ⟨wSeat 2 { state := .parked, entry := { owner := 2 } }, .seatCmd, 2, by unfold State.takes State.judges; decide +kernel, by decide +kernel⟩,
   ⟨wSeat 2 { state := .halted, cached := true }, .seatCmd, 2, by unfold State.takes State.judges; decide +kernel, by decide +kernel,
     by decide +kernel⟩,
   ⟨wSeat 2 { state := .parked }, .seatCmd, 2, by unfold State.takes State.judges; decide +kernel, by decide +kernel, by decide +kernel⟩,
   ⟨wSeat 2 { state := .seated, cached := true }, .seatCmd, 2, by unfold State.takes State.judges; decide +kernel, by decide +kernel⟩⟩

theorem witness_HostRegistersTakeWrites :
    (∃ (s : State) (f : Func), s.bar0Open = false ∨ s.fnEnabled f.val = false)
    ∧ (∃ (s : State) (f : Func), s.bar0Open = true ∧ s.fnEnabled f.val = true ∧ s.host.d3hot = true)
    ∧ (∃ (s : State) (f : Func), s.hostReaches f.val ∧ s.liveSeats = [])
    ∧ (∃ (s : State) (f : Func) (v : Word), s.hostReaches f.val ∧ s.liveSeats = [] ∧ BitVec.toNat v % 2 ^ 13 ≤ 4096)
    ∧ (∃ (s : State) (f : Func) (v : Word), s.hostReaches f.val ∧ 4096 < BitVec.toNat v % 2 ^ 13)
    ∧ (∃ (s : State) (f : Func), s.hostReaches f.val ∧ s.liveSeats ≠ [])
    ∧ (∃ (s : State) (f : Func) (data : List Byte), s.hostReaches f.val ∧ data.length = 8)
    ∧ (∃ (s : State) (f : Func) (data : List Byte), s.hostReaches f.val ∧ data.length = 8 ∧ f.val = 0)
    ∧ (∃ (s : State) (f : Func) (e : Event) (es : List Event), s.hostReaches f.val ∧ (s.fn f.val).events = e :: es)
    ∧ (∃ (s : State) (f : Func), s.hostReaches f.val ∧ (s.fn f.val).events = [])
    ∧ (∃ (s : State) (f : Func), s.hostReaches f.val) :=
  ⟨⟨wLive, 3, by decide +kernel⟩,
   ⟨{ wLive with host := { wLive.host with d3hot := true } }, 1, by decide +kernel⟩,
   ⟨wLive, 2, by decide +kernel⟩,
   ⟨wLive, 2, 0x1000, by decide +kernel⟩,
   ⟨wLive, 0, 0x1001, by decide +kernel⟩,
   ⟨wSeat 0 { state := .parked }, 0, by decide +kernel⟩,
   ⟨wLive, 2, [1, 0, 0, 0, 0, 0, 0, 0], by decide +kernel⟩,
   ⟨wLive, 0, [1, 0, 0, 0, 0, 0, 0, 0], by decide +kernel⟩,
   ⟨wLive.modFn 1 fun q => { q with events := [⟨3, .halted, 4, 1⟩] }, 1, ⟨3, .halted, 4, 1⟩, [], by decide +kernel⟩,
   ⟨wLive, 0, by decide +kernel⟩,
   ⟨wLive, 0, by decide +kernel⟩⟩

theorem witness_MailboxWindowsCarryMessages :
    (∃ (s : State) (f : Func), s.hostReaches f.val ∧ (s.fn f.val).inPost = false ∧ (s.fn f.val).inLen.toNat ≤ 1280)
    ∧ (∃ (s : State) (f : Func), s.hostReaches f.val ∧ (s.fn f.val).inPost = false ∧ 1280 < (s.fn f.val).inLen.toNat)
    ∧ (∃ (s : State) (f : Func), s.hostReaches f.val ∧ (s.fn f.val).inPost = true)
    ∧ (∃ (s : State) (f : Func) (off : Nat) (data : List Byte), s.hostReaches f.val ∧ (s.fn f.val).inPost = true ∧ 1536 ≤ off ∧ off + data.length ≤
      2816)
    ∧ (∃ (s : State) (f : Func) (off : Nat) (data : List Byte), s.hostReaches f.val ∧ (s.fn f.val).inPost = true ∧ 512 ≤ off ∧ off + data.length ≤
      520)
    ∧ (∃ (s : State) (f : Func), s.hostReaches f.val ∧ (s.fn f.val).outFull = true)
    ∧ (∃ (s : State) (f : Func), s.hostReaches f.val ∧ (s.fn f.val).inPost = true ∧ s.dev = DevState.live ∧ (List.filter (fun (x : Req) => x.f ==
      f.val) s.fw.reqs).length < 8)
    ∧ (∃ (s : State) (f : Func), s.hostReaches f.val)
    ∧ (∃ (s : State) (f : Func) (m : List Byte) (ms : List (List Byte)), s.hostReaches f.val ∧ (s.fn f.val).outFull = false ∧ (s.fn f.val).outQ = m
      :: ms ∧ field m 12 4 = BitVec.toNat (s.fn f.val).hostInc)
    ∧ (∃ (s : State) (f : Func) (m : List Byte) (ms : List (List Byte)), s.hostReaches f.val ∧ (s.fn f.val).outFull = false ∧ (s.fn f.val).outQ = m
      :: ms ∧ field m 12 4 ≠ BitVec.toNat (s.fn f.val).hostInc) :=
  ⟨⟨wLive.modFn 1 fun q => { q with inLen := 1280 }, 1, by decide +kernel⟩,
   ⟨wLive.modFn 1 fun q => { q with inLen := 1281 }, 1, by decide +kernel⟩,
   ⟨wLive.modFn 1 fun q => { q with inPost := true }, 1, by decide +kernel⟩,
   ⟨wLive.modFn 1 fun q => { q with inPost := true }, 1, 0xAFC, [1, 2, 3, 4], by decide +kernel⟩,
   ⟨wLive.modFn 1 fun q => { q with inPost := true }, 1, 0x204, [1, 2, 3, 4], by decide +kernel⟩,
   ⟨wLive.modFn 1 fun q => { q with outFull := true }, 1, by decide +kernel⟩,
   ⟨wLive.modFn 1 fun q => { q with inPost := true }, 1, by decide +kernel⟩,
   ⟨wLive.modFn 1 fun q => { q with inPost := true }, 1, by decide +kernel⟩,
   ⟨wLive.modFn 1 fun q => { q with outQ := [zeros 32], hostInc := 0 }, 1, zeros 32, [], by decide +kernel⟩,
   ⟨wLive.modFn 1 fun q => { q with outQ := [zeros 32], hostInc := 7 }, 1, zeros 32, [], by decide +kernel⟩⟩

theorem witness_FunctionsAndWindowAnswerTheHost :
    (∃ (s : State) (f : Func), f.val ≠ 0 ∧ s.fnEnabled f.val = true)
    ∧ (∃ (s : State) (n : Nat), n < s.host.numVfs)
    ∧ (∃ (s : State) (n : Nat), s.host.numVfs < n ∧ n ≤ 63)
    ∧ (∃ (s : State) (off : Nat) (data : List Byte), s.bar2Open = true ∧ off + data.length ≤ s.bar2Size ∧ s.host.bar2Offset.toNat * 1073741824 + off
      + data.length ≤ farEnd ∧ s.pathClear 8 (memCd s.memory.bandMode (s.host.bar2Offset.toNat * 1073741824 + off)) = true)
    ∧ (∃ (s : State) (off : Nat) (len : Nat), s.bar2Open = true ∧ off + len ≤ s.bar2Size ∧ s.host.bar2Offset.toNat * 1073741824 + off + len ≤ farEnd
      ∧ s.pathClear 8 (memCd s.memory.bandMode (s.host.bar2Offset.toNat * 1073741824 + off)) = true ∧ s.pathClear (memCd s.memory.bandMode
      (s.host.bar2Offset.toNat * 1073741824 + off)) 8 = true)
    ∧ (∃ (s : State) (w : Bool) (off : Nat) (len : Nat) (data : List Byte), s.bar2Open = true ∧ (s.host.bar2Offset.toNat * 1073741824 + off + if w =
      true then data.length else len) ≤ farEnd ∧ s.pathClear 8 (memCd s.memory.bandMode (s.host.bar2Offset.toNat * 1073741824 + off)) = false)
    ∧ (∃ (s : State) (w : Bool) (off : Nat) (len : Nat) (data : List Byte), s.bar2Open = false ∧ s.dozes = false ∧ (off + if w = true then
      data.length else len) ≤ s.bar2Size)
    ∧ (∃ (s : State) (w : Bool) (off : Nat) (len : Nat) (data : List Byte), s.bar2Size < off + if w = true then data.length else len) :=
  ⟨⟨wLive, 2, by decide +kernel⟩,
   ⟨wLive, 1, by decide +kernel⟩,
   ⟨wLive, 63, by decide +kernel⟩,
   ⟨{ wLive with host := { wLive.host with bar2Offset := 383 } }, 0x3FFFFFFE, [1, 2], by decide +kernel⟩,
   ⟨{ wLive with host := { wLive.host with bar2Offset := 383 } }, 0x3FFFFFFE, 2, by decide +kernel⟩,
   ⟨{ wLive with links := { failed := [0, 1, 2, 3, 4, 5, 6, 7, 8, 9, 10] } }, true, 0, 0, [1], by decide +kernel⟩,
   ⟨{ wLive with dev := .rom }, true, 0, 0, [1], by decide +kernel⟩,
   ⟨wLive, true, 2 ^ 40, 0, [], by decide +kernel⟩⟩

/-! ## A deck of 160 KiB whose digest is right -/

/-- The header's bytes before the digest: one phase at 0x1000, eight streams of 64 bytes from 0x200 on. -/
def wDeckPre : List Byte :=
  [0x44, 0x45, 0x43, 0x4B, 0, 3, 0, 2, 0, 0, 0, 0, 0, 0x80, 2, 0] ++ zeros 20 ++ [1, 0, 0, 0, 0, 0x10, 0, 0] ++ zeros 20
    ++ (List.range 8).flatMap fun n => leBytes 4 (0x200 + 64 * n) ++ [64, 0, 0, 0] ++ zeros 8
def wBody : List Byte := zeros 163328
def wHead : List Byte := wDeckPre ++ (leBytes 48 (sha384 wBody) ++ zeros 272)
def wImage : List Byte := wHead ++ wBody
/-- What its header says. -/
def wDeckOf (digest : Nat) : Deck :=
  { magic := 0x4B434544, headerSize := 0x200, fciVersion := 0x300, size := 163840, phaseCount := 1, phaseOff := 0x1000, digest := digest
    streams := (List.range 8).map fun n => { off := 0x200 + 64 * n, len := 64, entry := 0 } }

theorem leNat_leBytes (n v : Nat) : leNat (leBytes n v) = v % 256 ^ n := by
  induction n generalizing v with
  | zero => simp [leBytes, leNat, Nat.mod_one]
  | succ n ih =>
    have : v % 256 ^ (n + 1) = v % 256 + 256 * (v / 256 % 256 ^ n) := by rw [Nat.pow_succ', Nat.mod_mul]
    simp [leBytes, leNat, ih, this]

theorem plain_good (l : List Byte) : plain (good l) = l := by simp [plain, good, Function.comp_def]
theorem anyPoison_good (l : List Byte) : anyPoison (good l) = false := by simp [anyPoison, good]

theorem leBytes_length (n v : Nat) : (leBytes n v).length = n := by
  induction n generalizing v with
  | zero => rfl
  | succ n ih => simp [leBytes, ih]

theorem field_append (p x : List Byte) (off len : Nat) (h : off + len ≤ p.length) : field (p ++ x) off len = field p off len := by
  unfold field
  rw [List.drop_append_of_le_length (by omega), List.take_append_of_le_length (by rw [List.length_drop]; omega)]

theorem wDeckPre_length : wDeckPre.length = 192 := by decide +kernel

theorem parseDeck_pre (x : List Byte) :
    parseDeck (wDeckPre ++ x) = wDeckOf (field (wDeckPre ++ x) 0xC0 48) := by
  have f : ∀ off len, off + len ≤ 192 → field (wDeckPre ++ x) off len = field wDeckPre off len := fun off len h =>
    field_append _ _ _ _ (by rw [wDeckPre_length]; exact h)
  have r : List.range 8 = [0, 1, 2, 3, 4, 5, 6, 7] := rfl
  unfold parseDeck
  rw [r]
  simp (disch := decide) only [List.map, f]
  generalize field (wDeckPre ++ x) 0xC0 48 = v
  have h : ({ parseDeck wDeckPre with digest := v } : Deck) = { wDeckOf 0 with digest := v } :=
    congrArg (fun (d : Deck) => { d with digest := v }) (show parseDeck wDeckPre = wDeckOf 0 by decide +kernel)
  exact h

theorem field_digest (v : Nat) (y : List Byte) : field (wDeckPre ++ (leBytes 48 v ++ y)) 0xC0 48 = leNat (leBytes 48 v) := by
  unfold field
  rw [← wDeckPre_length, List.drop_left, List.take_append_of_le_length (Nat.le_of_eq (leBytes_length 48 v).symm),
    List.take_of_length_le (Nat.le_of_eq (leBytes_length 48 v))]

theorem leNat_lt (l : List Byte) : leNat l < 256 ^ l.length := by
  induction l with
  | nil => simp [leNat]
  | cons b l ih =>
    have := b.isLt
    simp only [leNat, List.length_cons, Nat.pow_succ']
    omega

theorem sha384_lt (b : List Byte) : sha384 b < 256 ^ 48 := by
  have h : ∀ l : List Nat, (l.flatMap fun x => (leBytes 8 x).reverse).length = 8 * l.length := fun l => by
    induction l with
    | nil => rfl
    | cons x l ih => simp [leBytes_length, ih, Nat.mul_succ, Nat.add_comm]
  refine Nat.lt_of_lt_of_le (leNat_lt _) (Nat.pow_le_pow_right (by decide) ?_)
  unfold sha384Bytes
  rw [h, List.length_take]
  omega

theorem parseDeck_image : parseDeck wImage = wDeckOf (sha384 wBody) := by
  unfold wImage wHead
  rw [List.append_assoc, List.append_assoc, parseDeck_pre, field_digest, leNat_leBytes, Nat.mod_eq_of_lt (sha384_lt _)]

theorem wHead_length : wHead.length = 512 := by
  rw [wHead, List.length_append, List.length_append, leBytes_length, wDeckPre_length, zeros, List.length_replicate]

theorem wImage_length : wImage.length = 163840 := by
  rw [wImage, List.length_append, wHead_length, wBody, zeros, List.length_replicate]

theorem ownersOk_zeros (n count : Nat) : ownersOk (zeros n) count = true := by
  have h : ∀ a b k, ownerCode (((zeros n).drop a).take b) k = 0 := by
    intro a b k
    have h0 : (((zeros n).drop a).take b).getD (k / 2) 0 = 0 := by
      simp only [zeros, List.drop_replicate, List.take_replicate, List.getD_eq_getElem?_getD, List.getElem?_replicate]
      split <;> rfl
    unfold ownerCode
    rw [h0]
    exact (by split <;> rfl)
  simp [ownersOk, h]

/-- Seat 1 in ACTIVATE with that deck, read from outside the package. -/
def wStaged : State :=
  { wSeat 1 { entry := (wPlaying false).entry } with
    host := { wLive.host with cmdBusy := some ⟨.activate, .seatCmd, 1⟩ }, deckBuf := some (good wImage) }

theorem wStaged_first (v : Nat) : wStaged.deckFirst (wPlaying false).entry (wDeckOf v) 0 = .ok :=
  (show wStaged.deckFirst (wPlaying false).entry { wDeckOf 0 with digest := v } 0 = wStaged.deckFirst (wPlaying false).entry (wDeckOf 0) 0
    from rfl).trans (by decide +kernel)

theorem wStaged_bytes : wStaged.deckBytes (wPlaying false).entry = some (good wImage) := by
  have h : translate (wPlaying false).entry (wPlaying false).entry.deckHandle 512 .x = some (0x100000, false) := by decide
  have hl : (good wImage).length = 163840 := by simp [good, wImage_length]
  unfold State.deckBytes
  simp [h, wStaged, hl, plain_good, parseDeck_image, wDeckOf]

theorem wStaged_rest : wStaged.deckRest (wPlaying false).entry (wDeckOf (sha384 wBody)) wImage = .ok := by
  have h1 : (wImage.take 163840).drop 0x200 = wBody := by
    rw [List.take_of_length_le (Nat.le_of_eq wImage_length), wImage, ← wHead_length, List.drop_left]
  have h2 : wImage.drop 0x1000 = zeros 159744 := by
    rw [wImage, List.drop_append, wHead_length, List.drop_eq_nil_of_le (by rw [wHead_length]; decide)]
    simp only [wBody, zeros, List.drop_replicate, List.nil_append]
  have h3 : ∀ v, (wDeckOf v).size = 163840 := fun _ => rfl
  have h4 : ∀ v, (wDeckOf v).phaseOff = 0x1000 := fun _ => rfl
  have h5 : ∀ v, (wDeckOf v).digest = v := fun _ => rfl
  unfold State.deckRest
  rw [h3, h4, h5, h1, h2, ownersOk_zeros]
  simp only [ne_eq, not_true_eq_false, if_false]
  rfl

theorem witness_SeatsAreActivatedAndReleased :
    (∃ (s : State) (n : Nat) (facts : DeckFacts) (dev : Nat) (k : Bool) (e : Entry), e = parseEntry (plain (s.tableRaw n)) ∧ s.takes CmdPort.seatCmd
      n ∧ (s.seat n).state = SeatState.free ∧ s.chosen ≠ some n ∧ s.entryRead n (s.tableRaw n) = none ∧ s.entryOk n e = true ∧ s.entryClash n e =
      false ∧ translate e e.deckHandle 512 Acc.x = some (dev, k) ∧ routeOf dev = 0 ∧ anyPoison (s.readSlot (slotOf e k) dev 512) = false ∧
      s.deckFirst e (parseDeck (plain (s.readSlot (slotOf e k) dev 512))) facts.eprogBytes = Status.ok)
    ∧ (∃ (s : State) (n : Nat) (b : List PByte) (p : CmdPort) (e : Entry) (d : Deck), e = (s.seat n).entry ∧ d = parseDeck (plain b) ∧ s.host.cmdBusy
      = some { op := SeatOp.activate, port := p, seat := n : HeldCmd } ∧ s.deckBytes e = some b ∧ anyPoison b = false ∧ s.deckFirst e d
      s.deckFacts.eprogBytes = Status.ok ∧ s.deckRest e d (plain b) = Status.ok ∧ s.dozes = false ∧ factsOk s.deckFacts = true ∧ s.stageClash e =
      false ∧ s.bindOk e = true)
    ∧ (∃ (s : State) (n : Nat) (p : CmdPort), s.host.cmdBusy = some { op := SeatOp.release, port := p, seat := n } ∧ (s.seat n).releasing.isSome =
      true) :=
  ⟨⟨wDecked, 1, {}, 0x100000, false, parseEntry (plain (wDecked.tableRaw 1)), by decide +kernel, by unfold State.takes State.judges; decide +kernel,
     by decide +kernel⟩,
   ⟨wStaged, 1, good wImage, .seatCmd, (wPlaying false).entry, wDeckOf (sha384 wBody), by decide +kernel, (by rw [plain_good,
     parseDeck_image]), by decide +kernel, wStaged_bytes, anyPoison_good _, wStaged_first _, (by rw [plain_good]; exact wStaged_rest),
     by decide +kernel⟩,
   ⟨{ wSeat 1 { releasing := some 0 } with host := { cmdBusy := some ⟨.release, .seatCmd, 1⟩ } }, 1, .seatCmd, by decide +kernel⟩⟩

theorem witness_SeatEngineMovesSeats :
    (∃ (s : State) (n : Nat), s.dev = DevState.live ∧ s.dozes = false ∧ s.chosen = none ∧ s.play = none ∧ s.host.holdHalted = false ∧
      s.boot.blockBusy = false ∧ s.mapOk n = true ∧ (s.seat n).cached = true ∧ ready (s.seat n) = true ∧ (∀ (e : Nat × SeatInfo), e ∈ s.seats → e.fst
      ≠ n → ready e.snd = true → e.snd.entry.prio < (s.seat n).entry.prio ∨ e.snd.entry.prio = (s.seat n).entry.prio ∧ (s.seat n).pending.getD 0 <
      e.snd.pending.getD 0))
    ∧ (∃ (s : State) (n : Nat) (t0 : Word) (op : SeatOp) (e : Entry), e = parseEntry (plain (s.tableRaw n)) ∧ (s.seat n).loading = some (t0, op) ∧
      (s.seat n).state = SeatState.parked ∧ s.dev = DevState.live ∧ s.dozes = false ∧ s.occupied < 64 ∧ s.loadStatus n (s.tableRaw n) = Status.ok ∧
      (s.seat n).deferred = [] ∧ op ≠ SeatOp.pin)
    ∧ (∃ (s : State) (n : Nat), s.chosen = some n ∧ (s.seat n).state = SeatState.seated ∧ (s.seat n).cached = true ∧ ready (s.seat n) = true ∧ s.dev
      = DevState.live ∧ s.play = none ∧ (s.seat n).deferred = [])
    ∧ (∃ (s : State) (p : Play), s.play = some p ∧ p.phase = PlayPhase.ready ∧ s.clk.gated &&& s.seatDomains = 0)
    ∧ (∃ (s : State) (n : Nat) (t0 : Word) (src : Nat), (s.seat n).resetting = some (t0, src) ∧ s.taddPending n = false ∧ (s.seat n).parkAfter =
      false ∧ ((s.seat n).resetParked = false ∨ (s.seat n).cached = true) ∧ (src = 1 → (countReset (s.seat n) s.now s.time.epoch).snd = false))
    ∧ (∃ (s : State) (p : Play) (k : Nat), s.play = some p ∧ p.phase = PlayPhase.draining k ∧ s.busyUnits p.seat = false ∧ ((s.best fun (m : Nat) =>
      decide (m ≠ p.seat)) = none))
    ∧ (∃ (s : State) (p : Play), s.play = some p ∧ p.phase = PlayPhase.ending ∧ s.busyUnits p.seat = false)
    ∧ (∃ (s : State) (p : Play) (cause : Byte), s.play = some p ∧ p.phase = PlayPhase.halting cause ∧ s.busyUnits p.seat = false)
    ∧ (∃ (s : State) (n : Nat) (t0 : Word), (s.seat n).resetting = some (t0, 1) ∧ s.taddPending n = false ∧ (s.seat n).parkAfter = false ∧ ((s.seat
      n).resetParked = false ∨ (s.seat n).cached = true) ∧ (countReset (s.seat n) s.now s.time.epoch).snd = true)
    ∧ (∃ (s : State) (n : Nat) (p : CmdPort), s.judges p n ∧ (s.seat n).folded = true ∧ (s.seat n).state ≠ SeatState.free)
    ∧ (∃ (s : State) (n : Nat) (p : CmdPort), s.judges p n ∧ (s.seat n).folded = true ∧ (s.seat n).state ≠ SeatState.free ∧ p = CmdPort.seatCmd) :=
  ⟨
     ⟨{ wLive with seats := [(1, { state := .seated, cached := true, pending := some 5, entry := { prio := 2 } }), (2, { state := .seated, cached := true, pending := some 6, entry := { prio := 2 } }), (3, { state := .parked, pending := some 1, entry := { prio := 1 } })] },
     1, by decide +kernel⟩,
   ⟨{ wTable with seats := [(1, { state := .parked, loading := some (0, .seat) })] }, 1, 0, .seat, parseEntry wEntry, by decide +kernel⟩,
   ⟨{ wSeat 2 { state := .seated, cached := true, pending := some 1 } with chosen := some 2 }, 2, by decide +kernel⟩,
   ⟨{ wPlay with play := some { seat := 1, phase := .ready } }, { seat := 1, phase := .ready }, by decide +kernel⟩,
   ⟨wSeat 2 { state := .resetting, resetting := some (0, 1), cached := true }, 2, 0, 1, by decide +kernel⟩,
   ⟨{ wPlay with play := some { seat := 1, phase := .draining 0 } }, { seat := 1, phase := .draining 0 }, 0, by decide +kernel⟩,
   ⟨{ wPlay with play := some { seat := 1, phase := .ending } }, { seat := 1, phase := .ending }, by decide +kernel⟩,
   ⟨{ wPlay with play := some { seat := 1, phase := .halting 4 } }, { seat := 1, phase := .halting 4 }, 4, by decide +kernel⟩,
   ⟨wSeat 2 { state := .resetting, resetting := some (0, 1), cached := true, entry := { resetLimit := 1 } }, 2, 0, by decide +kernel⟩,
   ⟨wSeat 2 { state := .halted, folded := true, entry := { owner := 1 } }, 2, .doorbell 1, by unfold State.judges; decide +kernel⟩,
   ⟨wSeat 2 { state := .halted, folded := true }, 2, .seatCmd, by unfold State.judges; decide +kernel⟩⟩

theorem witness_ScalarInstructionsComputeResults :
    (∃ (s : State) (i : Issue) (d : Dst) (a : Src) (b : Src) (x : Word) (y : Word), x = s.src (↑i.cd) a ∧ y = s.src (↑i.cd) b ∧
      s.canIssue i [d] (srcReg a ++ srcReg b))
    ∧ (∃ (s : State) (i : Issue) (d : Dst) (a : Src) (b : Src) (x : Word) (y : Word), x = s.src (↑i.cd) a ∧ y = s.src (↑i.cd) b ∧
      s.canIssue i [d] (srcReg a))
    ∧ (∃ (s : State) (i : Issue) (d : Dst) (a : Src) (b : Src) (x : Word) (y : Word), x = s.src (↑i.cd) a ∧ y = s.src (↑i.cd) b ∧
      s.canIssue i [d] []) :=
  ⟨⟨wPlay, wI, .s 4, .s 5, .g 6, 0, 0, by decide +kernel, by decide +kernel, by unfold State.canIssue; decide +kernel⟩,
   ⟨wPlay, wI, .s 4, .s 5, .g 6, 0, 0, by decide +kernel, by decide +kernel, by unfold State.canIssue; decide +kernel⟩,
   ⟨wPlay, wI, .s 4, .s 5, .g 6, 0, 0, by decide +kernel, by decide +kernel, by unfold State.canIssue; decide +kernel⟩⟩

theorem witness_RegistersHoldWhatIsWritten :
    (∃ (d : Dst), d = Dst.s 0)
    ∧ (∃ (c : Nat) (k : Nat), k ≠ c) :=
  ⟨⟨.s 0, by decide +kernel⟩,
   ⟨0, 7, by decide +kernel⟩⟩

theorem witness_SignalsActAtIssue :
    (∃ (s : State) (i : Issue), s.canIssue i [] [] ∧ i.signal = none ∧ s.noLoopEnds ↑i.cd)
    ∧ (∃ (s : State) (i : Issue) (n : Nat) (v : Bool) (at' : Bool), s.canIssue i [] [] ∧ i.signal = some
      { target := Target.flag n v, atDone := at' })
    ∧ (∃ (s : State) (i : Issue) (k : Option Cd) (n : Nat) (m : Byte) (at' : Bool), s.canIssue i [] [] ∧ i.signal = some
      { target := Target.cdTally k n m, atDone := at' })
    ∧ (∃ (s : State) (i : Issue) (n : Nat) (m : Byte) (at' : Bool), s.canIssue i [] [] ∧ i.signal = some
      { target := Target.pkgTally n m, atDone := at' })
    ∧ (∃ (s : State) (i : Issue) (h : Fin 24) (at' : Bool), s.canIssue i [] [] ∧ i.signal = some
      { target := Target.host h, atDone := at' }) :=
  ⟨⟨wPlay, wI, by unfold State.canIssue; decide +kernel, by decide +kernel, by unfold State.noLoopEnds; decide +kernel⟩,
   ⟨wPlay, { wI with signal := some { target := .flag 63 true, atDone := false } }, 63, true, false,
     by unfold State.canIssue; decide +kernel, by decide +kernel⟩,
   ⟨wPlay, { wI with signal := some { target := .cdTally (some 7) 15 255, atDone := false } }, some 7, 15, 255, false,
     by unfold State.canIssue; decide +kernel, by decide +kernel⟩,
   ⟨wPlay, { wI with signal := some { target := .pkgTally 15 1, atDone := false } }, 15, 1, false,
     by unfold State.canIssue; decide +kernel, by decide +kernel⟩,
   ⟨wPlay, { wI with signal := some { target := .host 23, atDone := false } }, 23, false, by unfold State.canIssue; decide +kernel,
     by decide +kernel⟩⟩

theorem witness_UnmetWaitsStall :
    (∃ (s : State) (i : Issue) (d : Dst) (v : Word) (t : TallyRef) (x : Instr), (x = Instr.nop i ∨ x = Instr.li i d v ∨ x = Instr.tadd i t (Src.imm
      v)) ∧ s.issuing i.cd.val = true ∧ s.breakAt i.cd.val = false ∧ s.pc i.cd.val < (s.stream i.cd.val).len ∧ s.fetchHalt (i.cd.val) i.bytes =
      none ∧ indexFault s.playEntry i = none ∧ (waitRegs i).any (s.isPending i.cd.val) = false ∧ i.waits.all (s.condHolds i.cd.val) = false)
    ∧ (∃ (s : State) (i : Issue) (d : Dst) (v : Word) (t : TallyRef) (x : Instr), (x = Instr.nop i ∨ x = Instr.li i d v ∨ x = Instr.tadd i t (Src.imm
      v)) ∧ s.issuing i.cd.val = true ∧ s.breakAt i.cd.val = false ∧ s.pc i.cd.val < (s.stream i.cd.val).len ∧ s.fetchHalt (i.cd.val) i.bytes =
      none ∧ indexFault s.playEntry i = none ∧ (waitRegs i).any (s.isPending i.cd.val) = true)
    ∧ (∃ (s : State) (i : Issue) (d : Dst) (v : Word) (t : TallyRef) (x : Instr) (kind : Nat) (n : Nat), (x = Instr.nop i ∨ x = Instr.li i d v ∨ x =
      Instr.tadd i t (Src.imm v)) ∧ s.issuing i.cd.val = true ∧ s.breakAt i.cd.val = false ∧ s.pc i.cd.val < (s.stream i.cd.val).len ∧ s.fetchHalt
      (i.cd.val) i.bytes = none ∧ indexFault s.playEntry i = some (kind, n)) :=
  ⟨⟨wPlay, { wI with waits := [.cdTally 15 (.imm 1)] }, .s 1, 0, .own 0, .nop ({ wI with waits := [.cdTally 15 (.imm 1)] }), by decide +kernel⟩,
   ⟨wPlay.modSeq 3 fun q => { q with pend := [{ dst := .s 2, src := .ldn }] }, { wI with waits := [.cdTally 15 (.reg 2)] }, .s 1, 0, .own 0, .nop
     ({ wI with waits := [.cdTally 15 (.reg 2)] }), by decide +kernel⟩,
   ⟨wPlay, { wI with waits := [.cdTally 16 (.imm 0)] }, .s 1, 0, .own 0, .li ({ wI with waits := [.cdTally 16 (.imm 0)] }) (.s 1) 0, 0x100, 16,
     by decide +kernel⟩⟩

theorem witness_ScalarMemoryAndSpecialReads :
    (∃ (s : State) (i : Issue) (d : Dst) (a : Src), s.canIssue i [d] (srcReg a) ∧ i.signal = none ∧ BitVec.toNat (s.src (i.cd.val) a) % 8 = 0 ∧
      BitVec.toNat (s.src (i.cd.val) a) + 8 ≤ slabSize ∧ s.narrowServes (i.cd.val) (BitVec.toNat (s.src (i.cd.val) a)) = true ∧ anyPoison (s.readSlot
      0 (slabAddr (i.cd.val) (BitVec.toNat (s.src (i.cd.val) a))) 8) = false)
    ∧ (∃ (s : State) (i : Issue) (a : Src) (b : Src), s.canIssue i [] (srcReg a ++ srcReg b) ∧ i.signal = none ∧ BitVec.toNat (s.src (i.cd.val) a) %
      8 = 0 ∧ BitVec.toNat (s.src (i.cd.val) a) + 8 ≤ slabSize ∧ s.narrowServes (i.cd.val) (BitVec.toNat (s.src (i.cd.val) a)) = true)
    ∧ (∃ (s : State) (i : Issue) (d : Dst) (a : Src), s.canIssue i [d] (srcReg a) ∧ i.signal = none ∧ BitVec.toNat (s.src (i.cd.val) a) % 8 = 0 ∧
      BitVec.toNat (s.src (i.cd.val) a) + 8 ≤ slabSize ∧ s.narrowServes (i.cd.val) (BitVec.toNat (s.src (i.cd.val) a)) = false)
    ∧ (∃ (s : State) (i : Issue) (a : Src) (b : Src), s.canIssue i [] (srcReg a ++ srcReg b) ∧ i.signal = none ∧ BitVec.toNat (s.src (i.cd.val) a) %
      8 = 0 ∧ BitVec.toNat (s.src (i.cd.val) a) + 8 ≤ slabSize ∧ s.narrowServes (i.cd.val) (BitVec.toNat (s.src (i.cd.val) a)) = false)
    ∧ (∃ (s : State) (i : Issue) (d : Dst) (a : Src) (o : Nat) (dev : Nat) (k : Bool), o = BitVec.toNat (s.src (i.cd.val) a) ∧ s.canIssue i [d]
      (srcReg a) ∧ i.signal = none ∧ o % 8 = 0 ∧ o + 8 ≤ s.playDeck.constSize ∧ translate s.playEntry (s.playEntry.deckHandle + s.playDeck.constOff +
      o) 8 Acc.x = some (dev, k) ∧ routeOf dev = 0 ∧ anyPoison (s.readSlot (slotOf s.playEntry k) dev 8) = false)
    ∧ (∃ (s : State) (i : Issue) (d : Dst), s.canIssue i [d] [])
    ∧ (∃ (s : State) (i : Issue) (a : Src), s.canIssue i [] (srcReg a) ∧ BitVec.toNat (s.src (i.cd.val) a) ≤ 1024 ∧ i.signal = none)
    ∧ (∃ (s : State) (i : Issue) (a : Src), s.canIssue i [] (srcReg a) ∧ 1024 < BitVec.toNat (s.src (i.cd.val) a))
    ∧ (∃ (s : State) (d : Dst) (c : Cd) (p : Pend) (v : Word), List.find? (fun (q : Pend) => q.dst == d && q.value.isSome && q.src != PendSrc.lock)
      (s.seq c.val).pend = some p ∧ p.value = some v ∧ p.done = none ∧ (Option.any (fun (x : Nat × Nat) => x.fst == 8) p.tally = false ∨
      s.messageClear (c.val) 8 = true ∧ s.messageClear 8 c.val = true)) :=
  ⟨⟨wSlots 0x44, wI0, .s 4, .imm 0x09FFFFF8, by unfold State.canIssue; decide +kernel, by decide +kernel⟩,
   ⟨wSlots 0x44, wI0, .imm 0x09FFFFF8, .imm 1, by unfold State.canIssue; decide +kernel, by decide +kernel⟩,
   ⟨wPlay, wI, .s 4, .imm 0x09FFFFF8, by unfold State.canIssue; decide +kernel, by decide +kernel⟩,
   ⟨wPlay, wI, .imm 0x09FFFFF8, .imm 1, by unfold State.canIssue; decide +kernel, by decide +kernel⟩,
   ⟨wPlay, wI, .s 4, .imm 0xF8, 0xF8, 0x1010F8, false, by decide +kernel, by unfold State.canIssue; decide +kernel, by decide +kernel⟩,
   ⟨wPlay, wI, .s 4, by unfold State.canIssue; decide +kernel⟩,
   ⟨wPlay, wI, .imm 1024, by unfold State.canIssue; decide +kernel, by decide +kernel, by decide +kernel⟩,
   ⟨wPlay, wI, .imm 1025, by unfold State.canIssue; decide +kernel, by decide +kernel⟩,
   ⟨wPlay.modSeq 3 fun q => { q with pend := [{ dst := .s 4, src := .ldn, value := some 9 }] }, .s 4, 3,
     { dst := .s 4, src := .ldn, value := some 9 }, 9, by decide +kernel⟩⟩

theorem witness_LoopsAndBranchesMoveThePc :
    (∃ (s : State) (i : Issue) (c : Nat) (lvl : Fin 4) (count : Src) (last : Quad) (len : Nat), c = ↑i.cd ∧ i.signal = none ∧
      s.noLoopEnds c ∧ s.canIssue i [] (srcReg count) ∧ 0 < i.bytes ∧ (Tbl.get { } (s.seq c).ctx.lc ↑lvl).active = false ∧ s.pc c +
      i.bytes ≤ BitVec.toNat last ∧ BitVec.toNat last < (s.stream c).len ∧ ((List.all (s.seq c).ctx.lc fun (e : Nat × LoopLvl) =>
      !e.snd.active || decide (BitVec.toNat e.snd.start ≤ s.pc c + i.bytes) && decide (BitVec.toNat last + len ≤ lvlEnd e.snd)) = true) ∧
      BitVec.toNat (s.src c count) % 2 ^ 32 ≠ 0)
    ∧ (∃ (s : State) (i : Issue) (c : Nat) (lvl : Fin 4) (count : Src) (last : Quad) (len : Nat), c = ↑i.cd ∧ i.signal = none ∧
      s.noLoopEnds c ∧ s.canIssue i [] (srcReg count) ∧ (Tbl.get { } (s.seq c).ctx.lc ↑lvl).active = false ∧ s.pc c + i.bytes ≤
      BitVec.toNat last ∧ BitVec.toNat last < (s.stream c).len ∧ ((List.all (s.seq c).ctx.lc fun (e : Nat × LoopLvl) => !e.snd.active ||
      decide (BitVec.toNat e.snd.start ≤ s.pc c + i.bytes) && decide (BitVec.toNat last + len < lvlEnd e.snd)) = true) ∧ BitVec.toNat
      (s.src c count) % 2 ^ 32 = 0 ∧ (∀ (e : Nat × LoopLvl), e ∈ (s.seq c).ctx.lc → e.snd.active = true → e.snd.last ≠ last))
    ∧ (∃ (s : State) (i : Issue) (c : Nat), c = ↑i.cd ∧ i.signal = none ∧ s.noLoopEnds c ∧ s.canIssue i [] [])
    ∧ (∃ (s : State) (i : Issue) (c : Nat) (a : Src) (b : Src), c = ↑i.cd ∧ i.signal = none ∧ s.noLoopEnds c ∧ s.canIssue i [] (srcReg a
      ++ srcReg b)) :=
  ⟨⟨wPlay, wI, 3, 2, .imm 3, 0xFF8, 8, by decide +kernel, by decide +kernel, by unfold State.noLoopEnds; decide +kernel,
    by unfold State.canIssue; decide +kernel, by decide +kernel⟩,
   ⟨wPlay, wI, 3, 2, .imm 0, 0xFF8, 8, by decide +kernel, by decide +kernel, by unfold State.noLoopEnds; decide +kernel,
     by unfold State.canIssue; decide +kernel, by decide +kernel⟩,
   ⟨wPlay, wI, 3, by decide +kernel, by decide +kernel, by unfold State.noLoopEnds; decide +kernel,
     by unfold State.canIssue; decide +kernel⟩,
   ⟨wPlay, wI, 3, .s 4, .imm 0, by decide +kernel, by decide +kernel, by unfold State.noLoopEnds; decide +kernel,
     by unfold State.canIssue; decide +kernel⟩⟩

theorem witness_LoopsCountDown :
    (∃ (s : State) (i : Issue) (c : Nat) (n : Nat) (l : LoopLvl), c = ↑i.cd ∧ i.signal = none ∧ s.canIssue i [] [] ∧ (s.seq c).ctx.lc =
      [(n, l)] ∧ l.active = true ∧ BitVec.toNat l.last = s.pc c ∧ 1 < BitVec.toNat l.count)
    ∧ (∃ (s : State) (i : Issue) (c : Nat) (n : Nat) (l : LoopLvl), c = ↑i.cd ∧ i.signal = none ∧ s.canIssue i [] [] ∧ (s.seq c).ctx.lc =
      [(n, l)] ∧ l.active = true ∧ BitVec.toNat l.last = s.pc c ∧ BitVec.toNat l.count ≤ 1) :=
  ⟨⟨wLoop { active := true, count := 2, start := 0, last := 0, lastLen := 8 }, wI, 3, 2,
    { active := true, count := 2, start := 0, last := 0, lastLen := 8 }, by decide +kernel, by decide +kernel,
    by unfold State.canIssue; decide +kernel, by decide +kernel⟩,
   ⟨wLoop { active := true, count := 1, start := 0, last := 0, lastLen := 8 }, wI, 3, 2,
     { active := true, count := 1, start := 0, last := 0, lastLen := 8 }, by decide +kernel, by decide +kernel,
     by unfold State.canIssue; decide +kernel, by decide +kernel⟩⟩

theorem witness_SynchronisationInstructionsAct :
    (∃ (s : State) (i : Issue) (c : Nat) (r : TallyRef) (a : Src), c = ↑i.cd ∧ s.canIssue i [] (srcReg a) ∧ i.signal = none ∧ tallyFault
      s.playEntry r = none)
    ∧ (∃ (s : State) (i : Issue) (c : Nat) (d : Dst) (r : TallyRef) (u : Nat × Nat), c = ↑i.cd ∧ s.canIssue i [d] [] ∧ i.signal = none ∧
      tallyFault s.playEntry r = none ∧ u = refUnit c s.playEntry r)
    ∧ (∃ (s : State) (i : Issue) (c : Nat) (n : Nat), c = ↑i.cd ∧ n < 64 ∧ s.canIssue i [] [] ∧ i.signal = none)
    ∧ (∃ (s : State) (i : Issue) (c : Nat) (d : Dst) (gr : Half) (rank : Src) (a : Src) (g : Group) (m : Member), c = ↑i.cd ∧ s.canIssue
      i [d] (srcReg rank ++ srcReg a) ∧ i.signal = none ∧ (List.find? (fun (g : Group) => g.seat == s.playSeat && g.id == gr) s.groups =
      some g) ∧ g.members[BitVec.toNat (s.src c rank)]? = some m ∧ m.table ≠ s.table.id ∧ s.sync.remotes = [])
    ∧ (∃ (s : State) (i : Issue) (c : Nat), c = ↑i.cd ∧ s.issuing c = true ∧ (s.stream c).len ≤ s.pc c) :=
  ⟨⟨wPlay, wI, 3, .pkg 15, .s 2, by decide +kernel, by unfold State.canIssue; decide +kernel, by decide +kernel, by decide +kernel⟩,
   ⟨wPlay, wI, 3, .s 31, .onCd 5 15, (5, 15), by decide +kernel, by unfold State.canIssue; decide +kernel, by decide +kernel⟩,
   ⟨wPlay, wI, 3, 63, by decide +kernel, by decide +kernel, by unfold State.canIssue; decide +kernel, by decide +kernel⟩,
   ⟨{ wPlay with groups := [{ tenant := 5, id := 9, seat := 1, cd := 3, cls := 0, rank := 0, members := [{ table := 1, slot := 0, seat := 1 }, { table := 2, slot := 3, seat := 6 }], hash := 0 }], table := { id := 1, position := 0 } },
     wI, 3, .s 1, 9, .imm 1, .imm 1,
     { tenant := 5, id := 9, seat := 1, cd := 3, cls := 0, rank := 0, members := [{ table := 1, slot := 0, seat := 1 }, { table := 2, slot := 3, seat := 6 }], hash := 0 },
     { table := 2, slot := 3, seat := 6 }, by decide +kernel, by unfold State.canIssue; decide +kernel, by decide +kernel⟩,
   ⟨wPlay.modSeq 3 fun q => { q with ctx := { q.ctx with pc := 0x1000 } }, wI, 3, by decide +kernel⟩⟩

theorem witness_LocksPassInOrder :
    (∃ (s : State) (i : Issue) (c : Nat) (me : Nat × Quad × Nat) (d : Dst) (n : Nat) (l : Nat), c = ↑i.cd ∧ me = (s.playSeat, (s.seat
      s.playSeat).inc, c) ∧ s.canIssue i [d] [] ∧ i.signal = none ∧ n < s.playEntry.lockCount ∧ l = s.playEntry.lockBase + n ∧ ((s.lockAt
      l).state = 0 ∨ (s.lockAt l).state = 2))
    ∧ (∃ (s : State) (i : Issue) (c : Nat) (me : Nat × Quad × Nat) (d : Dst) (n : Nat) (l : Nat), c = ↑i.cd ∧ me = (s.playSeat, (s.seat
      s.playSeat).inc, c) ∧ s.canIssue i [d] [] ∧ i.signal = none ∧ n < s.playEntry.lockCount ∧ l = s.playEntry.lockBase + n ∧ (s.lockAt
      l).state = 1 ∧ (Option.any (fun (o : Nat × Quad × Nat) => o.fst == me.fst && o.snd.snd == c) (s.lockAt l).owner = false))
    ∧ (∃ (s : State) (i : Issue) (c : Nat) (me : Nat × Quad × Nat) (d : Dst) (v : Word), c = ↑i.cd ∧ me = (s.playSeat, (s.seat
      s.playSeat).inc, c) ∧ (s.seq c).pend = [{ dst := d, src := PendSrc.lock, value := some v }])
    ∧ (∃ (s : State) (i : Issue) (c : Nat) (me : Nat × Quad × Nat) (n : Nat) (l : Nat), c = ↑i.cd ∧ me = (s.playSeat, (s.seat
      s.playSeat).inc, c) ∧ s.canIssue i [] [] ∧ i.signal = none ∧ n < s.playEntry.lockCount ∧ l = s.playEntry.lockBase + n ∧ (s.lockAt
      l).state = 1 ∧ (Option.any (fun (o : Nat × Quad × Nat) => o.fst == s.playSeat && o.snd.snd == c) (s.lockAt l).owner = true) ∧
      ((s.sync.unlocks.any fun (u : Unlock) => u.cd == c && u.lock == l) = false))
    ∧ (∃ (s : State) (i : Issue) (c : Nat) (me : Nat × Quad × Nat) (u : Unlock), c = ↑i.cd ∧ me = (s.playSeat, (s.seat s.playSeat).inc,
      c) ∧ (List.find? (fun (x : Unlock) => x.cd == c) s.sync.unlocks = some u) ∧ ((u.after.any fun (id : Nat) => (s.opById id).isSome) =
      false) ∧ u.done = none ∧ (s.lockAt u.lock).state = 1 ∧ (Option.any (fun (o : Nat × Quad × Nat) => o.fst == u.seat && o.snd.snd ==
      u.cd) (s.lockAt u.lock).owner = true)) :=
  ⟨⟨{ wPlay with sync := { locks := [(3, { state := 2 })] } }, wI, 3, (1, 1, 3), .s 1, 3, 3, by decide +kernel, by decide +kernel,
    by unfold State.canIssue; decide +kernel, by decide +kernel⟩,
   ⟨{ wPlay with sync := { locks := [(3, { state := 1, owner := some (1, 1, 2) })] } }, wI, 3, (1, 1, 3), .s 1, 3, 3, by decide +kernel,
     by decide +kernel, by unfold State.canIssue; decide +kernel, by decide +kernel⟩,
   ⟨wPlay.modSeq 3 fun q => { q with lock := some 2, pend := [{ dst := .s 1, src := .lock, value := some 0 }] }, wI, 3, (1, 1, 3), .s 1,
     0, by decide +kernel⟩,
   ⟨{ wPlay with sync := { locks := [(3, { state := 1, owner := some (1, 1, 3) })] } }, wI, 3, (1, 1, 3), 3, 3, by decide +kernel,
     by decide +kernel, by unfold State.canIssue; decide +kernel, by decide +kernel⟩,
   ⟨{ wPlay with sync := { locks := [(3, { state := 1, owner := some (1, 1, 3) })], unlocks := [{ cd := 3, lock := 3, seat := 1, inc := 1, after := [] }] } },
     wI, 3, (1, 1, 3), { cd := 3, lock := 3, seat := 1, inc := 1, after := [] }, by decide +kernel⟩⟩

theorem witness_TallyUnitsApplyAdds :
    (∃ (s : State) (u : Option Cd) (k : Nat) (a : Add), (k = match u with | some c => c.val | none => 8) ∧ Tbl.get [] s.sync.inbox k = [a] ∧ (k = 8 →
      s.addArrived a = true) ∧ (k ≠ 8 → s.power.tallies = none) ∧ a.reply = none ∧ BitVec.toNat (s.tallyAt k a.tally) + a.amount < 2 ^ 64)
    ∧ (∃ (s : State) (u : Option Cd) (k : Nat) (a : Add) (n : Nat), (k = match u with | some c => c.val | none => 8) ∧ Tbl.get [] s.sync.inbox k =
      [a] ∧ (k ≠ 8 → s.power.tallies = none) ∧ a.src = AddSrc.own n ∧ a.seat = Option.map (fun (x : Play) => x.seat) s.play ∧ Option.map (fun (x :
      Play) => x.phase) s.play = some PlayPhase.issuing ∧ 2 ^ 64 ≤ BitVec.toNat (s.tallyAt k a.tally) + a.amount)
    ∧ (∃ (u : Option Cd) (k : Nat) (off : Nat), (k = match u with | some c => c.val | none => 8) ∧ off < 131072 ∧ off % 8 = 0)
    ∧ (∃ (u : Option Cd) (k : Nat) (off : Nat), (k = match u with | some c => c.val | none => 8) ∧ (131072 ≤ off ∨ off % 8 ≠ 0))
    ∧ (∃ (u : Option Cd) (k : Nat) (n : Nat), (k = match u with | some c => c.val | none => 8) ∧ n < 16384)
    ∧ (∃ (u : Option Cd) (k : Nat) (n : Nat), (k = match u with | some c => c.val | none => 8) ∧ n < 256)
    ∧ (∃ (s : State) (u : Option Cd) (k : Nat) (v : Word), (k = match u with | some c => c.val | none => 8) ∧ s.sec.level = 2 ∧ bits (BitVec.toNat v)
      0 2 = 2)
    ∧ (∃ (s : State) (u : Option Cd) (k : Nat) (v : Word), (k = match u with | some c => c.val | none => 8) ∧ s.sec.level = 2 ∧ bits (BitVec.toNat v)
      0 2 = 1)
    ∧ (∃ (s : State) (u : Option Cd) (k : Nat), (k = match u with | some c => c.val | none => 8) ∧ s.sec.level = 0) :=
  ⟨⟨{ wPlay with sync := { inbox := [(8, [{ tally := 7, amount := 1, src := .host, seat := some 1 }])], pkgTally := [(7, 0xFFFFFFFFFFFFFFFE)] } },
     none, 8, { tally := 7, amount := 1, src := .host, seat := some 1 }, by decide +kernel⟩,
   ⟨{ wPlay with sync := { inbox := [(8, [{ tally := 7, amount := 1, src := .own 0, seat := some 1 }])], pkgTally := [(7, 0xFFFFFFFFFFFFFFFF)] } },
     none, 8, { tally := 7, amount := 1, src := .own 0, seat := some 1 }, 0, by decide +kernel⟩,
   ⟨some 7, 7, 131064, by decide +kernel⟩,
   ⟨some 7, 7, 131072, by decide +kernel⟩,
   ⟨some 7, 7, 16383, by decide +kernel⟩,
   ⟨some 7, 7, 255, by decide +kernel⟩,
   ⟨{ wPlay with sec := { level := 2 } }, some 7, 7, 2, by decide +kernel⟩,
   ⟨{ wPlay with sec := { level := 2 } }, none, 8, 1, by decide +kernel⟩,
   ⟨wPlay, none, 8, by decide +kernel⟩⟩

theorem witness_GangInstructionsMeet :
    (∃ (s : State) (i : Issue) (tag : Byte) (n : Nat) (x : Instr), s.canIssue i [] [] ∧ (x = Instr.setph i tag n ∨ x = Instr.swpt i tag n ∨ x =
      Instr.end_ i tag))
    ∧ (∃ (s : State) (i : Issue) (g : Fin 16) (a : Src), s.canIssue i [] (Dst.g g :: srcReg a))
    ∧ (∃ (s : State) (tag : Byte) (is : Nat → Issue) (op : RdxOp) (g : Fin 16) (as : Nat → Src), (s.gangAt fun (c : Nat) => Instr.rdx (is c) tag op g
      (as c)) ∧ (∀ (c : Nat), c < 8 → ↑(is c).cd = c ∧ (is c).signal = none))
    ∧ (∃ (s : State) (tag : Byte) (n : Nat) (is : Nat → Issue), (s.gangAt fun (c : Nat) => Instr.setph (is c) tag n) ∧ (∀ (c : Nat), c < 8 → (is
      c).signal = none) ∧ n < s.playDeck.phaseCount)
    ∧ (∃ (s : State) (tag : Byte) (n : Nat) (is : Nat → Issue), (s.gangAt fun (c : Nat) => Instr.swpt (is c) tag n) ∧ (∀ (c : Nat), c < 8 → (is
      c).signal = none))
    ∧ (∃ (s : State) (tag : Byte) (is : Nat → Issue), (s.gangAt fun (c : Nat) => Instr.end_ (is c) tag) ∧ (∀ (c : Nat), c < 8 → (is c).signal =
      none))
    ∧ (∃ (s : State) (g : Nat → Instr) (c : Nat), s.gangAt g ∧ c < 8 ∧ s.gangKey c ≠ s.gangKey 0)
    ∧ (∃ (s : State) (n : Nat) (p : Play) (done : List (Nat × Target)), s.phaseNext = some (n, done) ∧ s.play = some p ∧ (∀ (o : Op), o ∈ s.ops →
      o.unit ≠ OpUnit.narrow))
    ∧ (∃ (s : State) (n : Nat) (p : Play) (o : Op) (a : Nat) (d : Dst), s.phaseNext = some (n, []) ∧ s.play = some p ∧ s.ops = [o] ∧ o.unit =
      OpUnit.narrow ∧ o.cd < 8 ∧ o.vals = [a] ∧ (s.seq o.cd).pend = [{ dst := d, src := PendSrc.ldn, op := some o.id }] ∧ (s.enterPhase n).ownsPort
      o.cd a OpUnit.narrow = true ∧ anyPoison (s.readSlot 0 (slabAddr o.cd a) 8) = false)
    ∧ (∃ (s : State) (cd : Cd) (k : Stall) (p : Play), s.obj 6357120 30000000 ≠ 0 ∧ s.play = some p ∧ p.phase = PlayPhase.issuing ∧ s.unitStall
      cd.val = some k)
    ∧ (∃ (s : State) (cd : Cd) (k : Stall) (p : Play), s.obj 6357120 30000000 ≠ 0 ∧ s.play = some p ∧ p.phase = PlayPhase.issuing ∧ (s.seq
      cd.val).stall = some k ∧ k.kind ≠ 2 ∧ (decide (k.kind = 1) && !k.conds.isEmpty && k.conds.all (s.condHolds cd.val)) = false)
    ∧ (∃ (s : State) (cd : Cd) (k : Stall) (p : Play), s.obj 6357120 30000000 ≠ 0 ∧ s.play = some p ∧ (s.seq cd.val).stall = some k ∧ k.kind = 1 ∧
      k.conds ≠ [] ∧ k.conds.all (s.condHolds cd.val) = true)
    ∧ (∃ (s : State) (id : Nat) (o : Op), s.opById id = some o ∧ s.isHead o = true ∧ o.fin = true ∧ (o.unit = OpUnit.mvp ∨ o.unit = OpUnit.array) ∧
      s.sync.remotes = [] ∧ s.groups = []) :=
  ⟨⟨wPlay, wI, 1, 0, .swpt wI 1 0, by unfold State.canIssue; decide +kernel, by decide +kernel⟩,
   ⟨wPlay, wI, 3, .s 2, by unfold State.canIssue; decide +kernel⟩,
   ⟨wGang fun c => .rdx { cd := Fin.ofNat 8 c, bytes := 8 } 1 .add 3 (.s 2), 1, fun c => { cd := Fin.ofNat 8 c, bytes := 8 }, .add, 3, fun _ => .s 2,
     by unfold State.gangAt; decide +kernel, by decide +kernel⟩,
   ⟨wGang fun _ => .setph wI 1 1, 1, 1, fun _ => wI, by unfold State.gangAt; decide +kernel, by decide +kernel, by decide +kernel⟩,
   ⟨wGang fun _ => .swpt wI 1 1, 1, 1, fun _ => wI, by unfold State.gangAt; decide +kernel, by decide +kernel⟩,
   ⟨wGang fun _ => .end_ wI 1, 1, fun _ => wI, by unfold State.gangAt; decide +kernel, by decide +kernel⟩,
   ⟨wGang fun c => .end_ wI (BitVec.ofNat 8 c), fun c => .end_ wI (BitVec.ofNat 8 c), 7, by unfold State.gangAt; decide +kernel, by decide +kernel,
     by decide +kernel⟩,
   ⟨{ wPlay with phaseNext := some (1, []) }, 1, { seat := 1, phase := .issuing }, [], by decide +kernel⟩,
   ⟨wNarrow, 0, { seat := 1, phase := .issuing }, wOp 7 0 .narrow (.ldN wI0 (.s 4) (.imm 8)) [] [8], 8, .s 4, by decide +kernel⟩,
   ⟨wMasked, 3, ⟨4, 4, 0, 0, 0, 0, []⟩, { seat := 1, phase := .issuing }, by decide +kernel⟩,
   ⟨wPlay.modSeq 3 fun q => { q with stall := some ⟨0, 0x100, 0, 1, 0, 0, []⟩ }, 3, ⟨0, 0x100, 0, 1, 0, 0, []⟩, { seat := 1, phase := .issuing },
     by decide +kernel⟩,
   ⟨wPlay.modSeq 3 fun q => { q with stall := some ⟨1, 0x200, 0, 0, 0, 0, [.flag 0 false]⟩ }, 3, ⟨1, 0x200, 0, 0, 0, 0, [.flag 0 false]⟩,
     { seat := 1, phase := .issuing }, by decide +kernel⟩,
   ⟨{ wPlay with ops := [{ id := 4, cd := 3, unit := .mvp, seat := 1, inc := 1, pc := 0, instr := .nop wI, fin := true }] }, 4,
     { id := 4, cd := 3, unit := .mvp, seat := 1, inc := 1, pc := 0, instr := .nop wI, fin := true }, by decide +kernel⟩⟩

theorem witness_ArrayInstructionsIssue :
    (∃ (s : State) (i : Issue) (c : Nat) (a : WldArgs), c = ↑i.cd ∧ s.canIssue i [] [] ∧ a.n ≤ 1048576 ∧ a.k ≤ 1048576 ∧ keepOk a.b.keep
      = true ∧ rateOf a.b.format ≠ 0 ∧ shareFits a.b (keptRows a.b a.b.rows) = true)
    ∧ (∃ (s : State) (i : Issue) (c : Nat) (a : MmaArgs), c = ↑i.cd ∧ s.canIssue i [] (srcReg a.seed) ∧ s.mmaCheck c a = none)
    ∧ (∃ (s : State) (i : Issue) (c : Nat) (a : MmagArgs), c = ↑i.cd ∧ s.canIssue i [] [] ∧ s.mmagCheck c a = none)
    ∧ (∃ (s : State) (i : Issue) (c : Nat) (a : WldArgs), c = ↑i.cd ∧ s.canIssue i [] [] ∧ (1048576 < a.n ∨ 1048576 < a.k ∨ rateOf
      a.b.format = 0))
    ∧ (∃ (s : State) (i : Issue) (c : Nat) (a : MmaArgs), c = ↑i.cd ∧ s.canIssue i [] (srcReg a.seed) ∧ (1048576 < a.m ∨ 1048576 < a.n ∨
      1048576 < a.k)) :=
  ⟨⟨wPlay, wI, 3, { wWld with n := 1048576, k := 1048576 }, by decide +kernel, by unfold State.canIssue; decide +kernel,
    by decide +kernel⟩,
   ⟨{ wPlay with arr := { bind := some (List.replicate 8 wWld) } }, wI, 3, wMma 1, by decide +kernel,
     by unfold State.canIssue; decide +kernel, by decide +kernel⟩,
   ⟨{ wPlay with memory := ({} : Memory).write 0 (slabAddr 3 0) (good (wPut wMmagDesc 0x44 [0])) }, wI, 3, wMmag, by decide +kernel,
     by unfold State.canIssue; decide +kernel, by decide +kernel⟩,
   ⟨wPlay, wI, 3, { wWld with n := 1048577 }, by decide +kernel, by unfold State.canIssue; decide +kernel, by decide +kernel⟩,
   ⟨wPlay, wI, 3, { wMma 1 with k := 1048577 }, by decide +kernel, by unfold State.canIssue; decide +kernel, by decide +kernel⟩⟩

theorem witness_GangPointStartsArrayOperations :
    (∃ (s : State) (is : Nat → Issue) (as : Nat → WldArgs), (∀ (c : Nat), c < 8 → (is c).signal = none ∧ s.gangKey c = s.gangKey 0) ∧ s.queued 0
      OpUnit.array < 8 ∧ (s.gangAt fun (c : Nat) => Instr.wld (is c) (as c)))
    ∧ (∃ (s : State) (is : Nat → Issue) (as : Nat → MmaArgs) (p : Prod) (ts : List Tile), (∀ (c : Nat), c < 8 → (is c).signal = none ∧ s.gangKey c =
      s.gangKey 0) ∧ s.queued 0 OpUnit.array < 8 ∧ (s.gangAt fun (c : Nat) => Instr.mma (is c) (as c)) ∧ (p = mmaProd (as 0) (s.src 0 (as 0).seed)
      (List.map (fun (c : Nat) => s.bOf c (as c)) (List.range 8)) (List.map (fun (c : Nat) => (as c).a) (List.range 8)) (List.map (fun (c : Nat) =>
      (as c).c) (List.range 8)) (List.map (fun (c : Nat) => (as c).zmap) (List.range 8)) (List.map (fun (c : Nat) => (as c).record) (List.range 8)))
      ∧ s.mapTiles p (as 0).tileMap = some ts ∧ ({ p with tiles := ts } : Prod).uncovered (as 0).m = false ∧ (as 0).m ≠ 0 ∧ (as 0).n ≠ 0 ∧ (as 0).k ≠
      0 ∧ (as 0).toQueue = false)
    ∧ (∃ (s : State) (is : Nat → Issue) (as : Nat → MmagArgs) (d : List Byte) (l : List SegEntry) (p : Prod) (ts : List Tile), (∀ (c : Nat), c < 8 →
      (is c).signal = none ∧ s.gangKey c = s.gangKey 0) ∧ s.queued 0 OpUnit.array < 8 ∧ (s.gangAt fun (c : Nat) => Instr.mmag (is c) (as c)) ∧ d =
      (s.seq 0).gangDesc ∧ l = s.segRows 0 d ∧ s.segPoison 0 d = false ∧ (∀ (c : Nat), c < 8 → mmagRows d (as c).bs l = true) ∧ p = mmagProd d
      (runOrder d l) (List.map as (List.range 8)) ∧ s.mapTiles p (as 0).tileMap = some ts ∧ s.gangBFault d l = none ∧ p.segs ≠ [] ∧ p.n ≠ 0 ∧ p.k ≠
      0) :=
  ⟨⟨wGang fun _ => .wld wI wWld, fun _ => wI, fun _ => wWld, by decide +kernel, by decide +kernel, by unfold State.gangAt; decide +kernel⟩,
   ⟨{ wGang fun _ => .mma wI (wMma 1) with arr := { bind := some (List.replicate 8 wWld) } }, fun _ => wI, fun _ => wMma 1, mmaProd (wMma 1) 0
     (List.replicate 8 wTen) (List.replicate 8 wTen) (List.replicate 8 wOut) (List.replicate 8 none) (List.replicate 8 none),
     [{ seg := 0, row0 := 0, rows := 1, col0 := 0, cols := 1, cd := 0 }], by decide +kernel, by decide +kernel, by unfold State.gangAt; decide +kernel,
     by decide +kernel⟩,
   ⟨wMmags, fun _ => wI, fun _ => wMmag, wMmagDesc, segEntries wMmagDesc, mmagProd wMmagDesc (segEntries wMmagDesc) (List.replicate 8 wMmag),
     [{ seg := 0, row0 := 0, rows := 1, col0 := 0, cols := 1, cd := 0 }], by decide +kernel, by decide +kernel, by unfold State.gangAt; decide +kernel,
     by decide +kernel⟩⟩

theorem witness_ArrayOperationsRun :
    (∃ (s : State) (o : ArrOp), s.arrOp = some o ∧ ∀ (c : Nat), c < 8 → s.loadsClean o c)
    ∧ (∃ (s : State) (o : ArrOp) (cd : Cd) (row : Nat) (pr : SliceProg) (tl : Tile), s.arrOp = some o ∧ pr = Tbl.get { : SliceProg } o.prog cd.val ∧
      o.started = true ∧ o.prod.k ≠ 0 ∧ o.prod.outStat = false ∧ o.prod.toQueue = false ∧ o.prod.accumulate = false ∧ row = pr.row ∧ pr.written ≤ row
      ∧ pr.fail = [] ∧ pr.toLoad = none ∧ (o.prod.tilesFor cd.val)[pr.tile]? = some tl ∧ s.rowOpen o (cd.val) tl row = true ∧ s.rowPoison o.prod tl
      row (if pr.pass = 0 then 0 else s.segsBy o.prod tl (pr.pass - 1)) (s.segsBy o.prod tl pr.pass) = false ∧ pr.pass + 1 < s.passes o.prod tl ∧
      (row + 1 < tl.rows ∨ s.loadsClean o cd.val))
    ∧ (∃ (s : State) (o : ArrOp) (cd : Cd) (row : Nat) (pr : SliceProg) (tl : Tile), s.arrOp = some o ∧ pr = Tbl.get { : SliceProg } o.prog cd.val ∧
      o.started = true ∧ o.prod.k ≠ 0 ∧ o.prod.outStat = false ∧ o.prod.toQueue = false ∧ o.prod.accumulate = false ∧ row = pr.row ∧ pr.written ≤ row
      ∧ pr.fail = [] ∧ pr.toLoad = none ∧ (o.prod.tilesFor cd.val)[pr.tile]? = some tl ∧ s.rowOpen o (cd.val) tl row = true ∧ s.rowPoison o.prod tl
      row (if pr.pass = 0 then 0 else s.segsBy o.prod tl (pr.pass - 1)) (s.segsBy o.prod tl pr.pass) = false ∧ pr.pass + 1 = s.passes o.prod tl ∧
      (row + 1 < tl.rows ∨ ({ s with memory := (s.writeRow o.prod tl row (s.rowPass o.prod tl row pr.pass)).fst.memory } : State).loadsClean o
      cd.val))
    ∧ (∃ (s : State) (o : ArrOp) (op : Op), s.arrOp = some o ∧ s.headOp 0 OpUnit.array = some op ∧ o.started = true ∧ o.ended = true ∧ o.prod.k ≠ 0 ∧
      (∀ (c : Nat), c < 8 → o.prod.records.getD c none = none) ∧ op.done = [])
    ∧ (∃ (s : State) (o : ArrOp) (cd : Cd) (row : Nat) (pr : SliceProg) (tl : Tile), s.arrOp = some o ∧ pr = Tbl.get { : SliceProg } o.prog cd.val ∧
      o.started = true ∧ o.prod.k ≠ 0 ∧ o.prod.outStat = false ∧ row = pr.row ∧ (o.prod.tilesFor cd.val)[pr.tile]? = some tl ∧ pr.toLoad = none ∧
      s.rowOpen o (cd.val) tl row = false)
    ∧ (∃ (s : State) (o : ArrOp) (cd : Cd) (row : Nat) (pr : SliceProg) (tl : Tile) (again : Bool), s.arrOp = some o ∧ pr = Tbl.get { : SliceProg }
      o.prog cd.val ∧ o.started = true ∧ o.prod.k ≠ 0 ∧ o.prod.outStat = false ∧ row = pr.row ∧ (o.prod.tilesFor cd.val)[pr.tile]? = some tl ∧
      pr.toLoad = some again ∧ (again = true ∨ pr.pass ≠ 0 ∨ o.prod.wld = none) ∧ s.sharesOpen (o.prod.bShares tl) o.prod.transB (cd.val) tl.col0
      tl.cols = false) :=
  ⟨⟨wArrays (wArr (wProd 1 false) false {}), wArr (wProd 1 false) false {}, by decide +kernel, fun c _ => loadsClean_of _ _ _ (by decide +kernel)⟩,
   ⟨wArrays (wArr (wProd 513 false) true {}), wArr (wProd 513 false) true {}, 3, 0, {},
     { seg := 0, row0 := 0, rows := 1, col0 := 0, cols := 1, cd := 3 },
     by and_intros <;> first | decide +kernel | exact Or.inr (loadsClean_of _ _ _ (by decide +kernel))⟩,
   ⟨wArrays (wArr (wProd 513 false) true { pass := 1 }), wArr (wProd 513 false) true { pass := 1 }, 3, 0, { pass := 1 },
     { seg := 0, row0 := 0, rows := 1, col0 := 0, cols := 1, cd := 3 },
     by and_intros <;> first | decide +kernel | exact Or.inr (loadsClean_of _ _ _ (by decide +kernel))⟩,
   ⟨wArrays (wArr (wProd 1 false) true { tile := 1 }), wArr (wProd 1 false) true { tile := 1 }, wOp 7 0 .array (.nop wI) [] [], by decide +kernel⟩,
   ⟨wNoSlots (wArrays (wArr (wProd 513 false) true {})), wArr (wProd 513 false) true {}, 3, 0, {},
     { seg := 0, row0 := 0, rows := 1, col0 := 0, cols := 1, cd := 3 }, by decide +kernel⟩,
   ⟨wNoSlots (wArrays (wArr (wProd 513 false) true { toLoad := some true })), wArr (wProd 513 false) true { toLoad := some true }, 3, 0,
     { toLoad := some true }, { seg := 0, row0 := 0, rows := 1, col0 := 0, cols := 1, cd := 3 }, true, by decide +kernel⟩⟩

theorem witness_ArrayChecksRetryOnce :
    (∃ (s : State) (o : ArrOp) (cd : Cd) (row : Nat) (pr : SliceProg) (tl : Tile) (r : Nat), s.arrOp = some o ∧ pr = Tbl.get { : SliceProg } o.prog
      cd.val ∧ o.started = true ∧ o.prod.k ≠ 0 ∧ (o.prod.tilesFor cd.val)[pr.tile]? = some tl ∧ (o.prod.outStat = true ∨ row = pr.row) ∧ s.rowOpen o
      (cd.val) tl row = true ∧ pr.toLoad = none ∧ pr.stopped = some (r, s.now) ∧ (o.prod.outStat = true ∨ r = row) ∧ s.loadsClean o cd.val)
    ∧ (∃ (s : State) (o : ArrOp) (cd : Cd) (row : Nat) (pr : SliceProg) (tl : Tile), s.arrOp = some o ∧ pr = Tbl.get { : SliceProg } o.prog cd.val ∧
      o.started = true ∧ o.prod.k ≠ 0 ∧ (o.prod.tilesFor cd.val)[pr.tile]? = some tl ∧ (o.prod.outStat = true ∨ row = pr.row) ∧ s.rowOpen o (cd.val)
      tl row = true ∧ pr.toLoad = none ∧ Option.map (fun (x : Nat × Word) => x.snd) pr.stopped ≠ some s.now ∧ o.prod.haltAtOnce = false ∧ pr.retried
      = false ∧ s.loadsClean o cd.val)
    ∧ (∃ (s : State) (o : ArrOp) (cd : Cd) (row : Nat) (pr : SliceProg) (tl : Tile), s.arrOp = some o ∧ pr = Tbl.get { : SliceProg } o.prog cd.val ∧
      o.started = true ∧ o.prod.k ≠ 0 ∧ (o.prod.tilesFor cd.val)[pr.tile]? = some tl ∧ (o.prod.outStat = true ∨ row = pr.row) ∧ s.rowOpen o (cd.val)
      tl row = true ∧ pr.toLoad = none ∧ Option.map (fun (x : Nat × Word) => x.snd) pr.stopped ≠ some s.now ∧ (o.prod.haltAtOnce = true ∨ pr.retried
      = true) ∧ Option.map (fun (x : Play) => x.phase) s.play = some PlayPhase.issuing)
    ∧ (∃ (s : State) (cd : Cd) (x : Plane) (l : List WldArgs) (p : Play), s.arrOp = none ∧ x = Tbl.get { : Plane } s.arr.planes cd.val ∧ s.arr.bind =
      some l ∧ x.ks ≠ [] ∧ x.wld = s.arr.boundBy ∧ x.again = false ∧ s.play = some p ∧ s.badGroup (List.map (fun (x : WldArgs) => x.b) l) x.transB
      (cd.val) x.col0 x.cols x.ks = none)
    ∧ (∃ (s : State) (cd : Cd) (row : Bool) (index : Nat) (a : Indic) (b : Indic) (d : Indic), s.arr.indics = [a, b, d] ∧ (∀ (k : Indic), k = a ∨ k =
      b ∨ k = d → k.cd = cd.val ∧ k.row = row ∧ k.index = index ∧ BitVec.toNat s.now % 2 ^ 60 ≤ BitVec.toNat k.time % 2 ^ 60 + 86400 * 1000000000) ∧
      ¬(cd.val, row, index) ∈ s.arr.soft)
    ∧ (∃ (s : State), s.arr.indics.length < 3) :=
  ⟨⟨wArrays (wArr (wProd 1 false) true { stopped := some (0, wPlay.now) }), wArr (wProd 1 false) true { stopped := some (0, wPlay.now) }, 3, 0,
     { stopped := some (0, wPlay.now) }, { seg := 0, row0 := 0, rows := 1, col0 := 0, cols := 1, cd := 3 }, 0,
     by and_intros <;> first | decide +kernel | exact loadsClean_of _ _ _ (by decide +kernel)⟩,
   ⟨wArrays (wArr (wProd 1 false) true {}), wArr (wProd 1 false) true {}, 3, 0, {},
     { seg := 0, row0 := 0, rows := 1, col0 := 0, cols := 1, cd := 3 },
     by and_intros <;> first | decide +kernel | exact loadsClean_of _ _ _ (by decide +kernel)⟩,
   ⟨wArrays (wArr (wProd 1 false) true { retried := true }), wArr (wProd 1 false) true { retried := true }, 3, 0, { retried := true },
     { seg := 0, row0 := 0, rows := 1, col0 := 0, cols := 1, cd := 3 }, by decide +kernel⟩,
   ⟨{ wPlay with arr := { bind := some [wWld], boundBy := some 4, planes := [(3, { wld := some 4, ks := [0] })] } }, 3, { wld := some 4, ks := [0] },
     [wWld], { seat := 1, phase := .issuing }, by decide +kernel⟩,
   ⟨{ wLive with time := { ns := 86400000000000 }, arr := { indics := [⟨3, true, 9, 0⟩, ⟨3, true, 9, 0⟩, ⟨3, true, 9, 0⟩] } }, 3, true, 9, ⟨3, true,
     9, 0⟩, ⟨3, true, 9, 0⟩, ⟨3, true, 9, 0⟩, by decide +kernel, by rintro k (rfl | rfl | rfl) <;> decide +kernel, by decide +kernel⟩,
   ⟨{ wLive with arr := { indics := [⟨3, true, 9, 0⟩, ⟨3, true, 9, 0⟩] } }, by decide +kernel⟩⟩

theorem witness_MvpComparesAndEnds :
    (∃ (s : State) (i : Issue) (a : MvpArgs) (c : Nat), c = ↑i.cd ∧ s.canIssue i [] (srcReg a.n ++ srcReg a.k ++ srcReg a.seed) (some
      OpUnit.mvp) ∧ i.signal = none ∧ s.mvpCheck c a = none)
    ∧ (∃ (s : State) (cd : Cd) (o : Op) (a : MvpArgs) (pr : MvpProg) (per : Nat), s.mvpOp ↑cd = some (o, a) ∧ pr = Tbl.get { } s.arr.mvp
      ↑cd ∧ per = s.mvpTiles (↑cd) a ∧ o.fin = false ∧ pr.next < (immOf a.n + mvpCols a - 1) / max (mvpCols a) 1 * per ∧
      s.mvpOpen (↑cd) a pr.next = false)
    ∧ (∃ (s : State) (cd : Cd) (o : Op) (a : MvpArgs) (pr : MvpProg) (per : Nat), s.mvpOp ↑cd = some (o, a) ∧ pr = Tbl.get { } s.arr.mvp
      ↑cd ∧ per = s.mvpTiles (↑cd) a ∧ o.fin = false ∧ pr.next < (immOf a.n + mvpCols a - 1) / max (mvpCols a) 1 * per ∧
      s.mvpOpen (↑cd) a pr.next = true ∧ (pr.next + 1) % per ≠ 0)
    ∧ (∃ (s : State) (cd : Cd) (o : Op) (a : MvpArgs) (pr : MvpProg) (per : Nat), s.mvpOp ↑cd = some (o, a) ∧ pr = Tbl.get { } s.arr.mvp
      ↑cd ∧ per = s.mvpTiles (↑cd) a ∧ o.fin = false ∧ pr.next < (immOf a.n + mvpCols a - 1) / max (mvpCols a) 1 * per ∧
      s.mvpOpen (↑cd) a pr.next = true ∧ pr.restarted = false)
    ∧ (∃ (s : State) (cd : Cd) (o : Op) (a : MvpArgs) (pr : MvpProg) (per : Nat), s.mvpOp ↑cd = some (o, a) ∧ pr = Tbl.get { } s.arr.mvp
      ↑cd ∧ per = s.mvpTiles (↑cd) a ∧ o.fin = false ∧ pr.next < (immOf a.n + mvpCols a - 1) / max (mvpCols a) 1 * per ∧
      s.mvpOpen (↑cd) a pr.next = true ∧ pr.restarted = true ∧ (Option.map (fun (x : Play) => x.phase) s.play = some PlayPhase.issuing))
    ∧ (∃ (s : State) (cd : Cd) (o : Op) (a : MvpArgs), s.mvpOp ↑cd = some (o, a) ∧ o.fin = false ∧ o.done = [] ∧ a.record = none ∧
      s.mvpTiles (↑cd) a ≠ 0 ∧ (immOf a.n + mvpCols a - 1) / max (mvpCols a) 1 * s.mvpTiles (↑cd) a ≤ (Tbl.get { } s.arr.mvp ↑cd).next) :=
  ⟨⟨wNear, wI, wMvp 1, 3, by decide +kernel, by unfold State.canIssue; decide +kernel, by decide +kernel, by decide +kernel⟩,
   ⟨wMvps 64 {}, 3, wOp 7 3 .mvp (.mvp wI (wMvp 64)) [] [], wMvp 64, {}, 2, by decide +kernel⟩,
   ⟨wMvpRuns {}, 0, wMvpOp, wMvp 64, {}, 2, by decide +kernel⟩,
   ⟨wMvpRuns { next := 1 }, 0, wMvpOp, wMvp 64, { next := 1 }, 2, by decide +kernel⟩,
   ⟨wMvpRuns { restarted := true }, 0, wMvpOp, wMvp 64, { restarted := true }, 2, by decide +kernel⟩,
   ⟨wMvps 64 { next := 2 }, 3, wOp 7 3 .mvp (.mvp wI (wMvp 64)) [] [], wMvp 64, by decide +kernel⟩⟩

theorem witness_EngineInstructionsIssue :
    (∃ (s : State) (i : Issue) (c : Nat) (a : VrunArgs), c = ↑i.cd ∧ i.signal = none ∧ s.canIssue i [] (List.map Dst.s a.params) (some
      OpUnit.vec) ∧ s.vrunCheck c a = none ∧ (vblock (plain (s.slabBytes c a.block 256))).tile = false)
    ∧ (∃ (s : State) (i : Issue) (c : Nat) (d : Dst) (a : VrunArgs), c = ↑i.cd ∧ i.signal = none ∧ s.canIssue i [d] (List.map Dst.s
      a.params) (some OpUnit.vec) ∧ s.vrunCheck c a = none ∧ (vblock (plain (s.slabBytes c a.block 256))).tile = false)
    ∧ (∃ (s : State) (i : Issue) (c : Nat) (desc : Nat), c = ↑i.cd ∧ i.signal = none ∧ s.canIssue i [] [] (some OpUnit.xps) ∧ s.xpsCheck
      c desc = none)
    ∧ (∃ (s : State) (i : Issue) (c : Nat) (engine : Fin 4) (desc : Nat), c = ↑i.cd ∧ i.signal = none ∧ s.canIssue i [] [] (some
      (OpUnit.dma ↑engine)) ∧ s.dmaCheck c (↑engine) desc = none)
    ∧ (∃ (s : State) (i : Issue) (c : Nat) (desc : Nat), c = ↑i.cd ∧ i.signal = none ∧ desc % 64 ≠ 0 ∧ s.canIssue i [] [] (some
      OpUnit.xps))
    ∧ (∃ (s : State) (i : Issue) (c : Nat) (desc : Nat) (e : Fin 4), c = ↑i.cd ∧ i.signal = none ∧ desc % 64 ≠ 0 ∧ s.canIssue i [] []
      (some (OpUnit.dma ↑e))) :=
  ⟨⟨wPlay, wI, 3, { block := 0, params := [1, 2, 3, 31] }, by decide +kernel, by decide +kernel,
    by unfold State.canIssue; decide +kernel, by decide +kernel, by decide +kernel⟩,
   ⟨wPlay, wI, 3, .s 4, { block := 0 }, by decide +kernel, by decide +kernel, by unfold State.canIssue; decide +kernel,
     by decide +kernel, by decide +kernel⟩,
   ⟨wPlay, wI, 3, 64, by decide +kernel, by decide +kernel, by unfold State.canIssue; decide +kernel, by decide +kernel⟩,
   ⟨wPlay, wI, 3, 3, 64, by decide +kernel, by decide +kernel, by unfold State.canIssue; decide +kernel, by decide +kernel⟩,
   ⟨wPlay, wI, 3, 65, by decide +kernel, by decide +kernel, by decide +kernel, by unfold State.canIssue; decide +kernel⟩,
   ⟨wPlay, wI, 3, 65, 3, by decide +kernel, by decide +kernel, by decide +kernel, by unfold State.canIssue; decide +kernel⟩⟩

theorem witness_TileQueuePassesBands :
    (∃ (s : State) (cd : Cd) (c : Nat) (q : TileQ) (o : ArrOp) (pr : SliceProg) (tl : Tile) (need : Nat), c = cd.val ∧ q = Tbl.get { : TileQ }
      s.arr.queues c ∧ s.arrOp = some o ∧ pr = Tbl.get { : SliceProg } o.prog c ∧ o.started = true ∧ o.prod.toQueue = true ∧ (o.prod.tilesFor
      c)[pr.tile]? = some tl ∧ (o.prod.k = 0 ∨ pr.pass + 1 = s.passes o.prod tl) ∧ 128 * pr.bands < tl.rows ∧ need = (tl.cols + 127) / 128 ∧
      q.lost.contains o.id = false ∧ q.entries.length + need ≤ s.pairDepth o.id c)
    ∧ (∃ (s : State) (cd : Cd) (c : Nat) (q : TileQ) (o : ArrOp) (pr : SliceProg) (tl : Tile) (need : Nat), c = cd.val ∧ q = Tbl.get { : TileQ }
      s.arr.queues c ∧ s.arrOp = some o ∧ pr = Tbl.get { : SliceProg } o.prog c ∧ o.started = true ∧ o.prod.toQueue = true ∧ (o.prod.tilesFor
      c)[pr.tile]? = some tl ∧ (o.prod.k = 0 ∨ pr.pass + 1 = s.passes o.prod tl) ∧ 128 * pr.bands < tl.rows ∧ need = (tl.cols + 127) / 128 ∧
      q.lost.contains o.id = true)
    ∧ (∃ (s : State) (cd : Cd) (c : Nat) (q : TileQ) (o : ArrOp) (pr : SliceProg) (tl : Tile) (need : Nat), c = cd.val ∧ q = Tbl.get { : TileQ }
      s.arr.queues c ∧ s.arrOp = some o ∧ pr = Tbl.get { : SliceProg } o.prog c ∧ o.started = true ∧ o.prod.toQueue = true ∧ (o.prod.tilesFor
      c)[pr.tile]? = some tl ∧ (o.prod.k = 0 ∨ pr.pass + 1 = s.passes o.prod tl) ∧ 128 * pr.bands < tl.rows ∧ need = (tl.cols + 127) / 128 ∧
      q.lost.contains o.id = false ∧ s.pairDepth o.id c < q.entries.length + need)
    ∧ (∃ (s : State) (cd : Cd) (c : Nat) (q : TileQ) (o : ArrOp) (pr : SliceProg) (tl : Tile) (need : Nat), c = cd.val ∧ q = Tbl.get { : TileQ }
      s.arr.queues c ∧ s.arrOp = some o ∧ pr = Tbl.get { : SliceProg } o.prog c ∧ o.started = true ∧ o.prod.toQueue = true ∧ (o.prod.tilesFor
      c)[pr.tile]? = some tl ∧ (o.prod.k = 0 ∨ pr.pass + 1 = s.passes o.prod tl) ∧ 128 * pr.bands < tl.rows ∧ need = (tl.cols + 127) / 128 ∧ s.pairOf
      o.id c = none)
    ∧ (∃ (s : State) (cd : Cd) (c : Nat) (q : TileQ) (k : Nat) (e : TEntry), c = cd.val ∧ q = Tbl.get { } s.arr.queues c ∧ (List.findIdx? (fun (e :
      TEntry) => !e.avail) q.entries = some k) ∧ q.entries[k]? = some e ∧ e.filled = e.rows)
    ∧ (∃ (s : State) (cd : Cd) (c : Nat) (q : TileQ) (o : Op) (e : TEntry) (b : VBlock) (prog : List EStep) (v : VecCache) (acc : VecAcc), c = cd.val
      ∧ q = Tbl.get { : TileQ } s.arr.queues c ∧ s.nextEntry c = some (o, e) ∧ b = vblock o.data ∧ prog = (s.seat o.seat).eprogs.getD b.program [] ∧
      b.offEntry e q.taken = none ∧ s.vecOpen c b prog e.n (e.parts q.taken) = true ∧ v = s.cacheVecs c b e.n (List.flatMap (fun (st : Nat) =>
      List.map (fun (x : Nat × Nat) => (e.row0 + x.fst, e.col0 + x.snd)) (e.cells st)) (List.range 16)) q.vecs ∧ s.tileSteps o b prog e q.taken v 16
      0 { red := q.red, active := q.active : VecAcc } = Sum.inr acc)
    ∧ (∃ (s : State) (cd : Cd) (c : Nat) (q : TileQ) (o : Op) (e : TEntry) (b : VBlock) (prog : List EStep), c = cd.val ∧ q = Tbl.get { : TileQ }
      s.arr.queues c ∧ s.nextEntry c = some (o, e) ∧ b = vblock o.data ∧ prog = (s.seat o.seat).eprogs.getD b.program [] ∧ b.offEntry e q.taken =
      none ∧ s.vecOpen c b prog e.n (e.parts q.taken) = false) :=
  ⟨⟨wTiles 15, 3, 3, { entries := List.replicate 15 (wTile true), mmas := [7], vruns := [9] }, wArr (wProd 1 true) true {}, {},
     { seg := 0, row0 := 0, rows := 1, col0 := 0, cols := 1, cd := 3 }, 1, by decide +kernel⟩,
   ⟨{ wTiles 0 with arr := { (wTiles 0).arr with queues := [(3, { lost := [7] })] } }, 3, 3, { lost := [7] }, wArr (wProd 1 true) true {}, {},
     { seg := 0, row0 := 0, rows := 1, col0 := 0, cols := 1, cd := 3 }, 1, by decide +kernel⟩,
   ⟨wTiles 16, 3, 3, { entries := List.replicate 16 (wTile true), mmas := [7], vruns := [9] }, wArr (wProd 1 true) true {}, {},
     { seg := 0, row0 := 0, rows := 1, col0 := 0, cols := 1, cd := 3 }, 1, by decide +kernel⟩,
   ⟨{ wTiles 0 with arr := { (wTiles 0).arr with queues := [(3, { mmas := [7] })] } }, 3, 3, { mmas := [7] }, wArr (wProd 1 true) true {}, {},
     { seg := 0, row0 := 0, rows := 1, col0 := 0, cols := 1, cd := 3 }, 1, by decide +kernel⟩,
   ⟨{ wPlay with arr := { queues := [(3, { entries := [wTile true, wTile false] })] } }, 3, 3, { entries := [wTile true, wTile false] }, 1, wTile
     false, by decide +kernel⟩,
   ⟨wTiles 1, 3, 3, { entries := [wTile true], mmas := [7], vruns := [9] }, wOp 9 3 .vec (.vrun wI { block := 0 }) [] [], wTile true, vblock [],
     [{ op := .mov 0 (.imm 0) }], [], { active := true }, by decide +kernel⟩,
   ⟨wMasked, 3, 3, { entries := [wTile true], mmas := [7], vruns := [9] }, wMaskOp, wTile true, vblock wMaskOp.data, [{ op := .mov 0 (.imm 0) }],
     by decide +kernel⟩⟩

theorem witness_DmaBurstsMoveBytes :
    (∃ (s : State) (cd : Cd) (e : Fin 4) (o : Op) (d : DmaDesc) (a : Nat) (b : Nat) (n : Nat), s.headOp (cd.val) (OpUnit.dma ↑e) = some o ∧ d =
      dmaDesc o.data ∧ o.fin = false ∧ s.ownsQueue (cd.val) o.unit = true ∧ nextPiece d o.vals = some (a, b, n) ∧ d.op = 0 ∧ routeOf a = 0 ∧
      s.memOpen o.unit a n = true ∧ (d.poisonHalt = false ∨ anyPoison (s.readSlot (o.vals.getD 2 0) a n) = false))
    ∧ (∃ (s : State) (cd : Cd) (e : Fin 4) (o : Op) (d : DmaDesc) (a : Nat) (b : Nat) (n : Nat), s.headOp (cd.val) (OpUnit.dma ↑e) = some o ∧ d =
      dmaDesc o.data ∧ o.fin = false ∧ s.ownsQueue (cd.val) o.unit = true ∧ nextPiece d o.vals = some (a, b, n) ∧ d.op = 1)
    ∧ (∃ (s : State) (cd : Cd) (e : Fin 4) (o : Op) (d : DmaDesc) (a : Nat) (b : Nat) (n : Nat), s.headOp (cd.val) (OpUnit.dma ↑e) = some o ∧ d =
      dmaDesc o.data ∧ o.fin = false ∧ s.ownsQueue (cd.val) o.unit = true ∧ nextPiece d o.vals = some (a, b, n) ∧ d.op = 0 ∧ routeOf a = 1)
    ∧ (∃ (s : State) (id : Nat) (b : Burst), (List.find? (fun (x : Burst) => x.id == id) s.memory.bursts = some b) ∧ b.stage = 1 ∧ s.linkOpen b =
      false)
    ∧ (∃ (s : State) (id : Nat) (b : Burst), (List.find? (fun (x : Burst) => x.id == id) s.memory.bursts = some b) ∧ b.stage = 1 ∧ s.linkOpen b =
      true)
    ∧ (∃ (s : State) (id : Nat) (b : Burst), List.find? (fun (x : Burst) => x.id == id) s.memory.bursts = some b ∧ b.stage = 2 ∧ s.burstBehind b =
      true)
    ∧ (∃ (s : State) (id : Nat) (b : Burst) (o : Op), List.find? (fun (x : Burst) => x.id == id) s.memory.bursts = some b ∧ b.stage = 2 ∧
      s.burstBehind b = false ∧ b.row = none ∧ s.opById b.op = some o ∧ routeOf b.dst = 0 ∧ s.memOpen o.unit b.dst b.len = true)
    ∧ (∃ (s : State) (id : Nat) (b : Burst) (o : Op), List.find? (fun (x : Burst) => x.id == id) s.memory.bursts = some b ∧ b.stage = 2 ∧
      s.burstBehind b = false ∧ b.row = none ∧ s.opById b.op = some o ∧ routeOf b.dst = 1)
    ∧ (∃ (s : State) (id : Nat) (b : Burst) (o : Op), List.find? (fun (x : Burst) => x.id == id) s.memory.bursts = some b ∧ b.stage = 2 ∧
      s.burstBehind b = false ∧ b.row = none ∧ s.opById b.op = some o ∧ routeOf b.dst = 16) :=
  ⟨⟨wDma 0 0x100000, 0, 1, wDmaOp 0 0x100000, dmaDesc (wDmaDesc 0), 0x100000, 0x180000, 64, by decide +kernel⟩,
   ⟨wDma 1 0, 0, 1, wDmaOp 1 0, dmaDesc (wDmaDesc 1), 0, 0x180000, 64, by decide +kernel⟩,
   ⟨wDma 0 (2 ^ 48), 0, 1, wDmaOp 0 (2 ^ 48), dmaDesc (wDmaDesc 0), 2 ^ 48, 0x180000, 64, by decide +kernel⟩,
   ⟨wBursts 0x55 1 wHop 0x180000, 2, wBurst 1 wHop 0x180000, by decide +kernel⟩,
   ⟨wBursts 0x66 1 wHop 0x180000, 2, wBurst 1 wHop 0x180000, by decide +kernel⟩,
   ⟨{ wBursts 0x66 2 [] 0x180000 with memory := { bursts := [{ wBurst 2 [] 0x180000 with id := 1 }, wBurst 2 [] 0x180000] } }, 2, wBurst 2 []
     0x180000, by decide +kernel⟩,
   ⟨wBursts 0x66 2 [] 0x180000, 2, wBurst 2 [] 0x180000, wDmaOp 0 0x100000, by decide +kernel⟩,
   ⟨wBursts 0x66 2 [] (2 ^ 48), 2, wBurst 2 [] (2 ^ 48), wDmaOp 0 0x100000, by decide +kernel⟩,
   ⟨wBursts 0x66 2 [] (16 * 2 ^ 48), 2, wBurst 2 [] (16 * 2 ^ 48), wDmaOp 0 0x100000, by decide +kernel⟩⟩

theorem witness_MemoryMaintenanceActs :
    (∃ (s : State) (c : Cd) (pos : Nat), pos = Tbl.get 0 s.memory.scrubPos (8 + ↑c) ∧ pos + 1 < 8589934592 / 64 ∧ s.maint.rowsDue = [] ∧
      s.obj 3146881 86400 ≠ 0)
    ∧ (∃ (s : State) (c : Cd) (channel : Nat) (r : Refresh) (due : Nat), channel < 32 ∧ r = Tbl.get { } s.memory.refresh (32 * ↑c +
      channel) ∧ due = min ((1024 * (s.ns - BitVec.toNat r.began) + 32000000 / s.multiplier ↑c - 1) / (32000000 / s.multiplier ↑c)) 1024
      ∧ due ≤ r.carried)
    ∧ (∃ (s : State) (c : Cd) (channel : Nat) (r : Refresh) (due : Nat), channel < 32 ∧ r = Tbl.get { } s.memory.refresh (32 * ↑c +
      channel) ∧ due = min ((1024 * (s.ns - BitVec.toNat r.began) + 32000000 / s.multiplier ↑c - 1) / (32000000 / s.multiplier ↑c)) 1024
      ∧ r.carried < due ∧ r.carried + 1 < 1024)
    ∧ (∃ (s : State) (c : Cd) (channel : Nat) (r : Refresh) (due : Nat), channel < 32 ∧ r = Tbl.get { } s.memory.refresh (32 * ↑c +
      channel) ∧ due = min ((1024 * (s.ns - BitVec.toNat r.began) + 32000000 / s.multiplier ↑c - 1) / (32000000 / s.multiplier ↑c)) 1024
      ∧ r.carried = 1023 ∧ due = 1024)
    ∧ (∃ (s : State) (ch : Channel) (v : Word), s.expertOn ch 12288 ∧ BitVec.toNat v < 2 ^ 48 ∧ (∀ (b : Nat), b < 48 → (BitVec.setWidth
      48 v ^^^ s.memory.bandMode).getLsbD b = true → s.bandUsed b = false))
    ∧ (∃ (s : State) (ch : Channel) (v : Word) (b : Nat), s.expertOn ch 12288 ∧ BitVec.toNat v < 2 ^ 48 ∧ b < 48 ∧ (BitVec.setWidth 48 v
      ^^^ s.memory.bandMode).getLsbD b = true ∧ s.bandUsed b = true) :=
  ⟨⟨{ wLive with memory := { scrubPos := [(10, 134217726)] } }, 2, 134217726, by decide +kernel⟩,
   ⟨{ wLive with time := { ns := 0 }, memory := { refresh := [(64, { carried := 0 })] } }, 2, 0, { carried := 0 }, 0, by decide +kernel⟩,
   ⟨{ wLive with time := { ns := 32000000 }, memory := { refresh := [(64, { carried := 1022 })] } }, 2, 0, { carried := 1022 }, 1024,
     by decide +kernel⟩,
   ⟨{ wLive with time := { ns := 32000000 }, memory := { refresh := [(64, { carried := 1023 })] } }, 2, 0, { carried := 1023 }, 1024,
     by decide +kernel⟩,
   ⟨wLive, wExp, 0x800000000000, ⟨by decide +kernel, by decide +kernel, _, rfl, rfl⟩, by decide +kernel, by decide +kernel⟩,
   ⟨wLive, wExp, 1, 0, ⟨by decide +kernel, by decide +kernel, _, rfl, rfl⟩, by decide +kernel⟩⟩

theorem witness_MaintenanceRequestsRun :
    (∃ (s : State) (ch : Channel) (stack : Nat) (channel : Nat) (pseudo : Nat), s.expertOn ch 25600 ∧ stack < 8 ∧ channel < 32 ∧ pseudo < 2 ∧
      s.mayStart 0 = true)
    ∧ (∃ (s : State) (ch : Channel) (stack : Nat) (channel : Nat) (pseudo : Nat), s.expertOn ch 25600 ∧ stack < 8 ∧ channel < 32 ∧ pseudo < 2 ∧
      s.mayStart 0 = false)
    ∧ (∃ (s : State) (ch : Channel) (port : Nat), s.expertOn ch 25600 ∧ isPort port = true ∧ s.mayStart 1 = true ∧ s.portEnabled port = true ∧
      s.portPowered port = true ∧ (s.port port).state ≠ PortState.off ∧ (s.port port).state ≠ PortState.closing)
    ∧ (∃ (s : State) (ch : Channel), s.expertOn ch 25600 ∧ s.mayStart 8 = true)
    ∧ (∃ (s : State) (ch : Channel), s.expertOn ch 25600)
    ∧ (∃ (s : State) (j : Journal), s.maint.journal = j ∧ j.kind = 1 ∧ s.dev = DevState.live ∧ j.step = 1)
    ∧ (∃ (s : State) (j : Journal), s.maint.journal = j ∧ j.kind = 1 ∧ s.dev = DevState.live ∧ j.step = 2)
    ∧ (∃ (s : State) (j : Journal), s.maint.journal = j ∧ j.kind = 1 ∧ s.dev = DevState.live ∧ j.step = 3)
    ∧ (∃ (s : State) (j : Journal), s.maint.journal = j ∧ j.kind = 1 ∧ s.dev = DevState.live ∧ j.step = 3 ∧ j.attempt < 3)
    ∧ (∃ (s : State) (j : Journal), s.maint.journal = j ∧ j.kind = 1 ∧ s.dev = DevState.live ∧ j.step = 4 ∧ s.maint.rowsDue = [])
    ∧ (∃ (s : State) (port : Nat), port < 34 ∧ (s.maint.works.any fun (w : Nat × Nat) => w.fst == 3) = false ∧ s.mayStart 3 = true ∧ (s.port
      port).state = PortState.active ∧ (s.port port).key = none ∧ 1 ≤ (s.port port).txGen ∧ s.keyDue (s.port port).genBegan ((s.port port).txCtr +
      (s.port port).nullCtr) = true) :=
  ⟨⟨wLive, wExp, 7, 31, 1, ⟨by decide +kernel, by decide +kernel, _, rfl, rfl⟩, by decide +kernel⟩,
   ⟨{ wLive with maint := { journal := { kind := 1, step := 1 } } }, wExp, 7, 31, 1, ⟨by decide +kernel, by decide +kernel, _, rfl, rfl⟩,
     by decide +kernel⟩,
   ⟨{ wLive with fab := { ports := [(5, { state := .active, txGen := 1 })] } }, wExp, 5, ⟨by decide +kernel, by decide +kernel, _, rfl, rfl⟩,
     by decide +kernel⟩,
   ⟨wLive, wExp, ⟨by decide +kernel, by decide +kernel, _, rfl, rfl⟩, by decide +kernel⟩,
   ⟨wLive, wExp, ⟨by decide +kernel, by decide +kernel, _, rfl, rfl⟩⟩,
   ⟨{ wLive with maint := { journal := { kind := 1, step := 1, attempt := 0 } } }, { kind := 1, step := 1, attempt := 0 }, by decide +kernel⟩,
   ⟨{ wLive with maint := { journal := { kind := 1, step := 2, attempt := 0 } } }, { kind := 1, step := 2, attempt := 0 }, by decide +kernel⟩,
   ⟨{ wLive with maint := { journal := { kind := 1, step := 3, attempt := 0 } } }, { kind := 1, step := 3, attempt := 0 }, by decide +kernel⟩,
   ⟨{ wLive with maint := { journal := { kind := 1, step := 3, attempt := 2 } } }, { kind := 1, step := 3, attempt := 2 }, by decide +kernel⟩,
   ⟨{ wLive with maint := { journal := { kind := 1, step := 4, attempt := 0 } } }, { kind := 1, step := 4, attempt := 0 }, by decide +kernel⟩,
   ⟨{ wLive with fab := { ports := [(5, { state := .active, txGen := 1, txCtr := 2 ^ 44 })] } }, 5, by decide +kernel⟩⟩

theorem witness_LinkSlicesFrameAndJudge :
    (∃ (s : State) (sl : SliceId) (k : Nat) (x : LinkSend) (r : LinkRecv) (c : Quad) (seq5 : Nat) (q : List (BitVec 128)) (qs : List (List (BitVec
      128))), s.linkRuns sl = true ∧ k = keyOfSlice sl ∧ x = s.lsend k ∧ r = s.lrecv (reverseKey sl) ∧ x.prevCrc = some c ∧ (seq5 = if r.nak = true
      then BitVec.toNat r.expected else BitVec.toNat (r.expected - 1)) ∧ x.resend = none ∧ x.held.length < 32 ∧ x.queue = q :: qs)
    ∧ (∃ (s : State) (sl : SliceId) (k : Nat) (x : LinkSend) (r : LinkRecv) (c : Quad) (seq5 : Nat) (i : Nat) (f : Half × List (BitVec 128)),
      s.linkRuns sl = true ∧ k = keyOfSlice sl ∧ x = s.lsend k ∧ r = s.lrecv (reverseKey sl) ∧ x.prevCrc = some c ∧ (seq5 = if r.nak = true then
      BitVec.toNat r.expected else BitVec.toNat (r.expected - 1)) ∧ x.resend = some i ∧ x.held[i]? = some f)
    ∧ (∃ (s : State) (sl : SliceId) (k : Nat) (r : LinkRecv) (beats : List (BitVec 128)) (st : List (BitVec 128)) (spares : List (BitVec 4)) (c :
      Nat) (q : Half), s.linkRuns sl = true ∧ k = keyOfSlice sl ∧ r = s.lrecv k ∧ r.lost = true ∧ st = r.seen ++ List.map (fun (e : BitVec 128 ×
      BitVec 4) => s.unrepair (sl.link.val) k e.fst e.snd) (beats.zip (spares ++ List.replicate beats.length 0)) ∧ lockAt st = some c ∧ q = b0Seq
      (st.getD (c + 1792) 0))
    ∧ (∃ (s : State) (sl : SliceId) (k : Nat) (r : LinkRecv) (beats : List (BitVec 128)) (st : List (BitVec 128)) (spares : List (BitVec 4)),
      s.linkRuns sl = true ∧ k = keyOfSlice sl ∧ r = s.lrecv k ∧ r.lost = true ∧ st = r.seen ++ List.map (fun (e : BitVec 128 × BitVec 4) =>
      s.unrepair (sl.link.val) k e.fst e.snd) (beats.zip (spares ++ List.replicate beats.length 0)) ∧ lockAt st = none)
    ∧ (∃ (s : State) (sl : SliceId) (k : Nat) (r : LinkRecv) (beats : List (BitVec 128)) (clean : List (BitVec 128)) (spares : List (BitVec 4)) (h :
      BitVec 128), s.linkRuns sl = true ∧ k = keyOfSlice sl ∧ r = s.lrecv k ∧ r.lost = false ∧ r.misses = 0 ∧ beats.length = 256 ∧ spares.length =
      256 ∧ (clean = List.map (fun (e : BitVec 128 × BitVec 4) => s.unrepair (sl.link.val) k e.fst e.snd) (beats.zip spares)) ∧ clean.head? = some h
      ∧ h.toNat % 2 ^ 32 = marker ∧ b0Seq h = r.last + 1)
    ∧ (∃ (s : State) (sl : SliceId) (k : Nat) (r : LinkRecv) (p : List (BitVec 128)) (ps : List (List (BitVec 128))), s.linkRuns sl = true ∧ k =
      keyOfSlice sl ∧ r = s.lrecv k ∧ isWdl sl.link.val = false ∧ r.inbox = p :: ps)
    ∧ (∃ (s : State) (sl : SliceId) (k : Nat) (r : LinkRecv) (n : Fin 255) (beat : BitVec 128) (m : BitVec 112) (o : LinkHeld), s.linkRuns sl = true
      ∧ k = keyOfSlice sl ∧ r = s.lrecv k ∧ isWdl sl.link.val = true ∧ sl.slice.val = 128 ∧ r.lost = false ∧ r.held = some o ∧ o.seq = r.expected ∧
      o.missed = false ∧ r.withheld = false ∧ r.skip = 0 ∧ r.released = ↑n ∧ beat = o.payload.getD r.released 0 ∧ m = BitVec.setWidth 112 beat ∧
      beat.toNat / 2 ^ 112 = messageCrc m ∧ m ≠ 0)
    ∧ (∃ (s : State) (sl : SliceId) (k : Nat) (r : LinkRecv) (n : Fin 255) (beat : BitVec 128) (m : BitVec 112) (o : LinkHeld), s.linkRuns sl = true
      ∧ k = keyOfSlice sl ∧ r = s.lrecv k ∧ isWdl sl.link.val = true ∧ sl.slice.val = 128 ∧ r.lost = false ∧ r.held = some o ∧ o.seq = r.expected ∧
      o.missed = false ∧ r.withheld = false ∧ r.skip = 0 ∧ r.released = ↑n ∧ beat = o.payload.getD r.released 0 ∧ m = BitVec.setWidth 112 beat ∧
      beat.toNat / 2 ^ 112 ≠ messageCrc m)
    ∧ (∃ (s : State) (sl : SliceId) (k : Nat) (r : LinkRecv), s.linkRuns sl = true ∧ k = keyOfSlice sl ∧ r = s.lrecv k ∧ r.lost = true)
    ∧ (∃ (s : State) (sl : SliceId) (k : Nat) (r : LinkRecv) (wire : Nat) (sp : Nat), s.linkRuns sl = true ∧ k = keyOfSlice sl ∧ r = s.lrecv k ∧ wire
      < 64 ∧ s.obj 6422656 16 ≠ 0 ∧ s.obj 6422656 16 ≤ Tbl.get 0 r.counts wire ∧ s.pickSpare (sl.link.val) k wire = some sp ∧ s.stewardsClear
      (linkDies sl.link.val).fst (linkDies sl.link.val).snd = false)
    ∧ (∃ (s : State) (sl : SliceId) (k : Nat) (r : LinkRecv) (wire : Nat) (sp : Nat), s.linkRuns sl = true ∧ k = keyOfSlice sl ∧ r = s.lrecv k ∧ wire
      < 64 ∧ s.obj 6422656 16 ≠ 0 ∧ s.obj 6422656 16 ≤ Tbl.get 0 r.counts wire ∧ s.pickSpare (sl.link.val) k wire = some sp ∧ s.stewardsClear
      (linkDies sl.link.val).fst (linkDies sl.link.val).snd = true) :=
  ⟨⟨wLinks 0 { prevCrc := some 5, queue := [[1]] } {}, wSl 0, 0, { prevCrc := some 5, queue := [[1]] }, {}, 5, 0, [1], [], by decide +kernel⟩,
   ⟨wLinks 0 { prevCrc := some 5, held := [(0, [1])], resend := some 0 } { nak := true }, wSl 0, 0,
     { prevCrc := some 5, held := [(0, [1])], resend := some 0 }, {}, 5, 0, 0, (0, [1]), by decide +kernel⟩,
   ⟨wLinks 0 {} { lost := true, seen := wSearch }, wSl 0, 0, { lost := true, seen := wSearch }, [wEighth], wSearch ++ [wEighth], [], 0, 7,
     by decide +kernel, by decide +kernel, by decide +kernel, by decide +kernel, by decide +kernel, wSearch_locks, by decide +kernel⟩,
   ⟨wLinks 0 {} { lost := true }, wSl 0, 0, { lost := true }, [0], [0], [], by decide +kernel⟩,
   ⟨wLinks 0 {} {}, wSl 0, 0, {}, BitVec.ofNat 128 marker :: List.replicate 255 0, BitVec.ofNat 128 marker :: List.replicate 255 0, List.replicate
     256 0, BitVec.ofNat 128 marker, by decide +kernel⟩,
   ⟨wLinks 4128 {} { inbox := [[7]] }, { link := 16, dir := false, slice := 0 }, 4128, { inbox := [[7]] }, [7], [], by decide +kernel⟩,
   ⟨wLinks 128 {} { held := some (wHeld (List.replicate 254 0 ++ [BitVec.ofNat 128 (messageCrc 1 * 2 ^ 112 + 1)])), released := 254 }, wSl 128, 128,
     { held := some (wHeld (List.replicate 254 0 ++ [BitVec.ofNat 128 (messageCrc 1 * 2 ^ 112 + 1)])), released := 254 }, 254, BitVec.ofNat 128
     (messageCrc 1 * 2 ^ 112 + 1), 1, wHeld (List.replicate 254 0 ++ [BitVec.ofNat 128 (messageCrc 1 * 2 ^ 112 + 1)]), by decide +kernel⟩,
   ⟨wLinks 128 {} { held := some (wHeld [1]), released := 0 }, wSl 128, 128, { held := some (wHeld [1]), released := 0 }, 0, 1, 1, wHeld [1],
     by decide +kernel⟩,
   ⟨wLinks 0 {} { lost := true }, wSl 0, 0, { lost := true }, by decide +kernel⟩,
   ⟨{ wLinks 0 {} { counts := [(63, 16)] } with links := { (wLinks 0 {} { counts := [(63, 16)] }).links with failed := [16] } },
     wSl 0, 0, { counts := [(63, 16)] }, 63, 1, by decide +kernel⟩,
   ⟨wLinks 0 {} { counts := [(63, 16)] }, wSl 0, 0, { counts := [(63, 16)] }, 63, 1, by decide +kernel⟩⟩

theorem witness_PortsComeUpAndFail :
    (∃ (s : State) (n : Nat) (p : Port), p = s.port n ∧ isPort n = true ∧ p.state = PortState.off ∧ s.portEnabled n = true ∧ s.portPowered n = true ∧
      s.dev = DevState.live)
    ∧ (∃ (s : State) (n : Nat) (p : Port), p = s.port n ∧ isPort n = true ∧ p.state = PortState.training)
    ∧ (∃ (s : State) (n : Nat) (p : Port), p = s.port n ∧ isPort n = true ∧ p.state = PortState.closing)
    ∧ (∃ (s : State) (n : Nat) (p : Port), p = s.port n ∧ isPort n = true ∧ (p.state = PortState.hello ∨ p.state = PortState.active))
    ∧ (∃ (s : State) (n : Nat) (p : Port), p = s.port n ∧ isPort n = true ∧ p.state = PortState.failed ∧ s.portEnabled n = true ∧ s.portPowered n =
      true)
    ∧ (∃ (s : State) (n : Nat) (p : Port), p = s.port n ∧ isPort n = true ∧ n < 34 ∧ s.hasTable = true ∧ p.state = PortState.hello ∧ p.fs ≠ 0)
    ∧ (∃ (s : State) (n : Nat) (p : Port) (m : HelloMsg), p = s.port n ∧ isPort n = true ∧ n < 34 ∧ s.hasTable = true ∧ p.state = PortState.hello ∧
      p.fs ≠ 0 ∧ p.helloCount ≠ 0 ∧ m.echo = p.helloCount ∧ m.revision < s.fw.wire + 2 ∧ s.fw.wire < m.revision + 2)
    ∧ (∃ (s : State) (n : Nat) (p : Port) (m : HelloMsg), p = s.port n ∧ isPort n = true ∧ n < 34 ∧ s.hasTable = true ∧ p.state = PortState.hello ∧
      p.fs ≠ 0 ∧ (s.fw.wire + 2 ≤ m.revision ∨ m.revision + 2 ≤ s.fw.wire))
    ∧ (∃ (s : State) (n : Nat) (p : Port), p = s.port n ∧ isPort n = true ∧ n < 34 ∧ p.state = PortState.active)
    ∧ (∃ (s : State) (n : Nat) (p : Port), p = s.port n ∧ isPort n = true ∧ n < 34 ∧ p.state = PortState.active ∧ p.key = none) :=
  ⟨⟨wPort 33 { state := .off }, 33, { state := .off }, by decide +kernel⟩,
   ⟨wPort 33 { state := .training }, 33, { state := .training }, by decide +kernel⟩,
   ⟨wPort 71 { state := .closing }, 71, { state := .closing }, by decide +kernel⟩,
   ⟨wPort 0 { state := .active }, 0, { state := .active }, by decide +kernel⟩,
   ⟨wPort 64 { state := .failed }, 64, { state := .failed }, by decide +kernel⟩,
   ⟨wPort 33 { state := .hello, fs := 1 }, 33, { state := .hello, fs := 1 }, by decide +kernel⟩,
   ⟨wPort 33 { state := .hello, fs := 1, helloCount := 4 }, 33, { state := .hello, fs := 1, helloCount := 4 }, wHello 7, by decide +kernel⟩,
   ⟨wPort 33 { state := .hello, fs := 1 }, 33, { state := .hello, fs := 1 }, wHello 8, by decide +kernel⟩,
   ⟨wPort 0 { state := .active }, 0, { state := .active }, by decide +kernel⟩,
   ⟨wPort 0 { state := .active }, 0, { state := .active }, by decide +kernel⟩⟩

theorem witness_FlitsAreSent :
    (∃ (s : State) (n : Nat) (p : Port) (k : Nat) (f : TxFlit), n < 34 ∧ p = s.port n ∧ portRuns p = true ∧ s.hasTable = true ∧ p.switching = false ∧
      p.resend = some k ∧ p.held[k]? = some f ∧ f.sends < 16)
    ∧ (∃ (s : State) (n : Nat) (p : Port) (k : Nat) (f : TxFlit), n < 34 ∧ p = s.port n ∧ portRuns p = true ∧ s.hasTable = true ∧ p.switching = false
      ∧ p.resend = some k ∧ p.held[k]? = some f ∧ 16 ≤ f.sends)
    ∧ (∃ (s : State) (n : Nat) (p : Port) (c : List Byte) (cs : List (List Byte)), n < 34 ∧ p = s.port n ∧ portRuns p = true ∧ s.hasTable = true ∧
      p.switching = false ∧ p.resend = none ∧ p.ctl = c :: cs ∧ p.held.length < 1024 ∧ p.starve < 7)
    ∧ (∃ (s : State) (n : Nat) (p : Port), n < 34 ∧ p = s.port n ∧ portRuns p = true ∧ s.hasTable = true ∧ p.switching = false ∧ p.resend = none ∧
      p.ctl = [] ∧ p.restT = none ∧ p.restB = none ∧ s.fab.out = [])
    ∧ (∃ (s : State) (n : Nat) (p : Port), n < 34 ∧ p = s.port n ∧ portRuns p = true ∧ p.gap = true)
    ∧ (∃ (s : State) (n : Nat) (p : Port) (f : TxFlit) (fs : List TxFlit), n < 34 ∧ p = s.port n ∧ portRuns p = true ∧ p.held = f :: fs ∧ f.sends <
      16)
    ∧ (∃ (s : State) (n : Nat) (p : Port) (bulk : Bool), n < 34 ∧ p = s.port n ∧ portRuns p = true ∧ (0 < if bulk = true then p.owedB else p.owedT) ∧
      ((if bulk = true then p.owedB else p.owedT) < 16)) :=
  ⟨⟨wPort 33 { state := .active, fs := 1, held := [{ seq := 0, kind := 1, phase := false, payload := [], sends := 15 }], resend := some 0 }, 33,
     { state := .active, fs := 1, held := [{ seq := 0, kind := 1, phase := false, payload := [], sends := 15 }], resend := some 0 }, 0,
     { seq := 0, kind := 1, phase := false, payload := [], sends := 15 }, by decide +kernel⟩,
   ⟨wPort 33 { state := .active, fs := 1, held := [{ seq := 0, kind := 1, phase := false, payload := [], sends := 16 }], resend := some 0 }, 33,
     { state := .active, fs := 1, held := [{ seq := 0, kind := 1, phase := false, payload := [], sends := 16 }], resend := some 0 }, 0,
     { seq := 0, kind := 1, phase := false, payload := [], sends := 16 }, by decide +kernel⟩,
   ⟨wPort 33 { state := .active, fs := 1, ctl := [[1]] }, 33, { state := .active, fs := 1, ctl := [[1]] }, [1], [], by decide +kernel⟩,
   ⟨wPort 33 { state := .active, fs := 1 }, 33, { state := .active, fs := 1 }, by decide +kernel⟩,
   ⟨wPort 33 { state := .active, fs := 1, gap := true }, 33, { state := .active, fs := 1, gap := true }, by decide +kernel⟩,
   ⟨wPort 33 { state := .active, fs := 1, held := [{ seq := 0, kind := 1, phase := false, payload := [], sends := 15 }] }, 33,
     { state := .active, fs := 1, held := [{ seq := 0, kind := 1, phase := false, payload := [], sends := 15 }] },
     { seq := 0, kind := 1, phase := false, payload := [], sends := 15 }, [], by decide +kernel⟩,
   ⟨wPort 33 { state := .active, fs := 1, owedB := 15 }, 33, { state := .active, fs := 1, owedB := 15 }, true, by decide +kernel⟩⟩

theorem witness_FlitsAreReceived :
    (∃ (s : State) (n : Nat) (p : Port) (got : FlitGot), n < 34 ∧ s.hasTable = true ∧ p = s.port n ∧ portRuns p = true ∧ got.fecFixed = 0 ∧ flitAt
      got.blocks = none)
    ∧ (∃ (s : State) (n : Nat) (p : Port) (got : FlitGot) (bs : List Byte) (fl : Flit), n < 34 ∧ s.hasTable = true ∧ p = s.port n ∧ portRuns p = true
      ∧ got.fecFixed = 0 ∧ flitAt got.blocks = some bs ∧ fl = readFlit bs ∧ got.fecOk = false)
    ∧ (∃ (s : State) (n : Nat) (p : Port) (got : FlitGot) (bs : List Byte) (fl : Flit), n < 34 ∧ s.hasTable = true ∧ p = s.port n ∧ portRuns p = true
      ∧ got.fecFixed = 0 ∧ flitAt got.blocks = some bs ∧ fl = readFlit bs ∧ got.fecOk = true ∧ s.unseal n bs = none ∧ ∀ (x : Nat), x ∈ p.authTimes →
      x + 1000000000 ≤ s.ns)
    ∧ (∃ (s : State) (n : Nat) (p : Port) (got : FlitGot) (bs : List Byte) (fl : Flit) (x : List Byte), n < 34 ∧ s.hasTable = true ∧ p = s.port n ∧
      portRuns p = true ∧ got.fecFixed = 0 ∧ flitAt got.blocks = some bs ∧ fl = readFlit bs ∧ fl.keyPhase = (p.rxGen % 2 == 1) ∧ p.tryFlit p.rxSet
      p.rxCtr bs = some x)
    ∧ (∃ (s : State) (n : Nat) (p : Port) (got : FlitGot) (bs : List Byte) (fl : Flit) (set : List Byte) (x : List Byte), n < 34 ∧ s.hasTable = true
      ∧ p = s.port n ∧ portRuns p = true ∧ got.fecFixed = 0 ∧ flitAt got.blocks = some bs ∧ fl = readFlit bs ∧ fl.keyPhase ≠ (p.rxGen % 2 == 1) ∧
      p.rxNext = some set ∧ p.tryFlit set 0 bs = some x)
    ∧ (∃ (s : State) (n : Nat) (p : Port) (got : FlitGot) (bs : List Byte) (fl : Flit) (set : List Byte) (x : List Byte), n < 34 ∧ s.hasTable = true
      ∧ p = s.port n ∧ portRuns p = true ∧ got.fecFixed = 0 ∧ flitAt got.blocks = some bs ∧ fl = readFlit bs ∧ got.fecOk = true ∧ s.unseal n bs =
      some (p.rxGen + 1, set, x) ∧ (p.state = PortState.hello ∨ p.state = PortState.active))
    ∧ (∃ (s : State) (n : Nat) (p : Port) (got : FlitGot) (bs : List Byte) (fl : Flit) (set : List Byte) (x : List Byte), n < 34 ∧ s.hasTable = true
      ∧ p = s.port n ∧ portRuns p = true ∧ got.fecFixed = 0 ∧ flitAt got.blocks = some bs ∧ fl = readFlit bs ∧ got.fecOk = true ∧ s.unseal n bs =
      some (p.rxGen, set, x) ∧ (p.state = PortState.hello ∨ p.state = PortState.active) ∧ fl.kind = 1 ∧ fl.seq = p.expect ∧ p.expect < 4096)
    ∧ (∃ (s : State) (n : Nat) (p : Port) (got : FlitGot) (bs : List Byte) (fl : Flit) (set : List Byte) (x : List Byte), n < 34 ∧ s.hasTable = true
      ∧ p = s.port n ∧ portRuns p = true ∧ got.fecFixed = 0 ∧ flitAt got.blocks = some bs ∧ fl = readFlit bs ∧ got.fecOk = true ∧ s.unseal n bs =
      some (p.rxGen, set, x) ∧ (p.state = PortState.hello ∨ p.state = PortState.active) ∧ fl.kind ≠ 0 ∧ p.gap = false ∧ 0 < (fl.seq + 4096 -
      p.expect) % 4096 ∧ (fl.seq + 4096 - p.expect) % 4096 < 2048)
    ∧ (∃ (s : State) (n : Nat) (p : Port) (got : FlitGot) (bs : List Byte) (fl : Flit) (set : List Byte) (x : List Byte), n < 34 ∧ s.hasTable = true
      ∧ p = s.port n ∧ portRuns p = true ∧ got.fecFixed = 0 ∧ flitAt got.blocks = some bs ∧ fl = readFlit bs ∧ got.fecOk = true ∧ s.unseal n bs =
      some (p.rxGen, set, x) ∧ (p.state = PortState.hello ∨ p.state = PortState.active) ∧ fl.kind ≠ 0 ∧ 2048 ≤ (fl.seq + 4096 - p.expect) % 4096)
    ∧ (∃ (s : State) (n : Nat) (p : Port) (got : FlitGot) (bs : List Byte) (fl : Flit) (set : List Byte) (x : List Byte), n < 34 ∧ s.hasTable = true
      ∧ p = s.port n ∧ portRuns p = true ∧ got.fecFixed = 0 ∧ flitAt got.blocks = some bs ∧ fl = readFlit bs ∧ got.fecOk = true ∧ s.unseal n bs =
      some (p.rxGen, set, x) ∧ (p.state = PortState.hello ∨ p.state = PortState.active) ∧ fl.kind = 0 ∧ p.lastNull = none ∧ fl.nullCtr ≤ 4095) :=
  ⟨⟨wPort 33 (wUp {}), 33, wUp {}, {}, by decide +kernel⟩,
   ⟨wPort 33 (wUp {}), 33, wUp {}, { blocks := flitBlocks (zeros 256), fecOk := false }, zeros 256, readFlit (zeros 256), by decide +kernel⟩,
   ⟨wPort 33 (wUp {}), 33, wUp {}, { blocks := flitBlocks (zeros 256) }, zeros 256, readFlit (zeros 256), by decide +kernel⟩,
   ⟨wPort 33 (wUp {}), 33, wUp {}, { blocks := flitBlocks (wNull 0) }, wNull 0, readFlit (wNull 0), zeros 240, by decide +kernel⟩,
   ⟨wPort 33 (wUp { rxGen := 1, rxNext := some wSet }), 33, wUp { rxGen := 1, rxNext := some wSet }, { blocks := flitBlocks (wNull 0) }, wNull 0,
     readFlit (wNull 0), wSet, zeros 240, by decide +kernel⟩,
   ⟨wPort 33 (wUp { rxGen := 1, rxNext := some wSet }), 33, wUp { rxGen := 1, rxNext := some wSet }, { blocks := flitBlocks (wNull 0) }, wNull 0,
     readFlit (wNull 0), wSet, zeros 240, by decide +kernel⟩,
   ⟨wPort 33 (wUp { expect := 4095, rxCtr := 4095 }), 33, wUp { expect := 4095, rxCtr := 4095 },
     { blocks := flitBlocks (wFlit { seq := 4095, kind := 1 } 4095) }, wFlit { seq := 4095, kind := 1 } 4095,
     readFlit (wFlit { seq := 4095, kind := 1 } 4095), wSet, zeros 240, by decide +kernel⟩,
   ⟨wPort 33 (wUp {}), 33, wUp {}, { blocks := flitBlocks (wFlit { seq := 2047, kind := 1 } 2047) }, wFlit { seq := 2047, kind := 1 } 2047,
     readFlit (wFlit { seq := 2047, kind := 1 } 2047), wSet, zeros 240, by decide +kernel⟩,
   ⟨wPort 33 (wUp {}), 33, wUp {}, { blocks := flitBlocks (wFlit { seq := 2048, kind := 1 } (2 ^ 63 - 2048)) },
     wFlit { seq := 2048, kind := 1 } (2 ^ 63 - 2048), readFlit (wFlit { seq := 2048, kind := 1 } (2 ^ 63 - 2048)), wSet, zeros 240,
     by decide +kernel⟩,
   ⟨wPort 33 (wUp {}), 33, wUp {}, { blocks := flitBlocks (wNull 4095) }, wNull 4095, readFlit (wNull 4095), wSet, leBytes 8 4095 ++ zeros 232,
     by decide +kernel⟩⟩

theorem witness_RemoteMemoryPackets :
    (∃ (s : State) (u : State) (p : Packet) (o : Nat), s.takePacket p = some (o, u) ∧ o < 128 ∧ p.srcPos ≠ s.table.position ∧ s.requestWaits p =
      true)
    ∧ (∃ (s : State) (u : State) (p : Packet) (o : Nat) (slot : Nat), s.takePacket p = some (o, u) ∧ o < 128 ∧ p.srcPos ≠ s.table.position ∧ p.op = 1
      ∧ s.requestWaits p = false ∧ u.judgeRemote o p true p.data.length = Sum.inr slot)
    ∧ (∃ (s : State) (u : State) (p : Packet) (o : Nat) (slot : Nat), s.takePacket p = some (o, u) ∧ o < 128 ∧ p.srcPos ≠ s.table.position ∧ p.op = 3
      ∧ s.requestWaits p = false ∧ u.judgeRemote o p false p.reqLen = Sum.inr slot)
    ∧ (∃ (s : State) (u : State) (p : Packet) (o : Nat) (st : Status) (retry : Nat), s.takePacket p = some (o, u) ∧ o < 128 ∧ p.srcPos ≠
      s.table.position ∧ p.op = 1 ∧ s.requestWaits p = false ∧ u.judgeRemote o p true p.data.length = Sum.inl (st, retry))
    ∧ (∃ (s : State) (u : State) (p : Packet) (o : Nat) (b : Burst), s.takePacket p = some (o, u) ∧ o < 128 ∧ p.srcPos ≠ s.table.position ∧ p.op = 2
      ∧ List.find? (fun (b : Burst) => burstTag b.id == p.tag && b.stage == 3 && !b.data.isEmpty) u.memory.bursts = some b ∧ positionOf b.dst =
      p.srcPos ∧ statusOf p.status = Status.ok ∧ u.sync.remotes = [])
    ∧ (∃ (s : State) (u : State) (p : Packet) (o : Nat) (b : Burst), s.takePacket p = some (o, u) ∧ o < 128 ∧ p.srcPos ≠ s.table.position ∧ p.op = 2
      ∧ List.find? (fun (b : Burst) => burstTag b.id == p.tag && b.stage == 3 && !b.data.isEmpty) u.memory.bursts = some b ∧ positionOf b.dst =
      p.srcPos ∧ retryable (statusOf p.status) = true)
    ∧ (∃ (s : State) (u : State) (p : Packet) (o : Nat) (b : Burst) (op : Op), s.takePacket p = some (o, u) ∧ o < 128 ∧ p.srcPos ≠ s.table.position ∧
      p.op = 4 ∧ statusOf p.status = Status.ok ∧ List.find? (fun (b : Burst) => burstTag b.id == p.tag && b.stage == 3 && b.data.isEmpty)
      u.memory.bursts = some b ∧ positionOf b.src = p.srcPos ∧ u.opById b.op = some op ∧ (dmaDesc op.data).poisonHalt = false ∧ p.data.length =
      b.len) :=
  ⟨⟨wRx wPeerCut (wPkt 1 0x100FFF 3 [9]), wTook (wRx wPeerCut (wPkt 1 0x100FFF 3 [9])), wPkt 1 0x100FFF 3 [9], 5, rfl, by decide +kernel⟩,
   ⟨wRx (wPeer) (wPkt 1 0x100FFF 3 [9]), wTook (wRx (wPeer) (wPkt 1 0x100FFF 3 [9])), wPkt 1 0x100FFF 3 [9], 5, 0, rfl, by decide +kernel⟩,
   ⟨wRx (wPeer) ({ wPkt 3 0x100000 3 [] with reqLen := 4096 }), wTook (wRx (wPeer) ({ wPkt 3 0x100000 3 [] with reqLen := 4096 })),
     { wPkt 3 0x100000 3 [] with reqLen := 4096 }, 5, 0, rfl, by decide +kernel⟩,
   ⟨wRx (wPeer) (wPkt 1 0x101000 3 [9]), wTook (wRx (wPeer) (wPkt 1 0x101000 3 [9])), wPkt 1 0x101000 3 [9], 5, .noAccess, 0, rfl, by decide +kernel⟩,
   ⟨wRx (wAways true) (wPkt 2 0 0x8002 []), wTook (wRx (wAways true) (wPkt 2 0 0x8002 [])), wPkt 2 0 0x8002 [], 5, wAway true, rfl,
     by decide +kernel⟩,
   ⟨wRx (wAways true) ({ wPkt 2 0 0x8002 [] with status := 1 }), wTook (wRx (wAways true) ({ wPkt 2 0 0x8002 [] with status := 1 })),
     { wPkt 2 0 0x8002 [] with status := 1 }, 5, wAway true, rfl, by decide +kernel⟩,
   ⟨wRx (wAways false) (wPkt 4 0 0x8002 [7]), wTook (wRx (wAways false) (wPkt 4 0 0x8002 [7])), wPkt 4 0 0x8002 [7], 5, wAway false, wDmaOp 0 0, rfl,
     by decide +kernel⟩⟩

theorem witness_MessagePacketsAct :
    (∃ (s : State) (u : State) (p : Packet) (o : Nat) (n : Nat), s.takePacket p = some (o, u) ∧ o < 128 ∧ p.srcPos ≠ s.table.position ∧ p.op = 5 ∧
      u.domainCheck o { : Reach } = none ∧ u.judgeAdd p = Sum.inr n)
    ∧ (∃ (s : State) (u : State) (p : Packet) (o : Nat) (st : Status), s.takePacket p = some (o, u) ∧ o < 128 ∧ p.srcPos ≠ s.table.position ∧ p.op =
      5 ∧ u.domainCheck o { : Reach } = none ∧ u.judgeAdd p = Sum.inl st)
    ∧ (∃ (s : State) (u : State) (p : Packet) (o : Nat) (r : RemoteAdd) (x : Pend), s.takePacket p = some (o, u) ∧ o < 128 ∧ p.srcPos ≠
      s.table.position ∧ p.op = 6 ∧ u.sync.remotes = [r] ∧ r.tag = p.tag ∧ r.sent = true ∧ r.dead = false ∧ (u.seat r.seat).inc = r.inc ∧ (u.seat
      r.seat).state ≠ SeatState.resetting ∧ Option.map (fun (x : Play) => x.seat) u.play = some r.seat ∧ (u.seq r.cd).pend = [x] ∧ x.src =
      PendSrc.taddR ∧ x.dst = r.dst)
    ∧ (∃ (s : State) (u : State) (p : Packet) (o : Nat), s.takePacket p = some (o, u) ∧ o < 128 ∧ p.srcPos ≠ s.table.position ∧ p.op = 6 ∧
      u.sync.remotes = [])
    ∧ (∃ (s : State) (u : State) (p : Packet) (o : Nat), s.takePacket p = some (o, u) ∧ o < 128 ∧ p.srcPos ≠ s.table.position ∧ p.op = 14 ∧ p.group =
      65535 ∧ u.mgmt.asked = [])
    ∧ (∃ (s : State) (u : State) (p : Packet) (o : Nat) (g : Group) (c : Coll), s.takePacket p = some (o, u) ∧ o < 128 ∧ p.srcPos ≠ s.table.position
      ∧ p.op = 14 ∧ p.group ≠ 65535 ∧ u.groups = [g] ∧ g.tenant = p.tenant ∧ g.id = p.group ∧ g.colls = [c] ∧ u.collParts g.seat g.cd [(c.record,
      16)] = true)
    ∧ (∃ (s : State) (u : State) (p : Packet) (o : Nat), s.takePacket p = some (o, u) ∧ o < 128 ∧ p.srcPos ≠ s.table.position ∧ p.op ≠ 0 ∧ knownOp
      p.op = false)
    ∧ (∃ (s : State) (u : State) (p : Packet) (o : Nat) (m : MbxPacketMsg), s.takePacket p = some (o, u) ∧ o < 128 ∧ p.srcPos ≠ s.table.position ∧
      s.takesPackets = true ∧ s.fab.rx = [] ∧ s.hears m.srcPos = true ∧ m.notice = false ∧ m.reply = false ∧ 258 < BitVec.toNat m.type ∧
      (m.receiverInc = 0 ∨ m.receiverInc = s.fw.pkgInc) ∧ Tbl.get 0 s.mgmt.peers m.srcPos = BitVec.toNat m.senderInc) :=
  ⟨⟨wRx (wGroups (wGroup [] [])) (wPkt 5 15 3 []), wTook (wRx (wGroups (wGroup [] [])) (wPkt 5 15 3 [])), wPkt 5 15 3 [], 5, 15, rfl,
     by decide +kernel⟩,
   ⟨wRx (wGroups (wGroup [] [])) (wPkt 5 16 3 []), wTook (wRx (wGroups (wGroup [] [])) (wPkt 5 16 3 [])), wPkt 5 16 3 [], 5, .noAccess, rfl,
     by decide +kernel⟩,
   ⟨wRx ({ wPlay with table := (wTab 1).table, seqs := [(3, { pend := [{ dst := .s 4, src := .taddR }] })], sync := { remotes := [wRadd] } }) (wPkt 6
     0 4 []), wTook (wRx
     ({ wPlay with table := (wTab 1).table, seqs := [(3, { pend := [{ dst := .s 4, src := .taddR }] })], sync := { remotes := [wRadd] } }) (wPkt 6 0
     4 [])), wPkt 6 0 4 [], 5, wRadd, { dst := .s 4, src := .taddR }, rfl, by decide +kernel⟩,
   ⟨wRx (wTab 1) (wPkt 6 0 4 []), wTook (wRx (wTab 1) (wPkt 6 0 4 [])), wPkt 6 0 4 [], 5, rfl, by decide +kernel⟩,
   ⟨wRx (wTab 1) ({ wPkt 14 0 4 [] with group := 0xFFFF }), wTook (wRx (wTab 1) ({ wPkt 14 0 4 [] with group := 0xFFFF })),
     { wPkt 14 0 4 [] with group := 0xFFFF }, 5, rfl, by decide +kernel⟩,
   ⟨wRx (wGroups (wGroup [wColl 7 0] [])) (wPkt 14 0 4 []), wTook (wRx (wGroups (wGroup [wColl 7 0] [])) (wPkt 14 0 4 [])), wPkt 14 0 4 [], 5, wGroup
     [wColl 7 0] [], wColl 7 0, rfl, by decide +kernel⟩,
   ⟨wRx (wTab 1) (wPkt 15 0 4 []), wTook (wRx (wTab 1) (wPkt 15 0 4 [])), wPkt 15 0 4 [], 5, rfl, by decide +kernel⟩,
   ⟨wTab 1, wTab 1, wPkt 7 0 0 [], (wTab 1).primaryPort 1,
     { srcPos := 1, type := 259, sequence := 1, reply := false, senderInc := 0, receiverInc := 1 }, rfl, by decide +kernel⟩⟩

theorem witness_SpineFramesAdvanceStreams :
    (∃ (s : State) (port : Nat) (id : Nat) (fr : SpineFrame) (c : Conn) (st : SpineStream), s.conn id = some c ∧ c.phase = 1 ∧ st = c.stream fr.bulk
      ∧ isSpine port = true ∧ (s.port port).state = PortState.active ∧ fr.conn = id ∧ (s.frameOk port fr = false ∨ c.tagGood fr false = false))
    ∧ (∃ (s : State) (port : Nat) (id : Nat) (fr : SpineFrame) (c : Conn) (st : SpineStream), s.conn id = some c ∧ c.phase = 1 ∧ st = c.stream
      fr.bulk ∧ isSpine port = true ∧ (s.port port).state = PortState.active ∧ fr.conn = id ∧ (s.frameOk port fr = false ∨ c.tagGood fr true =
      false))
    ∧ (∃ (s : State) (port : Nat) (id : Nat) (fr : SpineFrame) (c : Conn) (st : SpineStream), s.conn id = some c ∧ c.phase = 1 ∧ st = c.stream
      fr.bulk ∧ isSpine port = true ∧ (s.port port).state = PortState.active ∧ fr.conn = id ∧ s.frameOk port fr = true ∧ c.tagGood fr false = true ∧
      fr.psn = st.expect ∧ st.expect < 2 ^ 32 ∧ st.window = [] ∧ st.unacked < 7 ∧ ∀ (p : Packet), p ∈ fr.packets → isTrump p.op = false)
    ∧ (∃ (s : State) (port : Nat) (id : Nat) (fr : SpineFrame) (c : Conn) (st : SpineStream) (x : SpineTx), s.conn id = some c ∧ c.phase = 1 ∧ st =
      c.stream fr.bulk ∧ isSpine port = true ∧ (s.port port).state = PortState.active ∧ fr.conn = id ∧ s.frameOk port fr = true ∧ c.tagGood fr true =
      true ∧ st.lastAck = none ∧ st.held = [x] ∧ serialLe x.psn fr.cumAck = true ∧ st.queue = [] ∧ (c.stream !fr.bulk).queue = [] ∧ c.switching =
      false ∧ c.release = false)
    ∧ (∃ (s : State) (port : Nat) (id : Nat) (fr : SpineFrame) (c : Conn) (st : SpineStream) (l : Nat), s.conn id = some c ∧ c.phase = 1 ∧ st =
      c.stream fr.bulk ∧ isSpine port = true ∧ (s.port port).state = PortState.active ∧ fr.conn = id ∧ s.frameOk port fr = true ∧ c.tagGood fr true =
      true ∧ st.lastAck = some l ∧ st.extend true fr.psn ≤ l)
    ∧ (∃ (s : State) (id : Nat) (fr : SpineFrame) (c : Conn) (st : SpineStream) (q : Nat) (cum : Nat), s.conn id = some c ∧ c.phase = 1 ∧ st =
      c.stream fr.bulk ∧ st.uncovered ≠ [] ∧ s.spineOut (c.turn 8) = some q ∧ cum = (st.expect + 2 ^ 32 - 1) % 2 ^ 32)
    ∧ (∃ (s : State) (id : Nat) (fr : SpineFrame) (c : Conn) (st : SpineStream) (q : Nat) (x : SpineTx), s.conn id = some c ∧ c.phase = 1 ∧ st =
      c.stream fr.bulk ∧ st.held = [x] ∧ s.spineOut (c.turn x.cd) = some q ∧ x.expiries < 6)
    ∧ (∃ (s : State) (id : Nat) (fr : SpineFrame) (c : Conn) (st : SpineStream) (q : Nat) (x : SpineTx), s.conn id = some c ∧ c.phase = 1 ∧ st =
      c.stream fr.bulk ∧ st.held = [x] ∧ s.spineOut (c.turn x.cd) = some q ∧ 6 ≤ x.expiries ∧ s.groups = [] ∧ s.sync.remotes = [])
    ∧ (∃ (s : State) (port : Nat) (id : Nat) (fr : SpineFrame) (c : Conn) (st : SpineStream) (a : Nat), s.conn id = some c ∧ c.phase = 1 ∧ st =
      c.stream fr.bulk ∧ isSpine port = true ∧ (s.port port).state = PortState.active ∧ s.hasAddress port = true ∧ leNat (Tbl.get [] s.kdp.octets
      (portObj port 129)).reverse = a) :=
  ⟨⟨wSpine (wConn 1 0 {}), 64, 0, wFrame 0, wConn 1 0 {}, {}, by decide +kernel⟩,
   ⟨wSpine (wConn 1 0 {}), 64, 0, { wFrame 0 with sumsOk := false }, wConn 1 0 {}, {}, by decide +kernel⟩,
   ⟨wSpine (wConn 1 0 { expect := 4294967295, unacked := 6 }), 64, 0,
     wTagged (wConn 1 0 { expect := 4294967295, unacked := 6 }) false { wFrame 4294967295 with packets := [wPkt 7 0 0 []] }, wConn 1 0
     { expect := 4294967295, unacked := 6 }, { expect := 4294967295, unacked := 6 }, by decide +kernel⟩,
   ⟨wSpine (wConn 1 0 { held := [{ psn := 0, packets := [], expiries := 0 }] }), 64, 0,
     wTagged (wConn 1 0 {}) true (wFrame 0), wConn 1 0
     { held := [{ psn := 0, packets := [], expiries := 0 }] }, { held := [{ psn := 0, packets := [], expiries := 0 }] },
     { psn := 0, packets := [], expiries := 0 }, by decide +kernel⟩,
   ⟨wSpine (wConn 1 0 { lastAck := some 5 }), 64, 0, wTagged (wConn 1 0 { lastAck := some 5 }) true (wFrame 5), wConn 1 0 { lastAck := some 5 },
     { lastAck := some 5 }, 5, by decide +kernel⟩,
   ⟨wSpine (wConn 1 0 { uncovered := [(0, false)] }), 0, { conn := 0, bulk := false, psn := 0 }, wConn 1 0 { uncovered := [(0, false)] },
     { uncovered := [(0, false)] }, 64, 4294967295, by decide +kernel⟩,
   ⟨wSpine (wConn 1 0 { held := [{ psn := 0, packets := [], expiries := 5 }] }), 0, { conn := 0, bulk := false, psn := 0 }, wConn 1 0
     { held := [{ psn := 0, packets := [], expiries := 5 }] }, { held := [{ psn := 0, packets := [], expiries := 5 }] }, 64,
     { psn := 0, packets := [], expiries := 5 }, by decide +kernel⟩,
   ⟨wSpine (wConn 1 0 { held := [{ psn := 0, packets := [], expiries := 6 }] }), 0, { conn := 0, bulk := false, psn := 0 }, wConn 1 0
     { held := [{ psn := 0, packets := [], expiries := 6 }] }, { held := [{ psn := 0, packets := [], expiries := 6 }] }, 64,
     { psn := 0, packets := [], expiries := 6 }, by decide +kernel⟩,
   ⟨{ wSpine (wConn 1 0 {}) with kdp := { octets := [(portObj 64 0x81, 1 :: zeros 15)] } }, 64, 0, { conn := 0, bulk := false, psn := 0 }, wConn 1 0
     {}, {}, 2 ^ 120, by decide +kernel⟩⟩

theorem witness_SpineConnectionsOpenAndClose :
    (∃ (s : State) (m : CtrlMsg), ((List.filter (fun (x : Nat × Word) => x.fst == m.srcAddr) s.fab.ctrSeen).any fun (x : Nat × Word) => x.snd ==
      m.ctr) = false ∧ isSpine m.port = true ∧ s.ctrlOk 1 m = false)
    ∧ (∃ (s : State) (m : CtrlMsg), ((List.filter (fun (x : Nat × Word) => x.fst == m.srcAddr) s.fab.ctrSeen).any fun (x : Nat × Word) => x.snd ==
      m.ctr) = false ∧ isSpine m.port = true ∧ s.ctrlOk 2 m = false)
    ∧ (∃ (s : State) (m : CtrlMsg), ((List.filter (fun (x : Nat × Word) => x.fst == m.srcAddr) s.fab.ctrSeen).any fun (x : Nat × Word) => x.snd ==
      m.ctr) = false ∧ isSpine m.port = true ∧ s.ctrlOk 3 m = false)
    ∧ (∃ (s : State) (m : CtrlMsg), ((List.filter (fun (x : Nat × Word) => x.fst == m.srcAddr) s.fab.ctrSeen).any fun (x : Nat × Word) => x.snd ==
      m.ctr) = false ∧ isSpine m.port = true ∧ s.ctrlOk 4 m = false)
    ∧ (∃ (s : State) (m : CtrlMsg), ((List.filter (fun (x : Nat × Word) => x.fst == m.srcAddr) s.fab.ctrSeen).any fun (x : Nat × Word) => x.snd ==
      m.ctr) = false ∧ isSpine m.port = true ∧ s.ctrlOk 5 m = false)
    ∧ (∃ (s : State) (m : CtrlMsg) (id : Nat), ((List.filter (fun (x : Nat × Word) => x.fst == m.srcAddr) s.fab.ctrSeen).any fun (x : Nat × Word) =>
      x.snd == m.ctr) = false ∧ s.ctrlOk 1 m = true ∧ farApart s.fw.wire m.revision = false ∧ s.ownSlot = m.slot ∧ s.fab.conns = [] ∧ id = 0)
    ∧ (∃ (s : State) (m : CtrlMsg), ((List.filter (fun (x : Nat × Word) => x.fst == m.srcAddr) s.fab.ctrSeen).any fun (x : Nat × Word) => x.snd ==
      m.ctr) = false ∧ s.ctrlOk 1 m = true ∧ farApart s.fw.wire m.revision = true)
    ∧ (∃ (s : State) (m : CtrlMsg) (id : Nat) (c : Conn), ((List.filter (fun (x : Nat × Word) => x.fst == m.srcAddr) s.fab.ctrSeen).any fun (x : Nat
      × Word) => x.snd == m.ctr) = false ∧ s.conn id = some c ∧ c.trump.queue = [] ∧ c.bulk.queue = [] ∧ c.release = false ∧ s.ctrlOk 2 m = true ∧
      (s.findConn fun (c : Conn) => c.phase == 0 && c.table == m.tableId && c.position == m.position && c.slot == m.slot) = some id)
    ∧ (∃ (s : State) (m : CtrlMsg) (id : Nat) (c : Conn), ((List.filter (fun (x : Nat × Word) => x.fst == m.srcAddr) s.fab.ctrSeen).any fun (x : Nat
      × Word) => x.snd == m.ctr) = false ∧ s.conn id = some c ∧ c.trump.queue = [] ∧ c.bulk.queue = [] ∧ c.release = false ∧ s.ctrlOk 3 m = true ∧
      (s.findConn fun (c : Conn) => c.phase == 0 && c.table == m.tableId && c.position == m.position) = some id ∧ c.redirects < 2 ∧ s.inDirectory
      c.table m.redirect = true)
    ∧ (∃ (s : State) (m : CtrlMsg) (id : Nat) (c : Conn), ((List.filter (fun (x : Nat × Word) => x.fst == m.srcAddr) s.fab.ctrSeen).any fun (x : Nat
      × Word) => x.snd == m.ctr) = false ∧ s.conn id = some c ∧ c.trump.queue = [] ∧ c.bulk.queue = [] ∧ c.release = false ∧ s.ctrlOk 4 m = true ∧
      (s.findConn fun (c : Conn) => c.table == m.tableId && c.position == m.position && (c.phase == 0 || c.peerId == m.connection)) = some id ∧
      s.groups = [] ∧ s.sync.remotes = [] ∧ c.phase = 0)
    ∧ (∃ (s : State) (m : CtrlMsg) (id : Nat) (c : Conn), ((List.filter (fun (x : Nat × Word) => x.fst == m.srcAddr) s.fab.ctrSeen).any fun (x : Nat
      × Word) => x.snd == m.ctr) = false ∧ s.conn id = some c ∧ c.trump.queue = [] ∧ c.bulk.queue = [] ∧ c.release = false ∧ s.ctrlOk 4 m = true ∧
      (s.findConn fun (c : Conn) => c.table == m.tableId && c.position == m.position && (c.phase == 0 || c.peerId == m.connection)) = some id ∧
      s.groups = [] ∧ s.sync.remotes = [] ∧ c.phase ≠ 0)
    ∧ (∃ (s : State) (m : CtrlMsg) (id : Nat) (c : Conn), ((List.filter (fun (x : Nat × Word) => x.fst == m.srcAddr) s.fab.ctrSeen).any fun (x : Nat
      × Word) => x.snd == m.ctr) = false ∧ s.conn id = some c ∧ c.trump.queue = [] ∧ c.bulk.queue = [] ∧ c.release = false ∧ s.ctrlOk 5 m = true ∧
      (s.findConn fun (c : Conn) => c.phase == 2 && c.table == m.tableId && c.position == m.position) = some id)
    ∧ (∃ (s : State) (m : CtrlMsg) (id : Nat) (c : Conn), ((List.filter (fun (x : Nat × Word) => x.fst == m.srcAddr) s.fab.ctrSeen).any fun (x : Nat
      × Word) => x.snd == m.ctr) = false ∧ s.conn id = some c ∧ c.phase = 1)
    ∧ (∃ (s : State) (m : CtrlMsg) (id : Nat) (c : Conn), ((List.filter (fun (x : Nat × Word) => x.fst == m.srcAddr) s.fab.ctrSeen).any fun (x : Nat
      × Word) => x.snd == m.ctr) = false ∧ s.conn id = some c ∧ c.phase = 0 ∧ c.sends < 8)
    ∧ (∃ (s : State) (m : CtrlMsg) (id : Nat) (c : Conn), ((List.filter (fun (x : Nat × Word) => x.fst == m.srcAddr) s.fab.ctrSeen).any fun (x : Nat
      × Word) => x.snd == m.ctr) = false ∧ s.conn id = some c ∧ c.phase = 0 ∧ 8 ≤ c.sends ∧ s.groups = [] ∧ s.sync.remotes = []) :=
  ⟨⟨wSpineUp, wCtrl 8 0, by decide +kernel⟩,
   ⟨wSpineUp, wCtrl 8 0, by decide +kernel⟩,
   ⟨wSpineUp, wCtrl 8 0, by decide +kernel⟩,
   ⟨wSpineUp, wCtrl 8 0, by decide +kernel⟩,
   ⟨wSpineUp, wCtrl 8 0, by decide +kernel⟩,
   ⟨wSpineUp, wCtrlOk 1 { wCtrl 7 0 with slot := 0 }, 0, by decide +kernel⟩,
   ⟨wSpineUp, wCtrlOk 1 (wCtrl 8 0), by decide +kernel⟩,
   ⟨wSpine (wConn 0 0 { }), wCtrlOk 2 (wCtrl 7 0), 0, wConn 0 0 { }, by decide +kernel⟩,
   ⟨{ wSpine (wConn 0 0 {}) with kdp := { spineDir := [2, 0, 3] ++ zeros 133 } }, wCtrlOk 3 (wCtrl 7 3), 0, wConn 0 0 { }, by decide +kernel⟩,
   ⟨wSpine (wConn 0 0 { }), wCtrlOk 4 (wCtrl 7 0), 0, wConn 0 0 { }, by decide +kernel⟩,
   ⟨wSpine (wConn 1 0 { }), wCtrlOk 4 (wCtrl 7 0), 0, wConn 1 0 { }, by decide +kernel⟩,
   ⟨wSpine (wConn 2 0 { }), wCtrlOk 5 (wCtrl 7 0), 0, wConn 2 0 { }, by decide +kernel⟩,
   ⟨wSpine (wConn 1 0 { }), wCtrl 7 0, 0, wConn 1 0 { }, by decide +kernel⟩,
   ⟨wSpine (wConn 0 7 { }), wCtrl 7 0, 0, wConn 0 7 { }, by decide +kernel⟩,
   ⟨wSpine (wConn 0 8 { }), wCtrl 7 0, 0, wConn 0 8 { }, by decide +kernel⟩⟩

theorem witness_CollectiveAndDealInstructionsIssue :
    (∃ (s : State) (i : Issue) (c : Nat) (desc : Nat) (ins : Instr) (d : CollDesc) (g : Group) (h : Group) (k : Coll), c = i.cd.val ∧ i.signal = none
      ∧ (ins = Instr.allReduce i desc ∨ ins = Instr.reduceScatter i desc ∨ ins = Instr.allGather i desc ∨ ins = Instr.broadcast i desc ∨ ins =
      Instr.reduce i desc ∨ ins = Instr.allToAll i desc ∨ ins = Instr.barrier i desc ∨ ins = Instr.digest i desc) ∧ s.canIssue i [] [] (some
      OpUnit.coll) ∧ s.collCheck c desc true = none ∧ s.opById s.nextOp = none ∧ d = collDesc (plain (s.slabBytes c desc 64)) ∧ d.opcode = collCode
      ins ∧ s.groups = [g] ∧ g.seat = s.playSeat ∧ g.id = d.group ∧ g.cd = c ∧ g.creating = none ∧ g.broken = false ∧ g.spent = false ∧ g.colls = []
      ∧ g.early = [] ∧ g.aborts = [] ∧ g.rows = [] ∧ h = ({ g with seq := g.seq + 1 } : Group) ∧ k = d.coll h (collHash (plain (s.slabBytes c desc
      64))) s.nextOp (g.seq + 1) s.now ∧ d.fieldsOk h = true ∧ d.peerDstOk s.playEntry h k = true ∧ d.lacks h k = false ∧ k.peers ≠ [] ∧ (k.stage = 0
      → d.count ≠ 0 → k.reduced h = false ∧ ((k.level h).any fun (x : Nat) => decide (x ≠ h.rank)) = true))
    ∧ (∃ (s : State) (i : Issue) (c : Nat) (desc : Nat) (ins : Instr) (h : Op), c = i.cd.val ∧ i.signal = none ∧ (ins = Instr.dealCnt i desc ∨ ins =
      Instr.dealXch i desc ∨ ins = Instr.dealCap i desc ∨ ins = Instr.dealGth i desc ∨ ins = Instr.dealCmb i desc) ∧ s.canIssue i [] [] (some
      OpUnit.deal) ∧ s.dealCheck c desc = none ∧ s.headOp c OpUnit.deal = some h ∧ 2 ≤ h.vals.length)
    ∧ (∃ (s : State) (i : Issue) (c : Nat) (desc : Nat) (ins : Instr), c = i.cd.val ∧ i.signal = none ∧ (ins = Instr.dealCnt i desc ∨ ins =
      Instr.dealXch i desc ∨ ins = Instr.dealCap i desc ∨ ins = Instr.dealGth i desc ∨ ins = Instr.dealCmb i desc) ∧ s.canIssue i [] [] (some
      OpUnit.deal) ∧ s.dealCheck c desc = none ∧ s.headOp c OpUnit.deal = none ∧ s.groups = [] ∧ (∀ (x : Op), x ∈ s.ops → x.id < s.nextOp)) :=
  ⟨⟨{ wDesc wBarrier with groups := [wGroup [] []] }, wI, 3, 0, .barrier wI 0, collDesc wBarrier, wGroup [] [], { wGroup [] [] with seq := 1 },
     (collDesc wBarrier).coll { wGroup [] [] with seq := 1 } (collHash (plain ((wDesc wBarrier).slabBytes 3 0 64))) 0 1 (wDesc wBarrier).now,
     by and_intros <;> first | decide +kernel | exact rfl⟩,
   ⟨{ wDesc wDeal with ops := [wOp 7 3 .deal (.nop wI) [] [1, 2]] }, wI, 3, 0, .dealXch wI 0, wOp 7 3 .deal (.nop wI) [] [1, 2], by decide +kernel,
     by decide +kernel, by decide +kernel, by unfold State.canIssue; decide +kernel, by decide +kernel⟩,
   ⟨{ wDesc wDeal with ops := [wOp 7 3 .vec (.nop wI) [] []], nextOp := 8 }, wI, 3, 0, .dealCnt wI 0, by decide +kernel, by decide +kernel,
     by decide +kernel, by unfold State.canIssue; decide +kernel, by decide +kernel⟩⟩

theorem witness_GroupsAreCreatedAndDestroyed :
    (∃ (s : State) (i : Issue) (c : Nat) (desc : Nat) (b : List Byte) (g : Group), c = i.cd.val ∧ i.signal = none ∧ s.canIssue i [] [] (some
      OpUnit.coll) ∧ s.opById s.nextOp = none ∧ b = plain (s.slabBytes c desc (64 + 8 * min 16384 (s.slabField c (desc + 4) 4))) ∧ g = groupOf b
      s.playEntry.tenant s.playSeat c ∧ s.createCheck c desc = none ∧ s.judgeCreate g = Status.ok ∧ (∀ (m : Member), m ∈ g.members → m.table =
      s.table.id) ∧ s.table.creates = [] ∧ 2 ≤ g.members.length)
    ∧ (∃ (s : State) (i : Issue) (c : Nat) (desc : Nat) (b : List Byte) (g : Group), c = i.cd.val ∧ i.signal = none ∧ s.canIssue i [] [] (some
      OpUnit.coll) ∧ s.opById s.nextOp = none ∧ b = plain (s.slabBytes c desc (64 + 8 * min 16384 (s.slabField c (desc + 4) 4))) ∧ g = groupOf b
      s.playEntry.tenant s.playSeat c ∧ s.createCheck c desc = none ∧ s.judgeCreate g = Status.ok ∧ (∀ (m : Member), m ∈ g.members → m.table =
      s.table.id) ∧ s.table.creates = [] ∧ g.members.length = 1 ∧ s.clk.gated &&& groupDomains = 0 ∧ s.groups = [] ∧ ∀ (o : Op), o ∈ s.ops → o.unit ≠
      OpUnit.coll)
    ∧ (∃ (s : State) (i : Issue) (c : Nat) (desc : Nat) (b : List Byte) (g : Group), c = i.cd.val ∧ i.signal = none ∧ s.canIssue i [] [] (some
      OpUnit.coll) ∧ s.opById s.nextOp = none ∧ b = plain (s.slabBytes c desc (64 + 8 * min 16384 (s.slabField c (desc + 4) 4))) ∧ g = groupOf b
      s.playEntry.tenant s.playSeat c ∧ s.createCheck c desc = none ∧ s.judgeCreate g ≠ Status.ok)
    ∧ (∃ (s : State) (i : Issue) (c : Nat) (desc : Nat) (d : CollDesc) (g : Group), c = i.cd.val ∧ i.signal = none ∧ s.canIssue i [] [] (some
      OpUnit.coll) ∧ s.opById s.nextOp = none ∧ d = collDesc (plain (s.slabBytes c desc 64)) ∧ s.collCheck c desc false = none ∧ s.seatGroup
      s.playSeat d.group = some g ∧ g.colls = [] ∧ g.creating = none ∧ (s.ops.any fun (p : Op) => p.unit == OpUnit.deal && !p.fin && p.seat == g.seat
      && field p.data 0 2 == BitVec.toNat g.id) = false)
    ∧ (∃ (s : State) (i : Issue) (c : Nat) (desc : Nat) (d : CollDesc) (g : Group) (q : Quad), c = i.cd.val ∧ i.signal = none ∧ s.canIssue i [] []
      (some OpUnit.coll) ∧ s.opById s.nextOp = none ∧ d = collDesc (plain (s.slabBytes c desc 64)) ∧ s.collCheck c desc false = none ∧ s.seatGroup
      s.playSeat d.group = some g ∧ (g.colls ≠ [] ∨ g.creating.isSome = true ∨ (s.ops.any fun (p : Op) => p.unit == OpUnit.deal && !p.fin && p.seat
      == g.seat && field p.data 0 2 == BitVec.toNat g.id) = true) ∧ q = if g.creating.isSome = true then 0 else g.seq + 1)
    ∧ (∃ (s : State) (i : Issue) (c : Nat) (desc : Nat) (d : CollDesc), c = i.cd.val ∧ i.signal = none ∧ s.canIssue i [] [] (some OpUnit.coll) ∧
      s.opById s.nextOp = none ∧ d = collDesc (plain (s.slabBytes c desc 64)) ∧ s.collCheck c desc false = none ∧ s.seatGroup s.playSeat d.group =
      none) :=
  ⟨⟨wDesc wCreate, wI, 3, 0, wCreate, groupOf wCreate 5 1 3, by decide +kernel, by decide +kernel, by unfold State.canIssue; decide +kernel,
     by decide +kernel, by decide +kernel, rfl, by decide +kernel⟩,
   ⟨wDesc wCreate1, wI, 3, 0, wCreate1, groupOf wCreate1 5 1 3, by decide +kernel, by decide +kernel, by unfold State.canIssue; decide +kernel,
     by decide +kernel, by decide +kernel, rfl, by decide +kernel⟩,
   ⟨wDesc (wPut wCreate 0x4A [0]), wI, 3, 0, wPut wCreate 0x4A [0], groupOf (wPut wCreate 0x4A [0]) 5 1 3, by decide +kernel, by decide +kernel,
     by unfold State.canIssue; decide +kernel, by decide +kernel, by decide +kernel, rfl, by decide +kernel⟩,
   ⟨{ wDesc wBarrier with groups := [wGroup [] []] }, wI, 3, 0, collDesc wBarrier, wGroup [] [], by decide +kernel, by decide +kernel,
     by unfold State.canIssue; decide +kernel, by decide +kernel⟩,
   ⟨{ wDesc wBarrier with groups := [wGroup [wColl 7 0] []] }, wI, 3, 0, collDesc wBarrier, wGroup [wColl 7 0] [], 1, by decide +kernel,
     by decide +kernel, by unfold State.canIssue; decide +kernel, by decide +kernel⟩,
   ⟨wDesc wBarrier, wI, 3, 0, collDesc wBarrier, by decide +kernel, by decide +kernel, by unfold State.canIssue; decide +kernel, by decide +kernel⟩⟩

theorem witness_CollectiveRecordsArrive :
    (∃ (s : State) (g : Group) (r : CollRec), s.hearsFrom g r.rank r.incarnation ∧ s.fab.rx = [] ∧ s.hears (s.rankPosition r) collReach = true ∧
      g.tenant = r.tenant ∧ g.id = r.group ∧ g.colls = [] ∧ g.dealAt r.sequence = none ∧ 0 < (BitVec.ofNat 32 r.sequence - g.seq).toNat ∧
      (BitVec.ofNat 32 r.sequence - g.seq).toNat < 2 ^ 31)
    ∧ (∃ (s : State) (g : Group) (r : CollRec) (c : Coll), s.hearsFrom g r.rank r.incarnation ∧ s.fab.rx = [] ∧ s.hears (s.rankPosition r) collReach
      = true ∧ g.tenant = r.tenant ∧ g.id = r.group ∧ g.colls = [c] ∧ BitVec.toNat c.seq = r.sequence ∧ r.hash ≠ c.hash)
    ∧ (∃ (s : State) (g : Group) (r : CollRec) (c : Coll), s.hearsFrom g r.rank r.incarnation ∧ s.fab.rx = [] ∧ s.hears (s.rankPosition r) collReach
      = true ∧ g.tenant = r.tenant ∧ g.id = r.group ∧ g.colls = [c] ∧ BitVec.toNat c.seq = r.sequence ∧ r.hash = c.hash ∧ c.opcode = 7 ∧ c.peers =
      [r.rank] ∧ g.telemetry = false ∧ (c.count = 0 → ∀ (o : Op), s.opById c.op = some o → s.isHead o = true))
    ∧ (∃ (s : State) (g : Group) (r : CollRec) (c : Coll), s.hearsFrom g r.rank r.incarnation ∧ s.fab.rx = [] ∧ s.hears (s.rankPosition r) collReach
      = true ∧ g.tenant = r.tenant ∧ g.id = r.group ∧ g.colls = [c] ∧ BitVec.toNat c.seq = r.sequence ∧ c.waits g)
    ∧ (∃ (s : State) (g : Group) (r : CollRec) (c : Coll) (slot : Nat) (x : Nat) (b : Nat) (a : Nat) (n : Nat) (k : Nat) (m : Nat), s.hearsFrom g
      r.rank r.incarnation ∧ s.fab.rx = [] ∧ s.hears (s.rankPosition r) collReach = true ∧ g.tenant = r.tenant ∧ g.id = r.group ∧ g.colls = [c] ∧
      BitVec.toNat c.seq = r.sequence ∧ c.waits g ∧ r.status = Status.poison ∧ r.chunk = some x ∧ k = x % 2 ^ 32 ∧ (x / 2 ^ 32 = 2 → (c.move g r.rank
      g.rank).snd = (b, m) ∧ k * c.perChunk < m ∧ slot = c.dstSlot ∧ (a, n) = codeSpan c.dst c.bits' (b + k * c.perChunk) (min c.perChunk (m - k *
      c.perChunk))) ∧ (x / 2 ^ 32 ≠ 2 → slot = g.landSlot ∧ a = g.landing + landingOff g (x / 2 ^ 32 == 1) r.rank g.rank k ∧ n = 4096) ∧ s.collOpen g
      k [] [(a, n)] = true)
    ∧ (∃ (s : State) (g : Group) (r : CollRec) (c : Coll) (slot : Nat) (x : Nat) (b : Nat) (a : Nat) (n : Nat) (k : Nat) (m : Nat), s.hearsFrom g
      r.rank r.incarnation ∧ s.fab.rx = [] ∧ s.hears (s.rankPosition r) collReach = true ∧ g.tenant = r.tenant ∧ g.id = r.group ∧ g.colls = [c] ∧
      BitVec.toNat c.seq = r.sequence ∧ c.waits g ∧ r.status = Status.poison ∧ r.chunk = some x ∧ k = x % 2 ^ 32 ∧ (x / 2 ^ 32 = 2 → (c.move g r.rank
      g.rank).snd = (b, m) ∧ k * c.perChunk < m ∧ slot = c.dstSlot ∧ (a, n) = codeSpan c.dst c.bits' (b + k * c.perChunk) (min c.perChunk (m - k *
      c.perChunk))) ∧ (x / 2 ^ 32 ≠ 2 → slot = g.landSlot ∧ a = g.landing + landingOff g (x / 2 ^ 32 == 1) r.rank g.rank k ∧ n = 4096) ∧ s.collOpen g
      k [] [(a, n)] = false)
    ∧ (∃ (s : State) (g : Group) (r : CollRec) (c : Coll), s.hearsFrom g r.rank r.incarnation ∧ s.fab.rx = [] ∧ s.hears (s.rankPosition r) collReach
      = true ∧ g.tenant = r.tenant ∧ g.id = r.group ∧ g.colls = [c] ∧ BitVec.toNat c.seq = r.sequence ∧ (r.status = Status.peerReset → g.deals = []))
    ∧ (∃ (s : State) (g : Group) (r : CollRec) (c : Coll), s.hearsFrom g r.rank r.incarnation ∧ s.fab.rx = [] ∧ s.hears (s.rankPosition r) collReach
      = true ∧ g.tenant = r.tenant ∧ g.id = r.group ∧ g.colls = [c] ∧ BitVec.toNat c.seq = r.sequence ∧ c.waits g ∧ c.opcode = 8) :=
  ⟨⟨wGroups (wGroup [] []), wGroup [] [], wRec 1 0, by unfold State.hearsFrom; decide +kernel, by decide +kernel⟩,
   ⟨wGroups (wGroup [wColl 7 0x10] []), wGroup [wColl 7 0x10] [], wRec 1 4, wColl 7 0x10, by unfold State.hearsFrom; decide +kernel,
     by decide +kernel⟩,
   ⟨wGroups (wGroup [wColl 7 0x10] []), wGroup [wColl 7 0x10] [], wRec 1 3, wColl 7 0x10, by unfold State.hearsFrom; decide +kernel,
     by decide +kernel⟩,
   ⟨wGroups (wGroup [wColl 1 0x10] []), wGroup [wColl 1 0x10] [], wRec 1 3, wColl 1 0x10, by unfold State.hearsFrom; decide +kernel,
     by decide +kernel, by decide +kernel, by decide +kernel, by decide +kernel, by decide +kernel, by unfold Coll.waits; decide +kernel⟩,
   ⟨wGroups (wGroup [wColl 4 0x10] []), wGroup [wColl 4 0x10] [], { wRec 1 3 with status := .poison, chunk := some 0 }, wColl 4 0x10, 0, 0, 0,
     landingOff (wGroup [] []) false 1 0 0, 4096, 0, 0, by unfold State.hearsFrom; decide +kernel, by unfold Coll.waits; decide +kernel⟩,
   ⟨wGroupsIdle (wGroup [wColl 4 0x10] []), wGroup [wColl 4 0x10] [], { wRec 1 3 with status := .poison, chunk := some 0 }, wColl 4 0x10, 0, 0, 0,
     landingOff (wGroup [] []) false 1 0 0, 4096, 0, 0, by unfold State.hearsFrom; decide +kernel, by unfold Coll.waits; decide +kernel⟩,
   ⟨wGroups (wGroup [wColl 7 0x10] []), wGroup [wColl 7 0x10] [], wRec 1 3, wColl 7 0x10, by unfold State.hearsFrom; decide +kernel,
     by decide +kernel⟩,
   ⟨wGroups (wGroup [{ wColl 8 0x10 with digests := [(0, some (some 3))] }] []), wGroup [{ wColl 8 0x10 with digests := [(0, some (some 3))] }] [], wRec 1 3,
     { wColl 8 0x10 with digests := [(0, some (some 3))] }, by unfold State.hearsFrom; decide +kernel, by unfold Coll.waits; decide +kernel⟩⟩

theorem witness_CollectivePacketsLand :
    (∃ (s : State), s.takesPackets = true ∧ s.fab.rx = [] ∧ s.groups = [] ∧ s.hears s.table.position = true)
    ∧ (∃ (s : State) (u : State) (p : Packet) (o : Nat) (rank : Nat) (g : Group), s.takePacket p = some (o, u) ∧ u.hearsFrom g rank p.incarnation ∧
      g.tenant = p.tenant ∧ g.id = p.group ∧ u.rankOf g o p = some rank ∧ s.chunkWaits p = true)
    ∧ (∃ (s : State) (u : State) (p : Packet) (o : Nat) (rank : Nat) (g : Group), s.takePacket p = some (o, u) ∧ u.hearsFrom g rank p.incarnation ∧
      g.tenant = p.tenant ∧ g.id = p.group ∧ u.rankOf g o p = some rank ∧ s.rowWaits p = true)
    ∧ (∃ (s : State) (u : State) (p : Packet) (o : Nat) (rank : Nat) (g : Group) (c : Coll) (b : Nat) (n : Nat) (k : Nat), s.takePacket p = some (o,
      u) ∧ u.hearsFrom g rank p.incarnation ∧ g.tenant = p.tenant ∧ g.id = p.group ∧ u.rankOf g o p = some rank ∧ p.op = 7 ∧ u.refused o p collReach
      = none ∧ s.chunkWaits p = false ∧ g.colls = [c] ∧ c.waits g ∧ BitVec.toNat c.seq % 65536 = BitVec.toNat p.arg / 2 ^ 48 ∧ bit (BitVec.toNat
      p.arg) 47 = true ∧ (c.move g rank g.rank).snd = (b, n) ∧ k < c.chunksOf n ∧ c.bits' = 8 ∧ BitVec.toNat p.arg % 2 ^ 47 = b + k * c.perChunk)
    ∧ (∃ (s : State) (u : State) (p : Packet) (o : Nat) (rank : Nat) (g : Group), s.takePacket p = some (o, u) ∧ u.hearsFrom g rank p.incarnation ∧
      g.tenant = p.tenant ∧ g.id = p.group ∧ u.rankOf g o p = some rank ∧ p.op = 7 ∧ u.refused o p collReach = none ∧ g.currentColl p = none)
    ∧ (∃ (s : State) (u : State) (p : Packet) (o : Nat) (rank : Nat) (g : Group), s.takePacket p = some (o, u) ∧ u.hearsFrom g rank p.incarnation ∧
      g.tenant = p.tenant ∧ g.id = p.group ∧ u.rankOf g o p = some rank ∧ p.op = 9 ∧ u.refused o p dealReach = none ∧ g.deals = [] ∧ g.colls = [] ∧ 0
      < (BitVec.toNat p.tag / 8 + 8192 - BitVec.toNat g.seq % 8192) % 8192 ∧ (BitVec.toNat p.tag / 8 + 8192 - BitVec.toNat g.seq % 8192) % 8192 <
      4096)
    ∧ (∃ (s : State) (u : State) (p : Packet) (o : Nat) (rank : Nat) (g : Group) (d : Deal) (q : Quad), s.takePacket p = some (o, u) ∧ u.hearsFrom g
      rank p.incarnation ∧ g.tenant = p.tenant ∧ g.id = p.group ∧ u.rankOf g o p = some rank ∧ p.op = 9 ∧ u.refused o p dealReach = none ∧ g.deals =
      [d] ∧ d.seq = some q ∧ BitVec.toNat q % 8192 = BitVec.toNat p.tag / 8 ∧ ∀ (e : Nat), (d.cd e).exch = false)
    ∧ (∃ (s : State) (u : State) (p : Packet) (o : Nat) (rank : Nat) (g : Group), s.takePacket p = some (o, u) ∧ u.hearsFrom g rank p.incarnation ∧
      g.tenant = p.tenant ∧ g.id = p.group ∧ u.rankOf g o p = some rank ∧ p.op = 10 ∧ u.refused o p dealReach = none ∧ g.deals = [])
    ∧ (∃ (s : State) (u : State) (p : Packet) (o : Nat) (rank : Nat) (g : Group) (d : Deal) (q : Quad) (n : Nat) (x : DealCd) (k : DealDesc) (off :
      Nat), s.takePacket p = some (o, u) ∧ u.hearsFrom g rank p.incarnation ∧ g.tenant = p.tenant ∧ g.id = p.group ∧ u.rankOf g o p = some rank ∧
      p.op = 10 ∧ u.refused o p dealReach = none ∧ s.rowWaits p = false ∧ g.deals = [d] ∧ d.seq = some q ∧ BitVec.toNat q % 65536 = BitVec.toNat
      p.arg / 2 ^ 48 ∧ bit (BitVec.toNat p.arg) 47 = false ∧ d.cds = [(n, x)] ∧ x.desc ≠ [] ∧ k = dealDesc x.desc ∧ off = BitVec.toNat p.arg % 2 ^ 47
      ∧ off / k.tokenBytes < k.rowsMax ∧ off % k.tokenBytes + p.data.length ≤ k.tokenBytes) :=
  ⟨⟨wTab 1, by decide +kernel⟩,
   ⟨wRx { wGroups (wGroup [wColl 4 0x10] []) with play := some { seat := 1, phase := .issuing } } (wPkt 7 0x0001800000000000 0 [1]), wTook (wRx
     { wGroups (wGroup [wColl 4 0x10] []) with play := some { seat := 1, phase := .issuing } } (wPkt 7 0x0001800000000000 0 [1])), wPkt 7
     0x0001800000000000 0 [1], 5, 1, wGroup [wColl 4 0x10] [], rfl, by unfold State.hearsFrom; decide +kernel, by decide +kernel⟩,
   ⟨wRx (wGroups (wGroup [] [wDealIn wDeal])) (wPkt 10 0x0001000000000000 0 (zeros 64)), wTook (wRx (wGroups (wGroup [] [wDealIn wDeal])) (wPkt 10
     0x0001000000000000 0 (zeros 64))), wPkt 10 0x0001000000000000 0 (zeros 64), 5, 1, wGroup [] [wDealIn wDeal], rfl, by unfold State.hearsFrom; decide +kernel,
     by decide +kernel⟩,
   ⟨wRx (wGroups (wGroup [wColl 4 0x10] [])) (wPkt 7 0x0001800000000000 0 []), wTook (wRx (wGroups (wGroup [wColl 4 0x10] [])) (wPkt 7
     0x0001800000000000 0 [])), wPkt 7 0x0001800000000000 0 [], 5, 1, wGroup [wColl 4 0x10] [], wColl 4 0x10, 0, 1, 0, rfl,
     by unfold State.hearsFrom; decide +kernel, by unfold Coll.waits; decide +kernel⟩,
   ⟨wRx (wGroups (wGroup [] [])) (wPkt 7 0 0 []), wTook (wRx (wGroups (wGroup [] [])) (wPkt 7 0 0 [])), wPkt 7 0 0 [], 5, 1, wGroup [] [], rfl,
     by unfold State.hearsFrom; decide +kernel, by decide +kernel⟩,
   ⟨wRx (wGroups (wGroup [] [])) (wPkt 9 0 8 []), wTook (wRx (wGroups (wGroup [] [])) (wPkt 9 0 8 [])), wPkt 9 0 8 [], 5, 1, wGroup [] [], rfl,
     by unfold State.hearsFrom; decide +kernel, by decide +kernel⟩,
   ⟨wRx (wGroups (wGroup [] [wDealIn []])) (wPkt 9 0 8 []), wTook (wRx (wGroups (wGroup [] [wDealIn []])) (wPkt 9 0 8 [])), wPkt 9 0 8 [], 5, 1,
     wGroup [] [wDealIn []], wDealIn [], 1, rfl, by unfold State.hearsFrom; decide +kernel, by decide +kernel, by decide +kernel, by decide +kernel,
     by decide +kernel, by decide +kernel, by decide +kernel, by decide +kernel, by decide +kernel, fun e => rfl⟩,
   ⟨wRx (wGroups (wGroup [] [])) (wPkt 10 0 8 []), wTook (wRx (wGroups (wGroup [] [])) (wPkt 10 0 8 [])), wPkt 10 0 8 [], 5, 1, wGroup [] [], rfl,
     by unfold State.hearsFrom; decide +kernel, by decide +kernel⟩,
   ⟨wDealer (wPkt 10 0x0001000000000000 0 (zeros 64)), wTook (wDealer (wPkt 10 0x0001000000000000 0 (zeros 64))), wPkt 10 0x0001000000000000 0 (zeros
     64), 5, 1, wGroup [] [wDealIn wDeal], wDealIn wDeal, 1, 3, { desc := wDeal }, dealDesc wDeal, 0, rfl, by unfold State.hearsFrom; decide +kernel,
     by decide +kernel⟩⟩

theorem witness_CapacitySharesAddUp :
    (∃ (limit : Nat) (counts : List Nat), counts.sum ≤ limit)
    ∧ (∃ (limit : Nat) (counts : List Nat), limit < counts.sum)
    ∧ (∃ (limit : Nat) (counts : List Nat) (i : Nat), limit < counts.sum ∧ i < counts.length) :=
  ⟨⟨6, [1, 2, 3], by decide +kernel⟩,
   ⟨5, [1, 2, 3], by decide +kernel⟩,
   ⟨5, [1, 2, 3], 2, by decide +kernel⟩⟩

theorem witness_TableTimeIsApplied :
    (∃ (s : State) (m : TimeMsg) (x : Exch) (off : Int), s.fab.rx = [] ∧ s.hears m.srcPos = true ∧ s.follows m.srcPos = true ∧ s.exchange m.exchange
      = some x ∧ x.t1.isSome = true ∧ x.ok = true ∧ m.valid = true ∧ m.afterNak = false ∧ s.exchangeLate x = false ∧ s.time.stepDue = none ∧
      s.exchangeOffset ({ x with t4 := some m.stamp } : Exch) = some (off, none) ∧ -1000000 ≤ off ∧ off ≤ 1000000)
    ∧ (∃ (s : State) (m : TimeMsg) (x : Exch) (off : Int), s.fab.rx = [] ∧ s.hears m.srcPos = true ∧ s.follows m.srcPos = true ∧ s.exchange
      m.exchange = some x ∧ x.t1.isSome = true ∧ x.ok = true ∧ m.valid = true ∧ m.afterNak = false ∧ s.exchangeLate x = false ∧ s.time.stepDue = none
      ∧ s.exchangeOffset ({ x with t4 := some m.stamp } : Exch) = some (off, none) ∧ (off < -1000000 ∨ 1000000 < off ∧ s.obj 4718720 0 = 1))
    ∧ (∃ (s : State) (m : TimeMsg) (x : Exch) (off : Int), s.fab.rx = [] ∧ s.hears m.srcPos = true ∧ s.follows m.srcPos = true ∧ s.exchange
      m.exchange = some x ∧ x.t1.isSome = true ∧ x.ok = true ∧ m.valid = true ∧ m.afterNak = false ∧ s.exchangeLate x = false ∧ s.time.stepDue = none
      ∧ s.exchangeOffset ({ x with t4 := some m.stamp } : Exch) = some (off, none) ∧ 1000000 < off ∧ s.obj 4718720 0 = 0 ∧ s.time.state ≠ 3) :=
  ⟨⟨{ wTab 1 with time := { exchs := [{ num := 2, t1 := some 0, t2 := some 2000000, t3 := some 0 }] } },
     { exchange := 2, srcPos := 1, stamp := 0 }, { num := 2, t1 := some 0, t2 := some 2000000, t3 := some 0 }, 1000000, by decide +kernel⟩,
   ⟨{ wTab 1 with time := { exchs := [{ num := 2, t1 := some 2000002, t2 := some 0, t3 := some 0 }] } },
     { exchange := 2, srcPos := 1, stamp := 0 }, { num := 2, t1 := some 2000002, t2 := some 0, t3 := some 0 }, -1000001, by decide +kernel⟩,
   ⟨{ wTab 1 with time := { exchs := [{ num := 2, t1 := some 0, t2 := some 2000002, t3 := some 0 }] } },
     { exchange := 2, srcPos := 1, stamp := 0 }, { num := 2, t1 := some 0, t2 := some 2000002, t3 := some 0 }, 1000001, by decide +kernel⟩⟩

theorem witness_TimeMessagesExchangeStamps :
    (∃ (s : State), s.fab.rx = [] ∧ s.deals = true)
    ∧ (∃ (s : State) (m : TimeMsg) (old : List Exch), s.fab.rx = [] ∧ s.hears m.srcPos = true ∧ s.follows m.srcPos = true ∧ old = List.filter (fun (y
      : Exch) => y.num == BitVec.toNat m.exchange || s.exchangeLate y) s.time.exchs)
    ∧ (∃ (s : State) (m : TimeMsg) (x : Exch) (y : Exch), s.fab.rx = [] ∧ s.hears m.srcPos = true ∧ s.follows m.srcPos = true ∧ s.exchange m.exchange
      = some x ∧ x.t1 = none ∧ y = ({ x with t1 := some m.stamp, ok := x.ok && m.valid } : Exch))
    ∧ (∃ (s : State) (m : TimeMsg), s.fab.rx = [] ∧ s.deals = true ∧ s.hears m.srcPos = true)
    ∧ (∃ (s : State), s.fab.rx = [] ∧ s.time.remaining = 0)
    ∧ (∃ (s : State), s.fab.rx = [] ∧ s.time.remaining ≠ 0)
    ∧ (∃ (s : State), s.fab.rx = [] ∧ s.time.state = 1)
    ∧ (∃ (s : State), s.fab.rx = [] ∧ s.time.state ≠ 1)
    ∧ (∃ (s : State) (x : Exch) (rest : List Exch), s.fab.rx = [] ∧ s.time.exchs = x :: rest)
    ∧ (∃ (s : State), s.fab.rx = [] ∧ s.time.exchs = []) :=
  ⟨⟨wTab 0, by decide +kernel⟩,
   ⟨{ wTab 1 with time := { exchs := [{ num := 2 }] } }, { exchange := 2, srcPos := 1 }, [{ num := 2 }], by decide +kernel⟩,
   ⟨{ wTab 1 with time := { exchs := [{ num := 2 }] } }, { exchange := 2, srcPos := 1 }, { num := 2 }, { num := 2, t1 := some 0 }, by decide +kernel⟩,
   ⟨wTab 0, { exchange := 2, srcPos := 1 }, by decide +kernel⟩,
   ⟨wTab 1, by decide +kernel⟩,
   ⟨{ wTab 1 with time := { remaining := -1 } }, by decide +kernel⟩,
   ⟨{ wTab 1 with time := { state := 1 } }, by decide +kernel⟩,
   ⟨{ wTab 1 with time := { state := 2 } }, by decide +kernel⟩,
   ⟨{ wTab 1 with time := { exchs := [{}] } }, {}, [], by decide +kernel⟩,
   ⟨wTab 1, by decide +kernel⟩⟩

theorem witness_PtpDisciplinesTheDealer :
    (∃ (s : State), s.ptpOn = true ∧ s.time.master = none)
    ∧ (∃ (s : State) (gm : Word) (rank : Nat) (g : Word) (r : Nat), s.ptpOn = true ∧ s.time.master = some (g, r) ∧ g ≠ gm ∧ r ≤ rank)
    ∧ (∃ (s : State) (gm : Word) (rank : Nat) (g : Word) (r : Nat), s.ptpOn = true ∧ s.time.master = some (g, r) ∧ g ≠ gm ∧ rank < r)
    ∧ (∃ (s : State) (gm : Word) (g : Word) (r : Nat), s.ptpOn = true ∧ s.time.master = some (g, r) ∧ g ≠ gm)
    ∧ (∃ (s : State) (domain : Nat), s.ptpOn = true ∧ domain ≠ s.obj 4718722 0)
    ∧ (∃ (s : State) (gm : Word) (rank : Nat) (c : Instr) (r : Nat), s.ptpOn = true ∧ s.time.master = some (gm, r) ∧ s.time.state = 1 ∧ (c =
      Instr.ptpMasterLoss ∨ c = Instr.ptpAnnounce gm rank true (s.obj 4718722 0)))
    ∧ (∃ (s : State) (gm : Word) (rank : Nat) (seconds : Nat) (nanos : Nat) (t1 : Nat), s.ptpOn = true ∧ s.time.master = some (gm, rank) ∧
      s.time.exchs = [] ∧ ptpNs seconds nanos = some t1)
    ∧ (∃ (s : State) (seq : Half) (seconds : Nat) (nanos : Nat) (t1 : Nat) (x : Exch), s.ptpOn = true ∧ s.time.exchs = [x] ∧ x.num = BitVec.toNat seq
      ∧ x.t1 = none ∧ ptpNs seconds nanos = some t1)
    ∧ (∃ (s : State) (gm : Word) (rank : Nat) (seq : Half) (seconds : Nat) (nanos : Nat) (t4 : Nat) (x : Exch) (t1 : Word) (t2 : Word) (t3 : Word)
      (off : Int), s.ptpOn = true ∧ s.time.exchs = [x] ∧ s.time.master = some (gm, rank) ∧ x.num = BitVec.toNat seq ∧ x.t1 = some t1 ∧ x.t2 = some t2
      ∧ x.t3 = some t3 ∧ x.ok = true ∧ s.exchangeLate x = false ∧ s.time.stepDue = none ∧ ptpNs seconds nanos = some t4 ∧ x.epoch = s.time.epoch ∧
      stampEpoch t2 = BitVec.toNat s.time.epoch % 16 ∧ off = (stampNs t2 - ↑(BitVec.toNat t1) - (↑t4 - stampNs t3)) / 2 ∧ -1000000 ≤ off ∧ off ≤
      1000000) :=
  ⟨⟨wTab 0, by decide +kernel⟩,
   ⟨{ wTab 0 with time := { master := some (9, 3) } }, 8, 3, 9, 3, by decide +kernel⟩,
   ⟨{ wTab 0 with time := { master := some (9, 3) } }, 8, 2, 9, 3, by decide +kernel⟩,
   ⟨{ wTab 0 with time := { master := some (9, 3) } }, 8, 9, 3, by decide +kernel⟩,
   ⟨wTab 0, 1, by decide +kernel⟩,
   ⟨{ wTab 0 with time := { master := some (9, 3), state := 1 } }, 9, 0, .ptpMasterLoss, 3, by decide +kernel⟩,
   ⟨{ wTab 0 with time := { master := some (9, 3) } }, 9, 3, 1577836800, 0, 0, by decide +kernel⟩,
   ⟨{ wTab 0 with time := { exchs := [{ num := 2 }] } }, 2, 1577836801, 5, 1000000005, { num := 2 }, by decide +kernel⟩,
   ⟨{ wTab 0 with time := { master := some (9, 3), exchs := [{ num := 2, t1 := some 0, t2 := some 1000000, t3 := some 1000000 }] } }, 9, 3, 2,
     1577836800, 0, 0, { num := 2, t1 := some 0, t2 := some 1000000, t3 := some 1000000 }, 0, 1000000, 1000000, 1000000, by decide +kernel⟩⟩

theorem witness_TableTimersAndPromotion :
    (∃ (s : State) (d : Nat), d = s.table.roster.dealer ∧ s.atTable = true ∧ s.dozes = false ∧ d ≠ s.table.position ∧ d < 18)
    ∧ (∃ (s : State), s.hasTable = true ∧ s.dev = DevState.live ∧ s.table.roster.dealer ≠ s.table.position ∧ s.table.claim = none ∧
      s.table.wasLive s.table.position = true ∧ s.hasMajority = true)
    ∧ (∃ (s : State), s.hasMajority = false)
    ∧ (∃ (s : State), s.deals = true ∧ s.table.claim = none ∧ s.table.roster.entries.length = 18 ∧ (∀ (p : Nat), p < 18 →
      (s.table.roster.entry p).state ≠ 0))
    ∧ (∃ (s : State) (e : Nat), s.hasTable = true ∧ s.dev = DevState.live ∧ s.table.claim = some e ∧ s.calm)
    ∧ (∃ (s : State) (pos : Nat), s.deals = true ∧ s.calm ∧ pos < 18 ∧ pos ≠ s.table.position ∧ s.table.roster.entries.length = 18 ∧
      liveCode (s.posState pos) = true)
    ∧ (∃ (s : State) (ch : Channel) (n : Nat) (p : Nat), s.calm ∧ s.expertOn ch 16640 ∧ s.deals = true ∧ n < 16 ∧ (List.findIdx? (fun (x
      : RosterEntry) => x.state == 3) s.table.roster.entries = some p))
    ∧ (∃ (s : State) (ch : Channel), s.expertOn ch 16640 ∧ s.deals = false) :=
  ⟨⟨wTab 1, 1, by decide +kernel⟩,
   ⟨wPort (portTo 0 1 false) { state := .active, txGen := 1 }, by decide +kernel⟩,
   ⟨wTab 17, by decide +kernel⟩,
   ⟨{ wTab 0 with table := { (wTab 0).table with roster := { dealer := 0, entries := List.replicate 18 { state := 2 } } } },
     by decide +kernel⟩,
   ⟨{ wTab 1 with table := { (wTab 1).table with claim := some 5 } }, 5, by decide +kernel, by decide +kernel, by decide +kernel,
     by unfold State.calm; decide +kernel⟩,
   ⟨wTab 0, 1, by decide +kernel, by unfold State.calm; decide +kernel, by decide +kernel⟩,
   ⟨{ wTab 0 with table := { (wTab 0).table with roster := { dealer := 0, entries := List.replicate 17 { state := 2 } ++ [{ state := 3 }] } } },
     wExp, 15, 17, by unfold State.calm; decide +kernel, ⟨by decide +kernel, by decide +kernel, _, rfl, rfl⟩, by decide +kernel⟩,
   ⟨wTab 1, wExp, ⟨by decide +kernel, by decide +kernel, _, rfl, rfl⟩, by decide +kernel⟩⟩

theorem witness_TableMessagesChangeTheRoster :
    (∃ (s : State) (m : RosterMsg), s.fab.rx = [] ∧ s.hears m.sender = true ∧ s.calm ∧ s.fromTable m = true ∧ s.deals = true ∧
      s.table.roster.entries.length = 18 ∧ m.ownState ≠ 5 ∧ seatedCode (s.posState m.sender) = true ∧ (s.table.roster.entry m.sender).revision =
      m.revision)
    ∧ (∃ (s : State) (m : RosterMsg), s.fab.rx = [] ∧ s.hears m.sender = true ∧ s.calm ∧ s.fromTable m = true ∧ s.deals = true ∧
      s.table.roster.entries.length = 18 ∧ m.ownState ≠ 5 ∧ liveCode (s.posState m.sender) = false)
    ∧ (∃ (s : State) (m : RosterMsg), s.fab.rx = [] ∧ s.hears m.sender = true ∧ s.calm ∧ s.fromTable m = true ∧ s.deals = true ∧
      s.table.roster.entries.length = 18 ∧ m.ownState ≠ 5 ∧ s.posState m.sender = 1)
    ∧ (∃ (s : State) (m : RosterMsg), s.fab.rx = [] ∧ s.hears m.sender = true ∧ s.calm ∧ s.fromTable m = true ∧ s.deals = true ∧
      s.table.roster.entries.length = 18 ∧ m.ownState = 5 ∧ s.posState m.sender ≠ 5)
    ∧ (∃ (s : State) (m : RosterMsg), s.fab.rx = [] ∧ s.hears m.sender = true ∧ s.calm ∧ s.fromTable m = true ∧ s.table.roster.epoch < m.epoch)
    ∧ (∃ (s : State) (m : RosterMsg), s.fab.rx = [] ∧ s.hears m.sender = true ∧ s.calm ∧ s.fromTable m = true ∧ m.epoch < s.table.roster.epoch)
    ∧ (∃ (s : State) (m : RosterMsg), s.fab.rx = [] ∧ s.hears m.sender = true ∧ s.calm ∧ s.fromTable m = true ∧ s.table.claimWins m = true)
    ∧ (∃ (s : State) (m : RosterMsg), s.fab.rx = [] ∧ s.hears m.sender = true ∧ s.calm ∧ s.fromTable m = true ∧ s.table.claimWins m = false) :=
  ⟨⟨wTab 0, { dealer := 0, sender := 1, tableId := 1, revision := 6, epoch := 4 }, by unfold State.calm; decide +kernel⟩,
   ⟨wTab 0, { dealer := 0, sender := 5, tableId := 1, revision := 6, epoch := 4 }, by unfold State.calm; decide +kernel⟩,
   ⟨wJoin, { dealer := 0, sender := 1, tableId := 1, revision := 6, epoch := 4 }, by unfold State.calm; decide +kernel⟩,
   ⟨wTab 0, { dealer := 0, sender := 1, tableId := 1, revision := 6, epoch := 4, ownState := 5 }, by unfold State.calm; decide +kernel⟩,
   ⟨wTab 1, { dealer := 0, sender := 1, tableId := 1, revision := 6, epoch := 5 }, by unfold State.calm; decide +kernel⟩,
   ⟨wTab 1, { dealer := 0, sender := 1, tableId := 1, revision := 6, epoch := 3 }, by unfold State.calm; decide +kernel⟩,
   ⟨wTab 1, { dealer := 0, sender := 1, tableId := 1, revision := 6, epoch := 5 }, by unfold State.calm; decide +kernel⟩,
   ⟨wTab 1, { dealer := 0, sender := 1, tableId := 1, revision := 6, epoch := 4 }, by unfold State.calm; decide +kernel⟩⟩

theorem witness_ClocksAndDividersAct :
    (∃ (v : Word), BitVec.toNat v % 16 ≠ 4 ∧ BitVec.toNat v % 16 ≠ 5 ∧ BitVec.toNat v % 16 ≠ 6 ∧ BitVec.toNat v % 16 ≠ 8)
    ∧ (∃ (v : Word), BitVec.toNat v % 16 ∈ [4, 5, 6, 8])
    ∧ (∃ (s : State), s.clk.largest = s.clk.div)
    ∧ (∃ (s : State), s.clk.source = 2 ∧ s.clk.div < s.clk.largest)
    ∧ (∃ (s : State), s.clk.source = 2 ∧ s.clk.largest < s.clk.div ∧ s.railsReady s.clk.largest = true)
    ∧ (∃ (s : State), s.clk.source = 2 ∧ s.clk.largest < s.clk.div ∧ s.railsReady s.clk.largest = false)
    ∧ (∃ (s : State), s.brakeSeen = true ∧ s.clk.brake = false ∧ s.clk.ledger ≤ 8)
    ∧ (∃ (s : State), (s.brakeSeen = false ∨ s.clk.brake = true))
    ∧ (∃ (s : State), s.clk.brake = true)
    ∧ (∃ (s : State), s.clk.brake = false)
    ∧ (∃ (s : State) (temp : Int), 103 ≤ temp ∧ s.clk.thermalJ = false ∧ s.clk.ledger ≤ 8)
    ∧ (∃ (s : State) (temp : Int), 100 ≤ temp ∧ s.clk.thermalM = false ∧ s.clk.ledger ≤ 8)
    ∧ (∃ (temp : Int), temp < 103)
    ∧ (∃ (temp : Int), temp < 100)
    ∧ (∃ (temp : Int), temp < 98)
    ∧ (∃ (temp : Int), temp < 95)
    ∧ (∃ (temp : Int), 98 ≤ temp)
    ∧ (∃ (temp : Int), 95 ≤ temp)
    ∧ (∃ (s : State) (d : Fin 44), s.gateable d.val = true ∧ s.clk.ungating.getLsbD d.val = false)
    ∧ (∃ (s : State) (d : Fin 44), s.gateable d.val = false)
    ∧ (∃ (s : State) (d : Fin 44), s.clk.ungating.getLsbD d.val = true ∧ s.groups = [])
    ∧ (∃ (s : State) (d : Fin 44), s.clk.ungating.getLsbD d.val = false)
    ∧ (∃ (s : State), s.boot.waiting = true ∧ s.boot.held = none ∧ s.clk.xtalFail = false ∧ s.clk.source ≠ 1)
    ∧ (∃ (s : State), s.boot.waiting = true ∧ s.boot.held = none ∧ s.clk.xtalFail = false ∧ s.clk.source ≠ 1 ∧ s.dev ≠ DevState.recovering)
    ∧ (∃ (s : State), s.boot.waiting = true ∧ s.boot.held = none ∧ s.clk.xtalFail = false ∧ s.clk.source ≠ 1 ∧ s.dev = DevState.recovering)
    ∧ (∃ (s : State), s.boot.waiting = false ∨ s.boot.held.isSome = true ∨ s.clk.xtalFail = true ∨ s.clk.source = 1)
    ∧ (∃ (s : State), s.pending = [] ∧ s.clk.source = 1 ∧ s.power.tripLow = false ∧ s.dev = DevState.rom ∧ s.links.faulty = [])
    ∧ (∃ (s : State), s.clk.source = 2 ∧ (s.dev = DevState.folded ∨ s.dev = DevState.optionConflict))
    ∧ (∃ (s : State), s.clk.source = 2 ∧ s.dev ≠ DevState.folded ∧ s.dev ≠ DevState.optionConflict ∧ s.recentRecoveries < 3)
    ∧ (∃ (s : State), s.clk.source = 2 ∧ s.dev ≠ DevState.folded ∧ s.dev ≠ DevState.optionConflict ∧ 3 ≤ s.recentRecoveries)
    ∧ (∃ (s : State), s.clk.source ≠ 2) :=
  ⟨⟨7, by decide +kernel⟩,
   ⟨8, by decide +kernel⟩,
   ⟨wLive, by decide +kernel⟩,
   ⟨{ wLive with clk := { wLive.clk with ledger := 5 } }, by decide +kernel⟩,
   ⟨{ wLive with clk := { source := 2, div := 8, ledger := 4 }, power := { rails := (List.range 10).map fun k => (k, { target := 2000 }) } },
     by decide +kernel⟩,
   ⟨{ wLive with clk := { wLive.clk with div := 8 } }, by decide +kernel⟩,
   ⟨wLive, by decide +kernel⟩,
   ⟨{ wLive with clk := { wLive.clk with brake := true } }, by decide +kernel⟩,
   ⟨{ wLive with clk := { wLive.clk with brake := true } }, by decide +kernel⟩,
   ⟨wLive, by decide +kernel⟩,
   ⟨wLive, 103, by decide +kernel⟩,
   ⟨wLive, 100, by decide +kernel⟩,
   ⟨102, by decide +kernel⟩,
   ⟨99, by decide +kernel⟩,
   ⟨97, by decide +kernel⟩,
   ⟨94, by decide +kernel⟩,
   ⟨98, by decide +kernel⟩,
   ⟨95, by decide +kernel⟩,
   ⟨wLive, 7, by decide +kernel⟩,
   ⟨wPlay, 7, by decide +kernel⟩,
   ⟨{ wLive with clk := { wLive.clk with ungating := 128 } }, 7, by decide +kernel⟩,
   ⟨wLive, 43, by decide +kernel⟩,
   ⟨{ wLive with dev := .rom, clk := {}, boot := { waiting := true } }, by decide +kernel⟩,
   ⟨{ wLive with dev := .rom, clk := {}, boot := { waiting := true } }, by decide +kernel⟩,
   ⟨{ wLive with dev := .recovering, clk := {}, boot := { waiting := true } }, by decide +kernel⟩,
   ⟨wLive, by decide +kernel⟩,
   ⟨{ wLive with dev := .rom, clk := { source := 1 } }, by decide +kernel⟩,
   ⟨{ wLive with dev := .folded }, by decide +kernel⟩,
   ⟨wLive, by decide +kernel⟩,
   ⟨{ wLive with maint := { recovered := [0, 0, 0] } }, by decide +kernel⟩,
   ⟨{ wLive with clk := { wLive.clk with source := 1 } }, by decide +kernel⟩⟩

theorem witness_PowerLedgerActs :
    (∃ (s : State), s.dev = DevState.live)
    ∧ (∃ (l : List Int) (k : Nat), k < l.length)
    ∧ (∃ (s : State), s.dev = DevState.live ∧ s.clk.ledger ∈ [4, 5, 6, 8])
    ∧ (∃ (s : State), s.dev ≠ DevState.live)
    ∧ (∃ (s : State) (die : Fin 10) (g : Grant), Tbl.get none s.power.sent die.val = some g ∧ s.messageClear 8 die.val = false)
    ∧ (∃ (s : State) (die : Fin 10) (g : Grant), Tbl.get none s.power.sent die.val = some g ∧ s.messageClear 8 die.val = true)
    ∧ (∃ (s : State) (die : Fin 10), s.dev ≠ DevState.live ∨ die.val ∈ s.clk.fallback)
    ∧ (∃ (s : State) (die : Fin 10), Tbl.get none s.power.sent die.val = none)
    ∧ (∃ (s : State) (die : Fin 10), s.dev = DevState.live ∧ ¬die.val ∈ s.clk.fallback ∧ s.clk.ledger ≤ 8)
    ∧ (∃ (s : State) (die : Fin 10), (s.power.die die.val).missed = 10)
    ∧ (∃ (s : State) (die : Fin 10), (s.power.die die.val).missed ≠ 10)
    ∧ (∃ (s : State) (rail : Fin 10) (mv : Nat), (s.power.rail rail.val).step = true ∧ (s.power.rail rail.val).target ≤ mv + 10 ∧ mv ≤ (s.power.rail
      rail.val).target + 10)
    ∧ (∃ (s : State) (rail : Fin 10), (s.power.rail rail.val).step = false)
    ∧ (∃ (s : State) (rail : Fin 10) (mv : Nat), (mv + 10 < (s.power.rail rail.val).target ∨ (s.power.rail rail.val).target + 10 < mv))
    ∧ (∃ (s : State) (rail : Fin 10), (s.power.rail rail.val).step = true)
    ∧ (∃ (rail : Nat), rail < 19) :=
  ⟨⟨wLive, by decide +kernel⟩,
   ⟨[5], 0, by decide +kernel⟩,
   ⟨wLive, by decide +kernel⟩,
   ⟨{ wLive with dev := .folded }, by decide +kernel⟩,
   ⟨{ wLive with power := { wLive.power with sent := [(3, some {})] }, links := { failed := List.range 32 } }, 3, {}, by decide +kernel⟩,
   ⟨{ wLive with power := { wLive.power with sent := [(9, some {})] } }, 9, {}, by decide +kernel⟩,
   ⟨{ wLive with clk := { wLive.clk with fallback := [9] } }, 9, by decide +kernel⟩,
   ⟨wLive, 9, by decide +kernel⟩,
   ⟨wLive, 9, by decide +kernel⟩,
   ⟨{ wLive with power := { wLive.power with dies := [(9, { missed := 10 })] } }, 9, by decide +kernel⟩,
   ⟨wLive, 9, by decide +kernel⟩,
   ⟨{ wLive with power := { wLive.power with rails := [(9, { target := 800, step := true })] } }, 9, 790, by decide +kernel⟩,
   ⟨wLive, 9, by decide +kernel⟩,
   ⟨{ wLive with power := { wLive.power with rails := [(9, { target := 800, step := true })] } }, 9, 789, by decide +kernel⟩,
   ⟨{ wLive with power := { wLive.power with rails := [(9, { target := 800, step := true })] } }, 9, by decide +kernel⟩,
   ⟨18, by decide +kernel⟩⟩

theorem witness_DomainsAndDozeAct :
    (∃ (s : State) (d : Fin 13), s.mayClose d.val = true ∧ s.domain d.val = 0)
    ∧ (∃ (s : State) (d : Fin 13), s.mayClose d.val = false)
    ∧ (∃ (s : State) (d : Fin 13), s.mayClose d.val = true ∧ s.domain d.val = 3)
    ∧ (∃ (s : State) (d : Fin 13) (u : State), u = s.finishSpine ∧ s.domain d.val = 1 ∧ u.drained d.val = true ∧ s.power.dozing ≠ 1 ∧
      s.power.later.contains (d.val, true) = false)
    ∧ (∃ (s : State) (d : Fin 13) (u : State), u = s.finishSpine ∧ s.domain d.val = 1 ∧ u.drained d.val = true ∧ s.power.dozing ≠ 1 ∧
      s.power.later.contains (d.val, true) = true)
    ∧ (∃ (s : State) (d : Fin 13) (u : State), u = s.finishSpine ∧ s.domain d.val = 1 ∧ u.drained d.val = true ∧ s.power.dozing = 1 ∧ s.power.wakeDue
      = false ∧ s.power.later.contains (d.val, true) = false ∧ ∀ (k : Nat), k < 13 → k ≠ d.val → s.domain k = 2 ∨ s.domain k = 3)
    ∧ (∃ (s : State) (d : Fin 13), s.finishSpine.drained d.val = false ∨ s.domain d.val ≠ 1)
    ∧ (∃ (s : State) (d : Fin 13), s.domain d.val ≠ 1)
    ∧ (∃ (s : State) (d : Fin 13), d.val < 8 ∧ s.domain d.val = 1 ∧ s.fab.rx = [] ∧ s.sync.inbox = [] ∧ (List.map (fun (x : Burst) => x.id)
      s.memory.bursts).Nodup ∧ s.power.dozing ≠ 1 ∧ s.power.later = [])
    ∧ (∃ (s : State) (d : Fin 13), 9 ≤ d.val ∧ s.domain d.val = 1 ∧ s.power.dozing ≠ 1 ∧ s.power.later = [])
    ∧ (∃ (s : State) (d : Fin 13), s.domain d.val = 0)
    ∧ (∃ (s : State) (d : Fin 13), s.domain d.val = 1)
    ∧ (∃ (s : State) (d : Fin 13), s.domain d.val = 2)
    ∧ (∃ (s : State) (d : Fin 13), s.domain d.val = 3 ∧ (s.dozes = true ∧ s.power.dozing ≠ 2 ∨ d.val < 8 ∧ (s.power.rail d.val).step = true))
    ∧ (∃ (s : State) (d : Fin 13), s.domain d.val = 3 ∧ (d.val < 8 → (s.power.rail d.val).step = false) ∧ s.power.later.contains (d.val, false) =
      false ∧ s.power.dozing ≠ 2 ∧ s.dozes = false)
    ∧ (∃ (s : State) (d : Fin 13), s.domain d.val = 3 ∧ (d.val < 8 → (s.power.rail d.val).step = false) ∧ s.power.later.contains (d.val, false) =
      false ∧ s.power.dozing = 2 ∧ (∀ (k : Nat), k < 13 → k ≠ d.val → s.domain k ≠ 3) ∧ s.links.faulty = [] ∧ s.host.heldCmds = [])
    ∧ (∃ (s : State) (ch : Channel), s.expertOn ch 8197 ∧ s.mayDoze = true ∧ (∀ (n : Nat), (s.seat n).cached = false))
    ∧ (∃ (s : State) (ch : Channel), s.expertOn ch 8197 ∧ s.mayDoze = false)
    ∧ (∃ (s : State) (ch : Channel) (x : Session), s.dev = DevState.doze ∧ s.power.dozing = 0 ∧ s.chanReaches ch 4352 = true ∧ List.find? (fun (x :
      Session) => x.ch == ch) s.kdp.sessions = some x ∧ x.expert = true)
    ∧ (∃ (s : State), s.dev = DevState.doze ∧ s.power.dozing = 0)
    ∧ (∃ (s : State), s.dev = DevState.doze ∧ s.power.dozing = 0 ∧ s.obj 2098561 0 ≠ 0)
    ∧ (∃ (s : State), s.obj 2098561 0 = 0)
    ∧ (∃ (s : State), s.power.dozing = 1)
    ∧ (∃ (s : State), s.dev ≠ DevState.doze ∧ s.power.dozing ≠ 1) :=
  ⟨⟨{ wLive with dev := .live, power := { wLive.power with dozing := 1 } }, 9, by decide +kernel⟩,
   ⟨wLive, 0, by decide +kernel⟩,
   ⟨{ wLive with dev := .live, power := { wLive.power with dozing := 1, domains := [(9, 3)] } }, 9, by decide +kernel⟩,
   ⟨{ wLive with dev := .live, power := { wLive.power with domains := [(9, 1)] } }, 9, _, rfl, by decide +kernel⟩,
   ⟨{ wLive with dev := .live, power := { wLive.power with domains := [(9, 1)], later := [(9, true)] } }, 9, _, rfl, by decide +kernel⟩,
   ⟨{ wLive with dev := .live, power := { wLive.power with dozing := 1, domains := (List.range 13).map fun k => (k, if k = 9 then 1 else 2) } }, 9,
     _, rfl, by decide +kernel⟩,
   ⟨wLive, 0, by decide +kernel⟩,
   ⟨wLive, 0, by decide +kernel⟩,
   ⟨{ wLive with dev := .live, power := { wLive.power with domains := [(3, 1)] } }, 3, by decide +kernel⟩,
   ⟨{ wLive with dev := .live, power := { wLive.power with domains := [(9, 1)] } }, 9, by decide +kernel⟩,
   ⟨wLive, 0, by decide +kernel⟩,
   ⟨{ wLive with dev := .live, power := { wLive.power with domains := [(3, 1)] } }, 3, by decide +kernel⟩,
   ⟨{ wLive with dev := .live, power := { wLive.power with domains := [(3, 2)] } }, 3, by decide +kernel⟩,
   ⟨{ wLive with dev := .live, power := { wLive.power with domains := [(3, 3)], rails := [(3, { step := true })] } }, 3, by decide +kernel⟩,
   ⟨{ wLive with dev := .live, power := { wLive.power with domains := [(3, 3)] } }, 3, by decide +kernel⟩,
   ⟨{ wLive with dev := .doze, power := { wLive.power with dozing := 2, domains := [(3, 3)] } }, 3, by decide +kernel⟩,
   ⟨wLive, wExp, ⟨by decide +kernel, by decide +kernel, _, rfl, rfl⟩, by decide +kernel, fun n => rfl⟩,
   ⟨wPlay, wExp, ⟨by decide +kernel, by decide +kernel, _, rfl, rfl⟩, by decide +kernel⟩,
   ⟨{ wLive with dev := .doze }, wExp, { id := 1, ch := wExp, expert := true }, by decide +kernel⟩,
   ⟨{ wLive with dev := .doze }, by decide +kernel⟩,
   ⟨{ wLive with dev := .doze, objs := [(0x200581, some 7)] }, by decide +kernel⟩,
   ⟨wLive, by decide +kernel⟩,
   ⟨{ wLive with dev := .live, power := { wLive.power with dozing := 1 } }, by decide +kernel⟩,
   ⟨wLive, by decide +kernel⟩⟩

theorem witness_ResetSourcesAct :
    (∃ (s : State), s.power.good ||| ↑(1 <<< 10) ≠ 524287)
    ∧ (∃ (s : State) (rail : Nat), rail < 19 ∧ rail ≠ 10 ∧ s.monitored rail = true ∧ s.dev ≠ DevState.cold)
    ∧ (∃ (s : State) (rail : Nat), (19 ≤ rail ∨ s.monitored rail = false))
    ∧ (∃ (s : State), s.dev ≠ DevState.options ∧ s.resetting = none ∧ s.resetNAction ≠ 1)
    ∧ (∃ (s : State), s.dev ≠ DevState.options ∧ s.resetting = none ∧ s.resetNAction = 1 ∧ s.boot.beenLive = true ∧ s.dev ≠ DevState.folded)
    ∧ (∃ (s : State), s.dev = DevState.options)
    ∧ (∃ (s : State), s.dev ≠ DevState.options ∧ s.resetting = some 4)
    ∧ (∃ (s : State), s.boot.held = none)
    ∧ (∃ (s : State) (cause : Nat), s.boot.held = some (4, cause))
    ∧ (∃ (s : State), s.dev ≠ DevState.options ∧ s.resetting = none ∧ s.perstAction = 0)
    ∧ (∃ (s : State), s.dev ≠ DevState.options ∧ s.resetting = none ∧ s.perstAction = 2)
    ∧ (∃ (s : State), s.dev ≠ DevState.options ∧ s.boot.perstLow = false ∧ s.linkdownAction = 0 ∧ s.host.linkUp = true ∧ s.resetting = none)
    ∧ (∃ (s : State), (s.boot.perstLow = true ∨ s.linkdownAction = 1))
    ∧ (∃ (s : State) (ch : Channel), s.expertOn ch 4352 ∧ (∀ (f : Func), ch ≠ Channel.mailbox f) ∧ bit s.cmdResetMask (resetSource ch).fst = true ∧
      s.boot.delayed = none)
    ∧ (∃ (s : State) (ch : Channel), s.expertOn ch 4352 ∧ (∀ (f : Func), ch ≠ Channel.mailbox f) ∧ bit s.cmdResetMask (resetSource ch).fst = false)
    ∧ (∃ (s : State), s.boot.delayed = none)
    ∧ (∃ (s : State) (cause : Nat), s.dev ≠ DevState.options ∧ s.boot.delayed = some (4, cause, true) ∧ s.resetting = none)
    ∧ (∃ (s : State) (f : ImageFacts), s.ohmegRuns = true ∧ s.dev ≠ DevState.folded ∧ s.resetting = none ∧ s.boot.beenLive = true ∧ s.boot.code =
      some f ∧ s.boot.digest = some f.digest ∧ s.maint.journal.kind = 0 ∧ s.links.faulty = [])
    ∧ (∃ (s : State) (f : ImageFacts) (reason : Nat), s.ohmegRuns = true ∧ s.dev ≠ DevState.folded ∧ s.resetting = none ∧ s.boot.beenLive = true ∧
      s.boot.code = some f ∧ s.boot.digest = some f.digest ∧ s.maint.journal.kind = 0 ∧ s.links.faulty = [] ∧ s.dev = DevState.live ∧ 1 ≤ reason ∧
      reason ≤ 5 ∧ reason ≠ 2 ∧ s.recentRecoveries < 3)
    ∧ (∃ (s : State) (reason : Nat), s.dev = DevState.live ∧ 1 ≤ reason ∧ reason ≤ 5 ∧ s.resetting = none ∧ 3 ≤ s.recentRecoveries)
    ∧ (∃ (s : State), s.ohmegRuns = true ∧ s.resetting = none)
    ∧ (∃ (s : State), s.boot.beenLive = false)
    ∧ (∃ (s : State), s.boot.beenLive = false ∧ s.ohmegRuns = true ∧ s.resetting = none)
    ∧ (∃ (s : State), s.ohmegRuns = false)
    ∧ (∃ (s : State), s.sec.level = 2 ∧ s.dev ≠ DevState.options ∧ s.resetting = none)
    ∧ (∃ (s : State), s.sec.level ≠ 2)
    ∧ (∃ (s : State) (temp : Int), 110 ≤ temp ∧ s.clk.tripped = false)
    ∧ (∃ (temp : Int), temp < 110) :=
  ⟨⟨State.reset, by decide +kernel⟩,
   ⟨wLive, 9, by decide +kernel⟩,
   ⟨wLive, 19, by decide +kernel⟩,
   ⟨wLive, by decide +kernel⟩,
   ⟨{ wLive with dev := .live, boot := { wLive.boot with record := wPut (zeros 256) 0xB [1] } }, by decide +kernel⟩,
   ⟨{ wLive with dev := .options }, by decide +kernel⟩,
   ⟨State.reset, by decide +kernel⟩,
   ⟨wLive, by decide +kernel⟩,
   ⟨{ wLive with dev := .live, boot := { wLive.boot with held := some (4, 3) } }, 3, by decide +kernel⟩,
   ⟨wLive, by decide +kernel⟩,
   ⟨{ wLive with dev := .live, boot := { wLive.boot with record := wPut (zeros 256) 0xC [2] } }, by decide +kernel⟩,
   ⟨wLive, by decide +kernel⟩,
   ⟨{ wLive with dev := .live, boot := { wLive.boot with perstLow := true } }, by decide +kernel⟩,
   ⟨wLive, wExp, ⟨by decide +kernel, by decide +kernel, _, rfl, rfl⟩, (fun f h => by cases h), by decide +kernel, by decide +kernel⟩,
   ⟨{ wLive with dev := .live, boot := { wLive.boot with record := wPut (zeros 256) 0xE [0] } }, wExp, ⟨by decide +kernel, by decide +kernel, _, rfl,
     rfl⟩, (fun f h => by cases h), by decide +kernel⟩,
   ⟨wLive, by decide +kernel⟩,
   ⟨{ wLive with dev := .live, boot := { wLive.boot with delayed := some (4, 8, true) } }, 8, by decide +kernel⟩,
   ⟨{ wLive with dev := .live, boot := { wLive.boot with code := some {}, digest := some 0 } }, {}, by decide +kernel⟩,
   ⟨{ wLive with dev := .live, boot := { wLive.boot with code := some {}, digest := some 0 } }, {}, 1, by decide +kernel⟩,
   ⟨{ wLive with maint := { recovered := [0, 0, 0] } }, 5, by decide +kernel⟩,
   ⟨wLive, by decide +kernel⟩,
   ⟨{ wLive with boot := {} }, by decide +kernel⟩,
   ⟨{ wLive with boot := {} }, by decide +kernel⟩,
   ⟨State.reset, by decide +kernel⟩,
   ⟨{ wLive with sec := { level := 2 } }, by decide +kernel⟩,
   ⟨wLive, by decide +kernel⟩,
   ⟨wLive, 110, by decide +kernel⟩,
   ⟨109, by decide +kernel⟩⟩

theorem witness_BringUpAndLoadAct :
    (∃ (s : State) (rail : Nat), rail < 19 ∧ (s.power.good ||| ↑(1 <<< rail) ≠ 524287 ∨ s.dev ≠ DevState.cold))
    ∧ (∃ (s : State) (rail : Nat), rail < 19 ∧ s.power.good ||| ↑(1 <<< rail) = 524287 ∧ s.dev = DevState.cold ∧ s.clk.tripped = false ∧
      s.boot.scope = 4 ∧ s.boot.resetLow = true)
    ∧ (∃ (s : State) (rail : Nat), rail < 19 ∧ s.power.good ||| ↑(1 <<< rail) = 524287 ∧ s.dev = DevState.cold ∧ s.clk.tripped = false ∧
      s.boot.scope = 4 ∧ s.boot.resetLow = false ∧ (∀ (b : Nat), b < 4 → (voteBlock (s.fuseCopies b)).fst.isSome = true) ∧ (chooseRecord
      (Tbl.get [] s.boot.eeprom 0) (Tbl.get [] s.boot.eeprom 1)).snd ≠ 3)
    ∧ (∃ (s : State) (rail : Nat) (b : Nat), rail < 19 ∧ s.power.good ||| ↑(1 <<< rail) = 524287 ∧ s.dev = DevState.cold ∧ s.clk.tripped
      = false ∧ s.boot.scope = 4 ∧ s.boot.resetLow = false ∧ b < 4 ∧ (voteBlock (s.fuseCopies b)).fst = none)
    ∧ (∃ (s : State) (ch : Channel) (data : List Byte), s.expertOn ch 40962 ∧ data.length = 256)
    ∧ (∃ (s : State) (ch : Channel) (data : List Byte), s.expertOn ch 40962 ∧ data.length ≠ 256)
    ∧ (∃ (s : State) (f : Func) (seq : Half) (r : Req), s.openReq (↑f) seq 2 = some r ∧ s.dev = DevState.staging ∧ s.boot.load = none ∧
      field r.payload 0 8 % 4096 = 0 ∧ field r.payload 8 4 % 4096 = 0 ∧ 4096 ≤ field r.payload 8 4 ∧ field r.payload 8 4 ≤ 33554432)
    ∧ (∃ (s : State) (f : Func) (seq : Half) (r : Req), s.openReq (↑f) seq 2 = some r ∧ s.dev = DevState.staging ∧ s.boot.load = none ∧
      (field r.payload 0 8 % 4096 ≠ 0 ∨ 33554432 < field r.payload 8 4))
    ∧ (∃ (s : State) (f : Func) (seq : Half), s.openReq (↑f) seq 2 = none)
    ∧ (∃ (s : State) (x : Half × Nat × Nat) (facts : ImageFacts), s.boot.load = some x ∧ s.judgeImage facts = Status.ok)
    ∧ (∃ (s : State) (x : Half × Nat × Nat) (facts : ImageFacts) (r : ReadEnd), s.boot.load = some x ∧ (r ≠ ReadEnd.good ∨ s.judgeImage
      facts ≠ Status.ok))
    ∧ (∃ (s : State), s.boot.load = none)
    ∧ (∃ (s : State) (block : Nat), s.ohmegRuns = true ∧ 113 < block)
    ∧ (∃ (s : State) (block : Nat), s.ohmegRuns = true ∧ block ≤ 113 ∧ s.boot.blockBusy = true)
    ∧ (∃ (s : State) (block : Nat), s.ohmegRuns = true ∧ block ≤ 113 ∧ s.boot.blockBusy = false ∧ s.blockIdle block = false)
    ∧ (∃ (s : State) (block : Nat), s.ohmegRuns = true ∧ block ≤ 113 ∧ s.boot.blockBusy = false ∧ s.blockIdle block = true)
    ∧ (∃ (s : State), s.ohmegRuns = false)
    ∧ (∃ (s : State), s.boot.blockBusy = true)
    ∧ (∃ (s : State), s.boot.blockBusy = false) :=
  ⟨⟨State.reset, 18, by decide +kernel⟩,
   ⟨{ wLive with dev := .cold, power := { good := 0x7FFFE }, boot := { wLive.boot with resetLow := true } }, 0, by decide +kernel⟩,
   ⟨{ wLive with dev := .cold, power := { good := 0x7FFFE } }, 0, by decide +kernel⟩,
   ⟨{ wLive with dev := .cold, power := { good := 0x7FFFE }, boot := { wLive.boot with fuses := [(9, { clean := false }), (10, { clean := false })] } },
     0, 3, by decide +kernel⟩,
   ⟨wLive, wExp, zeros 256, ⟨by decide +kernel, by decide +kernel, _, rfl, rfl⟩, by decide +kernel⟩,
   ⟨wLive, wExp, [], ⟨by decide +kernel, by decide +kernel, _, rfl, rfl⟩, by decide +kernel⟩,
   ⟨{ wLive with dev := .staging, fw := { reqs := [{ f := 0, type := 2, seq := 1, seat := 0, hostInc := 0, payload := [0, 16, 0, 0, 0, 0, 0, 0, 0, 0, 0, 2] }] } },
     0, 1, { f := 0, type := 2, seq := 1, seat := 0, hostInc := 0, payload := [0, 16, 0, 0, 0, 0, 0, 0, 0, 0, 0, 2] },
     by decide +kernel⟩,
   ⟨{ wLive with dev := .staging, fw := { reqs := [{ f := 0, type := 2, seq := 1, seat := 0, hostInc := 0, payload := [0, 16, 0, 0, 0, 0, 0, 0, 0, 16, 0, 2] }] } },
     0, 1, { f := 0, type := 2, seq := 1, seat := 0, hostInc := 0, payload := [0, 16, 0, 0, 0, 0, 0, 0, 0, 16, 0, 2] },
     by decide +kernel⟩,
   ⟨wLive, 0, 0, by decide +kernel⟩,
   ⟨{ wLive with dev := .staging, boot := { wLive.boot with load := some (1, 0, 4096) } }, (1, 0, 4096), {}, by decide +kernel⟩,
   ⟨{ wLive with dev := .staging, boot := { wLive.boot with load := some (1, 0, 4096) } }, (1, 0, 4096), { svn := 128, part := 7 },
     .good, by decide +kernel⟩,
   ⟨wLive, by decide +kernel⟩,
   ⟨wLive, 114, by decide +kernel⟩,
   ⟨{ wLive with dev := .live, boot := { wLive.boot with blockBusy := true } }, 113, by decide +kernel⟩,
   ⟨wPlay, 0, by decide +kernel⟩,
   ⟨wLive, 0x50, by decide +kernel⟩,
   ⟨State.reset, by decide +kernel⟩,
   ⟨{ wLive with dev := .live, boot := { wLive.boot with blockBusy := true } }, by decide +kernel⟩,
   ⟨wLive, by decide +kernel⟩⟩

theorem witness_FirmwareServicesAct :
    (∃ (s : State), s.mgmt.armed = false)
    ∧ (∃ (s : State) (core : Fin 14), s.mgmt.armed = true ∧ (core.val = 1 ∨ core.val = 3) ∧ s.supPaused = false ∧ ((s.recentRestarts (if core.val = 1
      then 1 else 4)).length < s.obj 8388993 3))
    ∧ (∃ (s : State), s.dev ≠ DevState.options ∧ s.mgmt.armed = true ∧ s.watchdogAction = 1 ∧ s.resetting = none)
    ∧ (∃ (s : State) (core : Fin 5), ¬core.val ∈ s.mgmt.late)
    ∧ (∃ (s : State) (core : Fin 5), s.dev ≠ DevState.options ∧ core.val ∈ s.mgmt.late ∧ s.watchdogAction = 1 ∧ s.resetting = none)
    ∧ (∃ (s : State) (comp : Nat), s.ohmegRuns = true ∧ comp ∈ [1, 2, 3, 4, 6] ∧ (s.recentRestarts comp).length < s.obj 8388993 3)
    ∧ (∃ (s : State), s.ohmegRuns = true ∧ s.watchdogAction = 1 ∧ s.resetting = none)
    ∧ (∃ (s : State) (comp : Nat), s.ohmegRuns = true ∧ 6 < comp)
    ∧ (∃ (s : State) (f : Func) (seq : Half) (r : Req), s.openReq (f.val) seq 1 = some r ∧ r.sendInc = 0)
    ∧ (∃ (s : State) (f : Func) (seq : Half) (r : Req), s.openReq (f.val) seq 1 = some r ∧ r.sendInc ≠ 0)
    ∧ (∃ (s : State) (f : Func) (seq : Half) (r : Req) (e : Entry) (idx : Nat) (amount : Nat), s.openReq (f.val) seq 4 = some r ∧ e = (s.seat
      r.seat).entry ∧ idx = field r.payload 0 4 ∧ amount = field r.payload 4 4 ∧ r.f ≠ 0 ∧ e.owner ≠ r.f)
    ∧ (∃ (s : State) (f : Func) (seq : Half) (r : Req) (e : Entry) (idx : Nat) (amount : Nat), s.openReq (f.val) seq 4 = some r ∧ e = (s.seat
      r.seat).entry ∧ idx = field r.payload 0 4 ∧ amount = field r.payload 4 4 ∧ (r.f = 0 ∨ e.owner = r.f) ∧ r.seat ≠ 65535 ∧ (s.seat r.seat).state ≠
      SeatState.free ∧ (s.seat r.seat).state ≠ SeatState.resetting ∧ idx < e.pkgCount ∧ amount ≠ 0 ∧ BitVec.toNat (Tbl.get 0 s.sync.pkgTally
      (e.pkgBase + idx)) + s.queuedAmount (e.pkgBase + idx) + amount < 2 ^ 64)
    ∧ (∃ (s : State) (f : Func) (seq : Half), s.openReq (f.val) seq 1 = none)
    ∧ (∃ (s : State) (f : Func) (seq : Half), s.openReq (f.val) seq 4 = none)
    ∧ (∃ (s : State), s.ohmegRuns = true) :=
  ⟨⟨wLive, by decide +kernel⟩,
   ⟨{ wLive with mgmt := { armed := true } }, 3, by decide +kernel⟩,
   ⟨{ wLive with mgmt := { armed := true }, boot := { wLive.boot with record := wPut (zeros 256) 0xF [1] } }, by decide +kernel⟩,
   ⟨wLive, 4, by decide +kernel⟩,
   ⟨{ wLive with mgmt := { late := [3] }, boot := { wLive.boot with record := wPut (zeros 256) 0xF [1] } }, 3, by decide +kernel⟩,
   ⟨wLive, 6, by decide +kernel⟩,
   ⟨{ wLive with mgmt := {}, boot := { wLive.boot with record := wPut (zeros 256) 0xF [1] } }, by decide +kernel⟩,
   ⟨wLive, 7, by decide +kernel⟩,
   ⟨wReq ({ f := 0, type := 1, seq := 1, seat := 1, hostInc := 2, sendInc := 0, payload := [] }), 0, 1,
     { f := 0, type := 1, seq := 1, seat := 1, hostInc := 2, sendInc := 0, payload := [] }, by decide +kernel⟩,
   ⟨wReq ({ f := 0, type := 1, seq := 1, seat := 1, hostInc := 2, sendInc := 3, payload := [] }), 0, 1,
     { f := 0, type := 1, seq := 1, seat := 1, hostInc := 2, sendInc := 3, payload := [] }, by decide +kernel⟩,
   ⟨{ wSeat 1 (wPlaying false) with fw := { reqs := [{ f := 1, type := 4, seq := 1, seat := 0, hostInc := 2 }] } }, 1, 1,
     { f := 1, type := 4, seq := 1, seat := 0, hostInc := 2 }, {}, 0, 0, by decide +kernel⟩,
   ⟨{ wSeat 1 (wPlaying false) with fw := { reqs := [{ f := 0, type := 4, seq := 1, seat := 1, hostInc := 2, sendInc := 0, payload := [15, 0, 0, 0, 7, 0, 0, 0] }] } },
     0, 1, { f := 0, type := 4, seq := 1, seat := 1, hostInc := 2, sendInc := 0, payload := [15, 0, 0, 0, 7, 0, 0, 0] }, (wPlaying false).entry, 15,
     7, by decide +kernel⟩,
   ⟨wLive, 0, 0, by decide +kernel⟩,
   ⟨wLive, 0, 0, by decide +kernel⟩,
   ⟨wLive, by decide +kernel⟩⟩

theorem witness_LiveUpdateRuns :
    (∃ (s : State) (f : Func) (seq : Half) (r : Req) (img : Nat) (stage : Nat) (len : Nat), s.openReq (↑f) seq 16 = some r ∧ img = field
      r.payload 0 8 ∧ stage = field r.payload 8 8 ∧ len = field r.payload 16 4 ∧ s.mgmt.updReq = none ∧ len % 4096 = 0 ∧ 4096 ≤ len ∧ len
      ≤ 33554432 ∧ img % 4096 = 0 ∧ stage % 4096 = 0 ∧ inFar stage 33554432 = true ∧ s.stageTaken stage = false ∧ s.fw.stage = none ∧
      s.mayStart 2 = true)
    ∧ (∃ (s : State) (f : Func) (seq : Half) (r : Req) (img : Nat) (stage : Nat) (len : Nat), s.openReq (↑f) seq 16 = some r ∧ img =
      field r.payload 0 8 ∧ stage = field r.payload 8 8 ∧ len = field r.payload 16 4 ∧ s.mgmt.updReq = none ∧ (len % 4096 ≠ 0 ∨ 33554432
      < len))
    ∧ (∃ (s : State) (f : Func) (seq : Half) (r : Req) (img : Nat) (stage : Nat) (len : Nat), s.openReq (↑f) seq 16 = some r ∧ img =
      field r.payload 0 8 ∧ stage = field r.payload 8 8 ∧ len = field r.payload 16 4 ∧ s.mgmt.updReq = none ∧ len % 4096 = 0 ∧ 4096 ≤ len
      ∧ len ≤ 33554432 ∧ img % 4096 = 0 ∧ stage % 4096 = 0 ∧ inFar stage 33554432 = true ∧ s.stageTaken stage = true)
    ∧ (∃ (s : State) (img : Nat) (stage : Nat) (got : Nat) (data : List Byte), s.mgmt.reading = some (img, stage, got) ∧ got +
      data.length ≤ 33554432)
    ∧ (∃ (s : State), s.mgmt.reading = none)
    ∧ (∃ (s : State) (seq : Half) (inc : Quad) (img : Nat) (stage : Nat) (got : Nat) (facts : ImageFacts), s.mgmt.updReq = some (seq,
      inc) ∧ s.mgmt.reading = some (img, stage, got) ∧ s.judgeImage facts = Status.ok ∧ facts.handoverOk = true ∧ s.wireOk
      facts.wireRevision = true)
    ∧ (∃ (s : State) (seq : Half) (inc : Quad) (img : Nat) (stage : Nat) (got : Nat) (r : ReadEnd), s.mgmt.updReq = some (seq, inc) ∧
      s.mgmt.reading = some (img, stage, got) ∧ r ≠ ReadEnd.good)
    ∧ (∃ (s : State), s.mgmt.updReq = none)
    ∧ (∃ (s : State) (f : Func) (seq : Half) (r : Req), s.openReq (↑f) seq 17 = some r ∧ s.mgmt.updReq = none ∧ s.maint.journal.kind = 2
      ∧ s.maint.journal.step = 1)
    ∧ (∃ (s : State) (f : Func) (seq : Half) (r : Req), s.openReq (↑f) seq 17 = some r ∧ s.mgmt.updReq = none ∧ (s.maint.journal.kind ≠ 2
      ∨ s.maint.journal.step ≠ 1))
    ∧ (∃ (s : State) (facts : ImageFacts), s.mgmt.staged = some facts ∧ s.maint.journal.kind = 2 ∧ 2 ≤ s.maint.journal.step ∧
      s.maint.journal.step < 16)
    ∧ (∃ (s : State) (facts : ImageFacts), s.mgmt.staged = some facts ∧ s.maint.journal.kind = 2 ∧ s.maint.journal.step = 16 ∧
      s.mgmt.late = [] ∧ s.fw.wire = facts.wireRevision)
    ∧ (∃ (s : State), s.mgmt.staged = none)
    ∧ (∃ (s : State) (f : Func) (seq : Half) (r : Req), s.openReq (↑f) seq 18 = some r ∧ s.maint.journal.kind = 2 ∧ s.maint.journal.step
      = 1)
    ∧ (∃ (s : State) (f : Func) (seq : Half) (r : Req), s.openReq (↑f) seq 18 = some r ∧ (s.maint.journal.kind ≠ 2 ∨ s.maint.journal.step
      ≠ 1)) :=
  ⟨⟨wReq ({ f := 0, type := 16, seq := 1, seat := 1, hostInc := 2, sendInc := 0, payload := zeros 11 ++ [0x10, 0, 0, 0, 0, 0, 0x10, 0, 0] }),
    0, 1,
    { f := 0, type := 16, seq := 1, seat := 1, hostInc := 2, sendInc := 0, payload := zeros 11 ++ [0x10, 0, 0, 0, 0, 0, 0x10, 0, 0] }, 0,
    0x10000000, 0x1000, by decide +kernel⟩,
   ⟨wReq ({ f := 0, type := 16, seq := 1, seat := 1, hostInc := 2, sendInc := 0, payload := zeros 16 ++ [1, 0, 0, 0] }), 0, 1,
     { f := 0, type := 16, seq := 1, seat := 1, hostInc := 2, sendInc := 0, payload := zeros 16 ++ [1, 0, 0, 0] }, 0, 0, 1,
     by decide +kernel⟩,
   ⟨wReq ({ f := 0, type := 16, seq := 1, seat := 1, hostInc := 2, sendInc := 0, payload := zeros 11 ++ [0, 0, 0, 0, 0, 0, 0x10, 0, 0] }),
     0, 1,
     { f := 0, type := 16, seq := 1, seat := 1, hostInc := 2, sendInc := 0, payload := zeros 11 ++ [0, 0, 0, 0, 0, 0, 0x10, 0, 0] }, 0,
     0, 0x1000, by decide +kernel⟩,
   ⟨{ wLive with mgmt := { updReq := some (1, 2), reading := some (0, 0x10000000, 0) } }, 0, 0x10000000, 0, [1, 2], by decide +kernel⟩,
   ⟨wLive, by decide +kernel⟩,
   ⟨{ wLive with mgmt := { updReq := some (1, 2), reading := some (0, 0x10000000, 0) } }, 1, 2, 0, 0x10000000, 0, {}, by decide +kernel⟩,
   ⟨{ wLive with mgmt := { updReq := some (1, 2), reading := some (0, 0x10000000, 0) } }, 1, 2, 0, 0x10000000, 0, .poisoned,
     by decide +kernel⟩,
   ⟨wLive, by decide +kernel⟩,
   ⟨{ wReq ({ f := 0, type := 17, seq := 1, seat := 1, hostInc := 2, sendInc := 0, payload := [] }) with maint := { journal := { kind := 2, step := 1 } } },
     0, 1, { f := 0, type := 17, seq := 1, seat := 1, hostInc := 2, sendInc := 0, payload := [] }, by decide +kernel⟩,
   ⟨{ wReq ({ f := 0, type := 17, seq := 1, seat := 1, hostInc := 2, sendInc := 0, payload := [] }) with maint := { journal := { kind := 2, step := 2 } } },
     0, 1, { f := 0, type := 17, seq := 1, seat := 1, hostInc := 2, sendInc := 0, payload := [] }, by decide +kernel⟩,
   ⟨{ wLive with maint := { journal := { kind := 2, step := 15 } }, mgmt := { staged := some {} } }, {}, by decide +kernel⟩,
   ⟨{ wLive with maint := { journal := { kind := 2, step := 16 } }, mgmt := { staged := some {} }, fw := { wire := 6 } }, {},
     by decide +kernel⟩,
   ⟨wLive, by decide +kernel⟩,
   ⟨{ wReq ({ f := 0, type := 18, seq := 1, seat := 1, hostInc := 2, sendInc := 0, payload := [] }) with maint := { journal := { kind := 2, step := 1 } } },
     0, 1, { f := 0, type := 18, seq := 1, seat := 1, hostInc := 2, sendInc := 0, payload := [] }, by decide +kernel⟩,
   ⟨{ wReq ({ f := 0, type := 18, seq := 1, seat := 1, hostInc := 2, sendInc := 0, payload := [] }) with maint := { journal := { kind := 1, step := 1 } } },
     0, 1, { f := 0, type := 18, seq := 1, seat := 1, hostInc := 2, sendInc := 0, payload := [] }, by decide +kernel⟩⟩

theorem witness_DictionaryOperationsAnswer :
    (∃ (s : State) (ch : Channel) (m : KdpMsg) (x : Session) (ob : Obj) (v : List Byte), s.asks ch m x ∧ s.names m x ob ∧ ob.access ≠
      Access.wo ∧ v = s.readObj m.index ob ∧ m.offset = 0 ∧ m.length = 0 ∧ x.maxMsg = 1244)
    ∧ (∃ (s : State) (ch : Channel) (m : KdpMsg) (x : Session) (n : Nat), s.asks ch m x ∧ s.chanReaches x.ch m.index = true ∧ objectsOf
      m.index ≠ [] ∧ (kindIndex m.index = 20480 → m.index - 20480 < s.entries) ∧ m.sub = 0 ∧ m.offset = 0 ∧ (n = (List.filter (fun (r :
      Obj) => decide (r.sub < 128) || x.expert) (objectsOf m.index)).length) ∧ m.length = 0)
    ∧ (∃ (s : State) (ch : Channel) (m : KdpMsg) (x : Session) (n : Nat), s.asks ch m x ∧ s.chanReaches x.ch m.index = true ∧ objectsOf
      m.index ≠ [] ∧ (kindIndex m.index = 20480 → m.index - 20480 < s.entries) ∧ m.sub = 0 ∧ m.offset = 0 ∧ (n = (List.filter (fun (r :
      Obj) => decide (r.sub < 128) || x.expert) (objectsOf m.index)).length))
    ∧ (∃ (s : State) (ch : Channel) (m : KdpMsg) (x : Session) (ob : Obj), s.asks ch m x ∧ s.names m x ob ∧ ob.access = Access.wo)
    ∧ (∃ (s : State) (ch : Channel) (m : KdpMsg) (x : Session), s.asks ch m x ∧ s.chanReaches x.ch m.index = true ∧ objectsOf m.index =
      [])
    ∧ (∃ (s : State) (ch : Channel) (m : KdpMsg) (x : Session) (ob : Obj), s.asks ch m x ∧ s.names m x ob ∧ ob.access.writable = false)
    ∧ (∃ (s : State) (ch : Channel) (m : KdpMsg) (x : Session) (ob : Obj), s.asks ch m x ∧ s.names m x ob ∧ ob.access.writable = true ∧
      ob.type.isDomain = false ∧ m.data.length ≠ ob.type.size)
    ∧ (∃ (s : State) (ch : Channel) (m : KdpMsg) (x : Session), s.asks ch m x ∧ s.chanReaches x.ch 8192 = true ∧ m.index = 8192 ∧ m.sub =
      2 ∧ m.offset = 0 ∧ m.data.length = 4 ∧ 1500 ≤ leNat m.data ∧ leNat m.data ≤ 3000)
    ∧ (∃ (s : State) (ch : Channel) (m : KdpMsg) (x : Session), s.asks ch m x ∧ s.chanReaches x.ch 8192 = true ∧ m.index = 8192 ∧ m.sub =
      2 ∧ m.offset = 0 ∧ m.data.length = 8 ∧ List.take 4 m.data = leBytes 4 (s.obj 2097154 3000) ∧ 1500 ≤ leNat (List.drop 4 m.data) ∧
      leNat (List.drop 4 m.data) ≤ 3000)
    ∧ (∃ (s : State) (ch : Channel) (m : KdpMsg) (x : Session), s.asks ch m x ∧ s.chanReaches x.ch 8192 = true ∧ m.index = 8192 ∧ m.sub =
      2 ∧ m.offset = 0 ∧ m.data.length = 8 ∧ List.take 4 m.data ≠ leBytes 4 (s.obj 2097154 3000))
    ∧ (∃ (s : State) (ch : Channel) (m : KdpMsg) (x : Session) (ob : Obj), s.asks ch m x ∧ s.names m x ob)
    ∧ (∃ (s : State) (ch : Channel) (m : KdpMsg) (x : Session), s.asks ch m x)
    ∧ (∃ (s : State) (ch : Channel) (m : KdpMsg) (n : Fin 8), ch = Channel.net ↑n ∧ s.dev = DevState.live ∧ s.channelUp ch = true ∧
      m.major = 1 ∧ m.data.length = 8 ∧ field m.data 0 1 = 0 ∧ s.kdp.sessions = [] ∧ s.kdp.lastId + 1 ≠ 0)
    ∧ (∃ (s : State) (ch : Channel) (m : KdpMsg) (x : Session) (op : Nat) (st : Status) (aux : Nat) (d : List Byte), s.dev =
      DevState.live ∧ s.channelUp ch = true ∧ m.major = 1 ∧ (∀ (f : Func), ch ≠ Channel.mailbox f) ∧ (List.find? (fun (y : Session) =>
      y.ch == ch && y.id == m.session) s.kdp.sessions = some x) ∧ (List.find? (fun (x : Half × Nat × Status × Nat × List Byte) => x.fst
      == m.sequence) x.held = some (m.sequence, op, st, aux, d)))
    ∧ (∃ (s : State) (ch : Channel) (m : KdpMsg), s.dev = DevState.live ∧ s.channelUp ch = true ∧ m.major ≠ 1)
    ∧ (∃ (s : State) (ch : Channel) (n : Nat), ch = Channel.net n ∧ s.dev = DevState.live ∧ s.channelUp ch = false)
    ∧ (∃ (s : State) (f : Func) (seq : Half) (r : Req), s.openReq (↑f) seq 5 = some r ∧ r.payload.length < 28)
    ∧ (∃ (s : State) (f : Func) (seq : Half) (r : Req), s.openReq (↑f) seq 5 = some r ∧ 28 + (kdpOf r.payload).snd.length ≤
      r.payload.length ∧ (kdpOf r.payload).fst = 7 ∧ (kdpOf r.payload).snd.major = 1 ∧ (kdpOf r.payload).snd.session = 0 ∧ s.dev =
      DevState.live ∧ s.fnEnabled ↑f = true ∧ ((s.kdp.sessions.any fun (x : Session) => x.ch == Channel.mailbox f) = false))
    ∧ (∃ (s : State) (a : Fin 3) (n : Nat), s.dev = DevState.live ∧ s.ownsAddress a = true ∧ (List.find? (fun (n : Nat) => (Tbl.get none
      s.kdp.assocs n).isNone) (List.range 8) = some n) ∧ s.obj 4391046 1 ≠ 0 ∧ s.hasAnchor true = true)
    ∧ (∃ (s : State) (a : Fin 3) (n : Nat) (e : Bool) (b : Bool), s.dev = DevState.live ∧ s.ownsAddress a = true ∧ (List.find? (fun (n :
      Nat) => (Tbl.get none s.kdp.assocs n).isNone) (List.range 8) = some n) ∧ s.obj 4391046 1 ≠ 0 ∧ (e && s.hasAnchor true) = false ∧ (b
      && s.hasAnchor false) = false) :=
  ⟨⟨wAsk, wExp, wMsg 0x2000 2 ([]), wSess, wCap, wAsk.readObj 0x2000 wCap,
    ⟨rfl, by decide +kernel, rfl, (fun f h => by cases h), by decide +kernel⟩,
    by unfold State.names; decide +kernel, by decide +kernel⟩,
   ⟨wAsk, wExp, wMsg 0x2000 0 ([]), wSess, 3,
     ⟨rfl, by decide +kernel, rfl, (fun f h => by cases h), by decide +kernel⟩, by decide +kernel⟩,
   ⟨wAsk, wExp, wMsg 0x2000 0 ([]), wSess, 3,
     ⟨rfl, by decide +kernel, rfl, (fun f h => by cases h), by decide +kernel⟩, by decide +kernel⟩,
   ⟨wAsk, wExp, wMsg 0x1100 0x80 ([]), wSess, obj 0x80 "reset_request" .u8 .wo,
     ⟨rfl, by decide +kernel, rfl, (fun f h => by cases h), by decide +kernel⟩,
     by unfold State.names; decide +kernel, by decide +kernel⟩,
   ⟨wAsk, wExp, wMsg 0x2FFF 1 ([]), wSess,
     ⟨rfl, by decide +kernel, rfl, (fun f h => by cases h), by decide +kernel⟩, by decide +kernel,
     by decide +kernel⟩,
   ⟨wAsk, wExp, wMsg 0x2000 1 ([]), wSess, obj 1 "package_power" .u32 .ro,
     ⟨rfl, by decide +kernel, rfl, (fun f h => by cases h), by decide +kernel⟩,
     by unfold State.names; decide +kernel, by decide +kernel⟩,
   ⟨wAsk, wExp, wMsg 0x2000 2 ([1]), wSess, wCap,
     ⟨rfl, by decide +kernel, rfl, (fun f h => by cases h), by decide +kernel⟩,
     by unfold State.names; decide +kernel, by decide +kernel⟩,
   ⟨wAsk, wExp, wMsg 0x2000 2 ([0xDC, 5, 0, 0]), wSess,
     ⟨rfl, by decide +kernel, rfl, (fun f h => by cases h), by decide +kernel⟩, by decide +kernel⟩,
   ⟨wAsk, wExp, wMsg 0x2000 2 ([0xB8, 0xB, 0, 0, 0xB8, 0xB, 0, 0]), wSess,
     ⟨rfl, by decide +kernel, rfl, (fun f h => by cases h), by decide +kernel⟩, by decide +kernel⟩,
   ⟨wAsk, wExp, wMsg 0x2000 2 ([0, 0, 0, 0, 0xB8, 0xB, 0, 0]), wSess,
     ⟨rfl, by decide +kernel, rfl, (fun f h => by cases h), by decide +kernel⟩, by decide +kernel⟩,
   ⟨wAsk, wExp, wMsg 0x2000 2 ([]), wSess, wCap,
     ⟨rfl, by decide +kernel, rfl, (fun f h => by cases h), by decide +kernel⟩,
     by unfold State.names; decide +kernel⟩,
   ⟨wAsk, wExp, wMsg 0 0 ([]), wSess,
     ⟨rfl, by decide +kernel, rfl, (fun f h => by cases h), by decide +kernel⟩⟩,
   ⟨{ wLive with kdp := { assocs := [(3, some { expert := false, basic := true, peer := 0, addr := 0 })] } }, .net 3,
     { data := zeros 8 }, 3, by decide +kernel⟩,
   ⟨{ wAsk with kdp := { wAsk.kdp with sessions := [{ wSess with held := [(1, 4, .ok, 0, [])] }] } }, wExp, wMsg 0 0 [],
     { wSess with held := [(1, 4, .ok, 0, [])] }, 4, .ok, 0, [], by decide +kernel, by decide +kernel, by decide +kernel,
     (fun f h => by cases h), by decide +kernel, by decide +kernel⟩,
   ⟨wAsk, wExp, { major := 2 }, by decide +kernel⟩,
   ⟨wLive, .net 8, 8, by decide +kernel⟩,
   ⟨wReq ({ f := 0, type := 5, seq := 1, seat := 1, hostInc := 2, sendInc := 0, payload := zeros 27 }), 0, 1,
     { f := 0, type := 5, seq := 1, seat := 1, hostInc := 2, sendInc := 0, payload := zeros 27 }, by decide +kernel⟩,
   ⟨wReq ({ f := 0, type := 5, seq := 1, seat := 1, hostInc := 2, sendInc := 0, payload := [1, 0, 7, 0] ++ zeros 24 }), 0, 1,
     { f := 0, type := 5, seq := 1, seat := 1, hostInc := 2, sendInc := 0, payload := [1, 0, 7, 0] ++ zeros 24 }, by decide +kernel⟩,
   ⟨{ wLive with mgmt := { link := 1 }, objs := [(0x430086, some 1)], kdp := { octets := [(0x700080, [1])] } }, 0, 0, by decide +kernel⟩,
   ⟨{ wLive with mgmt := { link := 1 }, objs := [(0x430086, some 1)] }, 0, 0, true, true, by decide +kernel⟩⟩

theorem witness_DictionaryWritesTakeEffect :
    (∃ (s : State) (ch : Channel) (v : Quad), s.writerOn ch 8192 ∧ 1500 ≤ BitVec.toNat v ∧ BitVec.toNat v ≤ 3000)
    ∧ (∃ (s : State) (ch : Channel) (v : Quad), s.writerOn ch 8192 ∧ (BitVec.toNat v < 1500 ∨ 3000 < BitVec.toNat v))
    ∧ (∃ (s : State) (ch : Channel) (data : List Byte), s.expertOn ch 24832 ∧ data.length = 4)
    ∧ (∃ (s : State) (ch : Channel) (data : List Byte), s.expertOn ch 24832 ∧ data.length ≠ 4)
    ∧ (∃ (s : State) (ch : Channel), s.expertOn ch 24832)
    ∧ (∃ (s : State) (ch : Channel) (n : Nat), n < 34 ∧ s.expertOn ch (16384 + n))
    ∧ (∃ (s : State) (ch : Channel) (q : Fin 8) (v : Nat), s.expertOn ch (16448 + ↑q) ∧ (s.port (64 + ↑q)).state ≠ PortState.hello ∧
      (s.port (64 + ↑q)).state ≠ PortState.active ∧ v < 2 ^ 128)
    ∧ (∃ (s : State) (ch : Channel), s.expertOn ch 24577)
    ∧ (∃ (s : State) (ch : Channel) (v : Byte), s.expertOn ch 24577 ∧ 1 < BitVec.toNat v)
    ∧ (∃ (s : State) (ch : Channel), s.expertOn ch 24592)
    ∧ (∃ (s : State) (ch : Channel) (id : Quad), s.expertOn ch 28673 ∧ (∃ (x : Session), x ∈ s.kdp.sessions ∧ x.id = id ∧ x.isOpen =
      true))
    ∧ (∃ (s : State) (ch : Channel) (id : Quad), s.expertOn ch 28673 ∧ (∀ (x : Session), x ∈ s.kdp.sessions → x.id = id → x.isOpen =
      false))
    ∧ (∃ (s : State) (ch : Channel), s.expertOn ch 28672)
    ∧ (∃ (s : State) (ch : Channel), s.expertOn ch 17152)
    ∧ (∃ (s : State) (ch : Channel) (v : Nat), s.expertOn ch 28672 ∧ v < 2 ^ 256)
    ∧ (∃ (s : State) (ch : Channel) (slot : Byte), s.expertOn ch 28672 ∧ slot ≠ 0 ∧ Tbl.get none s.keyBind (BitVec.toNat slot) = none)
    ∧ (∃ (s : State) (ch : Channel) (slot : Byte), s.expertOn ch 28672 ∧ (slot = 0 ∨ (Tbl.get none s.keyBind (BitVec.toNat slot)).isSome
      = true))
    ∧ (∃ (s : State) (ch : Channel) (v : Byte) (img : ImageFacts), s.expertOn ch 28672 ∧ s.fw.image = some img ∧ img.revoke = 0 ∧
      s.active 2 = false ∧ s.sec.svn ≤ BitVec.toNat v ∧ BitVec.toNat v ≤ img.svn)
    ∧ (∃ (s : State) (ch : Channel) (v : Byte) (img : ImageFacts), s.expertOn ch 28672 ∧ s.fw.image = some img ∧ img.revoke = 0 ∧
      s.active 2 = false ∧ (BitVec.toNat v < s.sec.svn ∨ img.svn < BitVec.toNat v))
    ∧ (∃ (s : State) (ch : Channel) (m : DebugTokenMsg), s.expertOn ch 28672 ∧ m.level = 1 ∧ s.judgeToken m = Status.ok)
    ∧ (∃ (s : State) (ch : Channel) (m : DebugTokenMsg), s.expertOn ch 28672 ∧ m.nonce ≠ leNat s.debugNonce)
    ∧ (∃ (s : State) (ch : Channel) (n : Nat), s.expertOn ch 28672 ∧ s.sec.level ≠ 0 ∧ (s.seat n).state ≠ SeatState.free ∧ (s.seat
      n).entry.tenant = s.sec.tenant)
    ∧ (∃ (s : State) (ch : Channel) (n : Nat), s.expertOn ch 28672 ∧ (s.sec.level = 0 ∨ (s.seat n).state = SeatState.free))
    ∧ (∃ (s : State) (c : Cd), s.issuing ↑c = true ∧ s.breakAt ↑c = true)
    ∧ (∃ (s : State) (c : Cd), s.issuing ↑c = true ∧ s.breakAt ↑c = false) :=
  ⟨⟨wLive, wExp, 3000, by unfold State.writerOn; decide +kernel, by decide +kernel, by decide +kernel⟩,
   ⟨wLive, wExp, 1499, by unfold State.writerOn; decide +kernel, by decide +kernel⟩,
   ⟨wLive, wExp, zeros 4, ⟨by decide +kernel, by decide +kernel, _, rfl, rfl⟩, by decide +kernel⟩,
   ⟨wLive, wExp, [], ⟨by decide +kernel, by decide +kernel, _, rfl, rfl⟩, by decide +kernel⟩,
   ⟨wLive, wExp, ⟨by decide +kernel, by decide +kernel, _, rfl, rfl⟩⟩,
   ⟨wLive, wExp, 33, by decide +kernel, ⟨by decide +kernel, by decide +kernel, _, rfl, rfl⟩⟩,
   ⟨wLive, wExp, 7, 2 ^ 128 - 1, ⟨by decide +kernel, by decide +kernel, _, rfl, rfl⟩, by decide +kernel⟩,
   ⟨wLive, wExp, ⟨by decide +kernel, by decide +kernel, _, rfl, rfl⟩⟩,
   ⟨wLive, wExp, 2, ⟨by decide +kernel, by decide +kernel, _, rfl, rfl⟩, by decide +kernel⟩,
   ⟨wLive, wExp, ⟨by decide +kernel, by decide +kernel, _, rfl, rfl⟩⟩,
   ⟨wLive, wExp, 1, ⟨by decide +kernel, by decide +kernel, _, rfl, rfl⟩,
     ⟨{ id := 1, ch := wExp, expert := true }, by decide +kernel, rfl, by decide +kernel⟩⟩,
   ⟨wLive, wExp, 2, ⟨by decide +kernel, by decide +kernel, _, rfl, rfl⟩, by decide +kernel⟩,
   ⟨wLive, wExp, ⟨by decide +kernel, by decide +kernel, _, rfl, rfl⟩⟩,
   ⟨wLive, wExp, ⟨by decide +kernel, by decide +kernel, _, rfl, rfl⟩⟩,
   ⟨wLive, wExp, 2 ^ 256 - 1, ⟨by decide +kernel, by decide +kernel, _, rfl, rfl⟩, by decide +kernel⟩,
   ⟨wLive, wExp, 1, ⟨by decide +kernel, by decide +kernel, _, rfl, rfl⟩, by decide +kernel, by decide +kernel⟩,
   ⟨{ wLive with keyBind := [(1, some 5)] }, wExp, 1, ⟨by decide +kernel, by decide +kernel, _, rfl, rfl⟩, by decide +kernel⟩,
   ⟨{ wLive with fw := { image := some { svn := 4 } } }, wExp, 4, { svn := 4 }, ⟨by decide +kernel, by decide +kernel, _, rfl, rfl⟩,
     by decide +kernel⟩,
   ⟨{ wLive with fw := { image := some { svn := 4 } } }, wExp, 5, { svn := 4 }, ⟨by decide +kernel, by decide +kernel, _, rfl, rfl⟩,
     by decide +kernel⟩,
   ⟨wLive, wExp, { level := 1, tenant := 5, serial := 0, notAfter := 0, nonce := leNat wLive.debugNonce },
     ⟨by decide +kernel, by decide +kernel, _, rfl, rfl⟩, by decide +kernel,
     (by unfold State.judgeToken; simp only [ne_eq, not_true_eq_false, decide_false, Bool.or_false]; decide +kernel)⟩,
   ⟨wLive, wExp, { level := 1, tenant := 5, serial := 0, notAfter := 0, nonce := leNat wLive.debugNonce + 1 },
     ⟨by decide +kernel, by decide +kernel, _, rfl, rfl⟩, Nat.succ_ne_self _⟩,
   ⟨{ wSeat 1 (wPlaying false) with sec := { level := 1, tenant := 5 } }, wExp, 1, ⟨by decide +kernel, by decide +kernel, _, rfl, rfl⟩,
     by decide +kernel⟩,
   ⟨wLive, wExp, 1, ⟨by decide +kernel, by decide +kernel, _, rfl, rfl⟩, by decide +kernel⟩,
   ⟨{ wPlay with sec := { breaks := [(0, some { seat := 1, mask := 255, pc := 0 })] } }, 0, by decide +kernel⟩,
   ⟨wPlay, 0, by decide +kernel⟩⟩

theorem witness_EndpointAnswers :
    (∃ (s : State) (eid : Byte), s.dictOff = false ∧ eid ≠ 0 ∧ eid ≠ 255)
    ∧ (∃ (s : State) (eid : Byte), s.dictOff = false ∧ (eid = 0 ∨ eid = 255))
    ∧ (∃ (s : State), s.dictOff = false)
    ∧ (∃ (s : State) (ty : Byte), s.dictOff = false ∧ (ty = 255 ∨ ty = 0))
    ∧ (∃ (s : State) (ty : Byte), s.dictOff = false ∧ ¬ty ∈ [0, 1, 5, 6, 126, 255])
    ∧ (∃ (s : State) (ty : Byte), s.dictOff = false ∧ ty ∈ [1, 5, 6, 126])
    ∧ (∃ (s : State) (k : Byte), s.dictOff = false ∧ k ≠ 0)
    ∧ (∃ (s : State) (ty : Byte), s.dictOff = false ∧ ty ≠ 0 ∧ ty ≠ 2)
    ∧ (∃ (s : State) (ty : Byte), s.dictOff = false ∧ (ty = 0 ∨ ty = 2))
    ∧ (∃ (s : State) (n : Nat), s.dictOff = false ∧ 1 ≤ n ∧ n ≤ 27)
    ∧ (∃ (s : State) (n : Nat), s.dictOff = false ∧ (n = 0 ∨ 27 < n))
    ∧ (∃ (s : State) (n : Nat), s.dictOff = false ∧ n ≠ 28)
    ∧ (∃ (s : State), s.dictOff = false ∧ s.spdmBusy = false)
    ∧ (∃ (s : State) (k : Byte), s.dictOff = false ∧ s.spdmBusy = false ∧ 1 ≤ BitVec.toNat k ∧ BitVec.toNat k ≤ 7)
    ∧ (∃ (s : State) (vdm : Bool) (eid : Nat), s.dictOff = false ∧ s.spdmBusy = false ∧ ((List.filter (fun (x : Bool × Nat × Bool) => x.fst == vdm &&
      x.snd.fst == eid) s.kdp.secured).length < 4))
    ∧ (∃ (s : State) (vdm : Bool) (eid : Nat), s.dictOff = false ∧ s.spdmBusy = false ∧ (4 ≤ (List.filter (fun (x : Bool × Nat × Bool) => x.fst ==
      vdm && x.snd.fst == eid) s.kdp.secured).length))
    ∧ (∃ (s : State), s.dictOff = false ∧ s.spdmBusy = true)
    ∧ (∃ (s : State), s.dictOff = true) :=
  ⟨⟨wLive, 8, by decide +kernel⟩,
   ⟨wLive, 255, by decide +kernel⟩,
   ⟨wLive, by decide +kernel⟩,
   ⟨wLive, 255, by decide +kernel⟩,
   ⟨wLive, 2, by decide +kernel⟩,
   ⟨wLive, 126, by decide +kernel⟩,
   ⟨wLive, 1, by decide +kernel⟩,
   ⟨wLive, 1, by decide +kernel⟩,
   ⟨wLive, 2, by decide +kernel⟩,
   ⟨wLive, 27, by decide +kernel⟩,
   ⟨wLive, 28, by decide +kernel⟩,
   ⟨wLive, 27, by decide +kernel⟩,
   ⟨wLive, by decide +kernel⟩,
   ⟨wLive, 7, by decide +kernel⟩,
   ⟨{ wLive with kdp := { secured := [(true, 8, true), (true, 8, true), (true, 8, true)] } }, true, 8, by decide +kernel⟩,
   ⟨{ wLive with kdp := { secured := List.replicate 4 (true, 8, true) } }, true, 8, by decide +kernel⟩,
   ⟨{ wLive with dev := .rom }, by decide +kernel⟩,
   ⟨State.reset, by decide +kernel⟩⟩

theorem witness_DummiesAndRestoresAct :
    (∃ (s : State) (ch : Channel), s.expertOn ch 25600 ∧ s.maint.hosted = [] ∧ s.liveSeats = [])
    ∧ (∃ (s : State) (ch : Channel) (mask : BitVec 48) (n : Nat) (i : SeatInfo) (w : Window), s.expertOn ch 25600 ∧ (n, i) ∈ s.liveSeats ∧ w ∈
      i.entry.windows ∧ w.k = false ∧ routeOf w.base = 0 ∧ meetsPool mask w.base w.size = true)
    ∧ (∃ (s : State) (ch : Channel) (n : Nat), s.expertOn ch 25600 ∧ n < s.entries ∧ (s.seat n).state ≠ SeatState.free)
    ∧ (∃ (s : State) (ch : Channel) (n : Nat), s.expertOn ch 25600 ∧ (s.seat n).state = SeatState.free)
    ∧ (∃ (s : State) (ch : Channel) (n : Nat) (v : Word) (i : Instr), s.expertOn ch 25600 ∧ n < s.entries ∧ n < 4096 ∧ s.hasDummy n true = true ∧
      s.mayStart 7 (some n) = true ∧ (s.seat n).state = SeatState.parked ∧ (i = Instr.restoreByEpoch ch n v ∨ i = Instr.restoreByHeartbeat ch n v))
    ∧ (∃ (s : State) (ch : Channel) (n : Nat), s.expertOn ch 25600 ∧ n < s.entries ∧ n < 4096 ∧ s.hasDummy n true = true ∧ s.mayStart 7 (some n) =
      true ∧ (s.seat n).state ≠ SeatState.parked)
    ∧ (∃ (s : State) (ch : Channel) (n : Nat), s.expertOn ch 25600 ∧ n < s.entries ∧ n < 4096 ∧ s.hasDummy n true = true ∧ (s.seat n).state ≠
      SeatState.free)
    ∧ (∃ (s : State) (n : Nat) (r : Restore), s.maint.restores = [r] ∧ r.key = n ∧ r.mode ≠ 2 ∧ r.phase = 6 ∧ (s.seat n).state = SeatState.parked ∧
      s.groups = [])
    ∧ (∃ (s : State), s.maint.restores = [])
    ∧ (∃ (s : State) (p : Play) (left : Nat) (n : Nat), s.play = some p ∧ p.seat = n ∧ n < 4096 ∧ p.phase = PlayPhase.draining left ∧ s.dev =
      DevState.live ∧ s.epochDue n = true ∧ s.offered n = true ∧ s.mayStart 5 (some n) = true ∧ s.hasDummy n = true ∧ s.half n 0 = none ∧ (s.seat
      n).shadowNext = none ∧ (s.seat n).shadow = 0 ∧ 69632 ≤ (s.seat n).entry.dummyHalf)
    ∧ (∃ (s : State), s.play = none)
    ∧ (∃ (s : State) (p : Play), s.play = some p ∧ s.epochDue p.seat = false)
    ∧ (∃ (s : State) (m : DummyMsg), s.hasTable = true ∧ s.dev = DevState.live ∧ s.fab.rx = [] ∧ s.hears m.srcPos = true ∧ Tbl.get 0 s.mgmt.peers
      m.srcPos = 0 ∧ m.receiverInc = 0 ∧ s.liveSeats = [] ∧ s.maint.hosted = [] ∧ m.base % 65536 = 0 ∧ m.length % 65536 = 0 ∧ m.length ≠ 0 ∧ inPool
      s.rel.pool m.base m.length = true ∧ overlap s.tableAt (512 * s.entries) m.base m.length = false)
    ∧ (∃ (s : State) (m : DummyMsg), s.hasTable = true ∧ s.dev = DevState.live ∧ s.fab.rx = [] ∧ s.hears m.srcPos = true ∧ Tbl.get 0 s.mgmt.peers
      m.srcPos = 0 ∧ m.receiverInc = 0 ∧ s.liveSeats = [] ∧ s.maint.hosted = [] ∧ m.base % 65536 ≠ 0)
    ∧ (∃ (s : State) (m : DummyMsg), s.hasTable = true ∧ s.dev = DevState.live ∧ s.fab.rx = [] ∧ s.hears m.srcPos = true ∧ Tbl.get 0 s.mgmt.peers
      m.srcPos = 0 ∧ m.receiverInc = 0 ∧ s.liveSeats = [] ∧ s.maint.hosted = [] ∧ m.base % 65536 = 0 ∧ m.length % 65536 = 0 ∧ m.length ≠ 0 ∧ inPool
      s.rel.pool m.base m.length = false)
    ∧ (∃ (s : State) (m : DummyMsg) (h : Hosted), s.takesPackets = true ∧ s.fab.rx = [] ∧ s.hears m.srcPos = true ∧ Tbl.get 0 s.mgmt.peers m.srcPos =
      0 ∧ s.maint.hosted = [h] ∧ h.scrub = none ∧ h.serial = m.serial ∧ h.seat = m.seat ∧ h.base = m.base)
    ∧ (∃ (s : State) (m : DummyMsg) (h : Hosted), s.takesPackets = true ∧ s.fab.rx = [] ∧ s.hears m.srcPos = true ∧ Tbl.get 0 s.mgmt.peers m.srcPos =
      0 ∧ s.maint.hosted = [h] ∧ h.scrub = none ∧ h.base ≠ m.base)
    ∧ (∃ (s : State) (h : Hosted) (stop : Nat), s.maint.hosted = [h] ∧ h.scrub = some stop ∧ h.base % 64 = 0 ∧ h.length % 64 = 0 ∧ h.base + h.length
      ≤ farEnd)
    ∧ (∃ (s : State), s.maint.hosted = [])
    ∧ (∃ (s : State) (m : DummyMsg), s.takesPackets = true ∧ s.fab.rx = [] ∧ s.hears m.srcPos = true ∧ Tbl.get 0 s.mgmt.peers m.srcPos = 0 ∧ m.half <
      2 ∧ (s.seat m.seat).state ≠ SeatState.free ∧ (s.seat m.seat).entry.dummyBase = m.base ∧ (s.seat m.seat).entry.buddy = m.srcPos)
    ∧ (∃ (s : State) (m : DummyMsg), s.takesPackets = true ∧ s.fab.rx = [] ∧ s.hears m.srcPos = true ∧ Tbl.get 0 s.mgmt.peers m.srcPos = 0 ∧ m.half <
      2 ∧ (s.seat m.seat).state = SeatState.free)
    ∧ (∃ (s : State) (ch : Channel), s.expertOn ch 25600 ∧ s.mayStart 6 = true ∧ s.maint.hosted = [])
    ∧ (∃ (s : State) (ch : Channel) (h : Hosted), s.expertOn ch 25600 ∧ s.mayStart 6 = true ∧ s.maint.hosted = [h] ∧ h.scrub = none ∧ s.halfCommitted
      h.base (h.length / 2) = true ∧ s.halfDiffers h.base (h.length / 2) = true ∧ 8192 ≤ h.length ∧ h.base % 64 = 0 ∧ h.length % 128 = 0 ∧
      s.halfCommitted (h.base + h.length / 2) (h.length / 2) = false) :=
  ⟨⟨wLive, wExp, ⟨by decide +kernel, by decide +kernel, _, rfl, rfl⟩, by decide +kernel, by decide +kernel⟩,
   ⟨wPlay, wExp, 1, 1, wPlaying false, { base := 0x100000, size := 0x100000, r := true, w := true, x := true }, ⟨by decide +kernel,
     by decide +kernel, _, rfl, rfl⟩, by decide +kernel⟩,
   ⟨wPlay, wExp, 1, ⟨by decide +kernel, by decide +kernel, _, rfl, rfl⟩, by decide +kernel, by decide +kernel⟩,
   ⟨wLive, wExp, 1, ⟨by decide +kernel, by decide +kernel, _, rfl, rfl⟩, by decide +kernel⟩,
   ⟨{ wTab 1 with seats := [(1, { state := .parked, inc := 1, entry := { (wPlaying false).entry with buddy := 2, dummyBase := 0, dummyHalf := 0x20000, epochPeriod := 1 } })] },
     wExp, 1, 4, .restoreByEpoch wExp 1 4, ⟨by decide +kernel, by decide +kernel, _, rfl, rfl⟩, by decide +kernel, by decide +kernel,
     by decide +kernel, by decide +kernel, by decide +kernel, Or.inl rfl⟩,
   ⟨{ wTab 1 with seats := [(1, { state := .seated, inc := 1, entry := { (wPlaying false).entry with buddy := 2, dummyBase := 0, dummyHalf := 0x20000, epochPeriod := 1 } })] },
     wExp, 1, ⟨by decide +kernel, by decide +kernel, _, rfl, rfl⟩, by decide +kernel⟩,
   ⟨{ wTab 1 with seats := [(1, { state := .seated, inc := 1, entry := { (wPlaying false).entry with buddy := 2, dummyBase := 0, dummyHalf := 0x20000, epochPeriod := 1 } })] },
     wExp, 1, ⟨by decide +kernel, by decide +kernel, _, rfl, rfl⟩, by decide +kernel⟩,
   ⟨{ wLive with seats := [(1, { wPlaying false with state := .parked })], maint := { restores := [{ seat := 1, mode := 0, value := 4, phase := 6 }] } },
     1, { seat := 1, mode := 0, value := 4, phase := 6 }, by decide +kernel⟩,
   ⟨wLive, by decide +kernel⟩,
   ⟨{ wTab 1 with seats := [(1, { state := .playing, inc := 1, shadow := 0, entry := { (wPlaying false).entry with buddy := 2, dummyBase := 0, dummyHalf := 0x20000, epochPeriod := 1 } })], play := some { seat := 1, phase := .draining 0 }, time := { ns := 5000000000 }, sync := { pkgTally := [(15, 1)] } },
     { seat := 1, phase := .draining 0 }, 0, 1, by decide +kernel⟩,
   ⟨wLive, by decide +kernel⟩,
   ⟨wPlay, { seat := 1, phase := .issuing }, by decide +kernel⟩,
   ⟨wPool [], { srcPos := 1, serial := 7, seat := 3, base := 0x200000000, length := 0x20000 }, by decide +kernel⟩,
   ⟨wPool [], { srcPos := 1, serial := 7, seat := 3, base := 0x200000001, length := 0x20000 }, by decide +kernel⟩,
   ⟨wPool [], { srcPos := 1, serial := 7, seat := 3, base := 0x1FFFF0000, length := 0x20000 }, by decide +kernel⟩,
   ⟨wPool [wHosted none], { srcPos := 1, serial := 7, seat := 3, base := 0x200000000, length := 0 }, wHosted none, by decide +kernel⟩,
   ⟨wPool [wHosted none], { srcPos := 1, serial := 7, seat := 3, base := 0x200010000, length := 0 }, wHosted none, by decide +kernel⟩,
   ⟨wPool [wHosted (some 5)], wHosted (some 5), 5, by decide +kernel⟩,
   ⟨wLive, by decide +kernel⟩,
   ⟨{ wTab 1 with seats := [(1, { state := .seated, entry := { buddy := 1, dummyBase := 0x10000 } })] },
     { srcPos := 1, serial := 7, seat := 1, base := 0x10000, half := 1 }, by decide +kernel⟩,
   ⟨wTab 1, { srcPos := 1, serial := 7, seat := 3, base := 0, length := 0 }, by decide +kernel⟩,
   ⟨wLive, wExp, ⟨by decide +kernel, by decide +kernel, _, rfl, rfl⟩, by decide +kernel, by decide +kernel⟩,
   ⟨{ wPool [{ pos := 1, serial := 7, seat := 3, tenant := 5, base := 0x200000000, length := 8192 }] with memory := ({} : Memory).write 0 0x200000000 (good ([0x44, 0x4D, 0x4D, 0x59, 1])) },
     wExp, { pos := 1, serial := 7, seat := 3, tenant := 5, base := 0x200000000, length := 8192 }, ⟨by decide +kernel, by decide +kernel, _, rfl,
     rfl⟩, by decide +kernel⟩⟩

theorem witness_MemoryReadsBackWrites :
    (∃ (a : Nat) (bs : List PByte), inOneMem a bs.length = true)
    ∧ (∃ (a : Nat) (bs : List PByte) (x : Nat), inOneMem a bs.length = true ∧ (x < a ∨ a + bs.length ≤ x)) :=
  ⟨⟨0, [(7, false)], by decide +kernel⟩,
   ⟨0, [(7, false)], 1, by decide +kernel⟩⟩

theorem witness_EveryStepKeepsTheMemoryForm :
    (∃ (s : State) (t : State), s.Inv ∧ step s = Host.Outcome.next t) :=
  ⟨{ wLive with memory := { mem := [(5, 1)] }, pending := [.mbxOutClear 0] },
    { wLive with memory := { mem := [(5, 1)] } }.modFn 0 fun q => { q with outFull := false }, (by unfold State.Inv; decide +kernel),
    rfl⟩

/-! ## Worked cases of the spec -/

/-- 02, section 2.5.1: windows 3 and 5 of a seat. -/
def tEntry : Entry :=
  { keySlot := 9, windows := [{}, {}, {}, { base := 0x1000000000, size := 0x40000000, r := true, w := true, k := true }, {}
                              , { base := 0xC020000000, size := 0x0A000000, r := true }] }
theorem test_translate_far : translate tEntry 0x300000042000 64 .r = some (0x1000042000, true) ∧ slotOf tEntry true = 9 := by decide
theorem test_translate_slab_end :
    translate tEntry 0x500009FFFE00 512 .r = some (0xC029FFFE00, false) ∧ translate tEntry 0x50000A000000 512 .r = none := by decide

/-- 08, section 8.5: one address in both band modes. -/
theorem test_band_modes : stackOf 0 0x1000042000 = (2, 0x200008000) ∧ stackOf (1 <<< 8) 0x1000042000 = (0, 0x200042000) := by decide

/-- 05, section 5.5: one block summed exactly, and the tree over three blocks. -/
theorem test_block_sum :
    let n := fun (v : Nat) => Num.fin false v 1
    toF32 (segSum faddRne [blockSum false [n 16777216, n 1, n 1], n 1, n 1]) = toF32 (n 16777220)
      ∧ toF32 (blockSum false [n 16777216, n 1, n 1]) = toF32 (n 16777218) := by decide +kernel

/-- 04, section 4.5: one KX4 block with its trump slot off and on; the values in hundredths. -/
def tBlock : List Slot4 :=
  ([21, -7, 13, 0, -18, 5, 33, -26, 9, 290, -11, 2, 16, -30, 7, 24] : List Int).zipIdx.map fun x => some (.fin (x.1 < 0) x.1.natAbs 100, x.2)
theorem test_kx4_trump_off :
    let b := encodeKx 0x08 6 1 0x3D800000 false {} tBlock
    b.scale = 0x90 ∧ b.trump = 0 ∧ b.under = 6
      ∧ b.elems = [1, 0, 1, 0, 9, 0, 1, 9, 0, 7, 0, 0, 1, 9, 0, 1] := by decide +kernel
theorem test_kx4_trump_on :
    let b := encodeKx 0x08 6 1 0x3D800000 true {} tBlock
    b.scale = 0x77 ∧ b.trump = 0x8009423A ∧ b.under = 0
      ∧ b.elems = [6, 0xA, 4, 0, 0xD, 2, 7, 0xE, 3, 0, 0xC, 1, 5, 0xF, 2, 6] := by decide +kernel
theorem test_kx4_decode :
    toF32 (decodeKx 0x08 0x3D800000 0x77 (some 0x8009423A) 9 0) = toF32 (.fin false 290625 100000)
      ∧ toF32 (decodeKx 0x08 0x3D800000 0x77 (some 0x8009423A) 4 0xD) = toF32 (.fin true 17578125 100000000) := by decide +kernel

/-- 12, section 12.1: the cables between positions 5 and 12. -/
theorem test_cables : portTo 5 12 false = 6 ∧ portTo 5 12 true = 23 ∧ portTo 12 5 false = 10 ∧ portTo 12 5 true = 27
    ∧ farPort 6 = 10 ∧ farPort 23 = 27 := by decide

/-- 13, section 13.3: a stamp taken before the forced step is earlier than one taken after it. -/
theorem test_stamp_order :
    stampLater 0x45A01234562C4F7C 0x35A0123456789ABC = true ∧ stampLater 0x35A0123456789ABC 0x45A01234562C4F7C = false := by decide

/-- 14, section 14.6: the predictions at dividers 5, 6 and 8, and the ledger's choice under a cap of 2,000 W; milliwatts. -/
def tPower : Power := { dies := [(0, { fixed := 300000, s4 := 2700000 })] }
theorem test_predict : (tPower.predict 5 + 500) / 1000 = 2198 ∧ (tPower.predict 6 + 500) / 1000 = 1758 ∧ (tPower.predict 8 + 500) / 1000 = 1191 := by
  decide
theorem test_ledger_choice : (tPower.rule 4 2000000).slower = some 6 := by decide

/-- 15, section 15.6.1: copy C of a block excluded, then copies B and C. -/
theorem test_vote :
    (voteBlock [{}, {}, { clean := false }]).2 = 0x11 ∧ (voteBlock [{}, {}, { clean := false }]).1.isSome = true
      ∧ voteBlock [{}, { clean := false }, { clean := false }] = (none, 0x1A) := by decide +kernel

/-- 17, section 17.5: the manager's READ of the power cap and its answer, byte for byte. -/
theorem test_kdp_bytes :
    let (op, m) := kdpOf [1, 0, 3, 0, 7, 0, 0, 0, 2, 0, 0, 0, 0, 0x20, 2, 0, 0, 0, 0, 0, 0, 0, 0, 0, 0, 0, 0, 0]
    op = 3 ∧ m.sequence = 7 ∧ m.session = 2 ∧ m.index = 0x2000 ∧ m.sub = 2
      ∧ kdpBytes 3 m { st := .ok, aux := 4, data := [0xB8, 0x0B, 0, 0], last := true }
        = [1, 0, 3, 0, 7, 0, 3, 0, 2, 0, 0, 0, 0, 0x20, 2, 0, 0, 0, 0, 0, 4, 0, 0, 0, 4, 0, 0, 0, 0xB8, 0x0B, 0, 0] := by decide

/-! ## Single commands -/

/-- The result that an instruction of CD 3 leaves in s4. -/
def tScalar (i : Instr) : Word := match exec i wPlay with | .next t => Tbl.get 0 (t.seq 3).ctx.s 4 | _ => 0
/-- 03, Table 3-3: results wrap, SRA keeps the sign, and MIN is signed where MINU is not. -/
theorem test_add_wraps : tScalar (.add wI (.s 4) (.imm (BitVec.ofInt 64 (-1))) (.imm 2)) = 1 := by decide +kernel
theorem test_min_signed : tScalar (.min wI (.s 4) (.imm (BitVec.ofInt 64 (-1))) (.imm 2)) = BitVec.ofInt 64 (-1)
    ∧ tScalar (.minu wI (.s 4) (.imm (BitVec.ofInt 64 (-1))) (.imm 2)) = 2 := by decide +kernel
theorem test_sra_sign : tScalar (.sra wI (.s 4) (.imm (BitVec.ofInt 64 (-8))) (.imm 1)) = BitVec.ofInt 64 (-4) := by decide +kernel

/-- 02, R44: HALT of a seat that another function owns is refused. -/
theorem test_halt_other_owner : (match exec (.halt (.doorbell 2) 1) wPlay with | .next t => (t.fn 2).dbStatus | _ => 0) = 0x03 := by
  decide +kernel

/-- FIPS 180-4, the example of one block; SP 800-38D's algorithm with the published 256-bit test case of one zero block. -/
theorem test_sha384_abc : beNat (sha384Bytes [0x61, 0x62, 0x63]) =
    0xCB00753F45A35E8BB5A03D699AC65007272C32AB0EDED1631A8B605A43FF5BED8086072BA1E7CC2358BAECA134C825A7 := by decide +kernel
theorem test_gcm_zeros : beNat (gcmSeal (zeros 32) (zeros 12) [] (zeros 16) 16) =
    0xCEA7403D4D606B6E074EC5D3BAF39D18D0D1C8A799996BF0265B98B5D48AB919 := by decide +kernel
/-- The opcode table gives no row any bits, so no word spells a command, and the queue stays as it is. -/
theorem test_no_word : Sys2Proof.decodeTableWord 32 0x12345678 = none ∧ (wLive.withFetchWord 32 0x12345678).pending = [] := by decide

/-! ## Ill-formed commands: one term for each check -/

theorem test_wf_host :
    Instr.wellFormed (.play .seatCmd 4096) = false ∧ Instr.wellFormed (.registerWrite 0 (2 ^ 26) (zeros 4)) = false
      ∧ Instr.wellFormed (.registerWrite 1 4096 (zeros 4)) = false ∧ Instr.wellFormed (.registerWrite 0 8 (zeros 3)) = false ∧ Instr.wellFormed (.vfDisable 64) = false
      ∧ Instr.wellFormed (.bar2Access false 0 0 [] false) = false ∧ Instr.wellFormed (.bar2Access true 0 4 [] false) = false
      ∧ Instr.wellFormed (.hostReadCompletion 1024 [] false) = false := by decide
theorem test_wf_instructions :
    Instr.wellFormed (.nop { wI with bytes := 0 }) = false
      ∧ Instr.wellFormed (.nop { wI with waits := List.replicate 3 (.flag 0 true) }) = false
      ∧ Instr.wellFormed (.nop { wI with signal := some ⟨.pkgTally 0 0, false⟩ }) = false
      ∧ Instr.wellFormed (.loop wI 0 (.imm 1) 0 0) = false := by decide
theorem test_wf_units :
    Instr.wellFormed (.checkColumnCompare 0 0 1024 none) = false ∧ Instr.wellFormed (.checkColumnCompare 0 0 0 (some 513)) = false
      ∧ Instr.wellFormed (.checkRowReadd 0 0 (some 513)) = false ∧ Instr.wellFormed (.softJokerAssign 0 false 513) = false
      ∧ Instr.wellFormed (.correctedWriteback (.slab 0) 0x280000) = false ∧ Instr.wellFormed (.scrubStep (.near 0) [3]) = false
      ∧ Instr.wellFormed (.refresh (.near 0) 32) = false ∧ Instr.wellFormed (.ftBandModeWrite wExp (2 ^ 48)) = false
      ∧ Instr.wellFormed (.scrubStep (.near 0) [0, 0]) = false ∧ Instr.wellFormed (.tallyRegionWrite (2 ^ 20) 0) = false
      ∧ Instr.wellFormed (.tadd wI (.own 0) (.imm 256)) = false := by decide
theorem test_wf_links_and_ports :
    Instr.wellFormed (.frameSend (wSl 0) []) = false ∧ Instr.wellFormed (.frameReceive (wSl 0) [] []) = false
      ∧ Instr.wellFormed (.linkFail 0 129 false) = false ∧ Instr.wellFormed (.wireRepair (wSl 0) 128) = false
      ∧ Instr.wellFormed (.flitSend 34) = false ∧ Instr.wellFormed (.flitReceive 34 {}) = false
      ∧ Instr.wellFormed (.portTraining 63) = false ∧ Instr.wellFormed (.hello 0 { wHello 6 with position := 256 }) = false
      ∧ Instr.wellFormed (.write { wPkt 1 0 0 [] with srcPos := 256 }) = false ∧ Instr.wellFormed (.ctrlResendTimer 2048) = false
      ∧ Instr.wellFormed (.spineAckFrame 63 { conn := 0, bulk := false, psn := 0 }) = false
      ∧ Instr.wellFormed (.retransmitTimeout 0 false (2 ^ 32)) = false ∧ Instr.wellFormed (.neighborDiscovery 64 (2 ^ 128) false) = false := by
  decide
theorem test_wf_table_and_power :
    Instr.wellFormed (.ready { group := 0, tenant := 0, rank := 65536, sequence := 0 }) = false ∧ Instr.wellFormed (.reportTimeout 18) = false
      ∧ Instr.wellFormed (.ptpSync 0 false 0 1000000000 0) = false ∧ Instr.wellFormed (.pmbusPoll 19 false {} true) = false
      ∧ Instr.wellFormed (.supplyFault 19) = false ∧ Instr.wellFormed (.railGood 19) = false
      ∧ Instr.wellFormed (.pwrResetReqRecovery 256) = false ∧ Instr.wellFormed (.blockReset 256) = false
      ∧ Instr.wellFormed (.componentFault 7 false true) = false ∧ Instr.wellFormed (.coreBusyWindow []) = false := by decide
theorem test_wf_dictionary :
    Instr.wellFormed (.openSession (.net 8) {}) = false ∧ Instr.wellFormed (.kdpRead (.mctp false 256 true) {}) = false
      ∧ Instr.wellFormed (.kdpRead wExp { index := 65536 }) = false ∧ Instr.wellFormed (.anchorWrite wExp true (2 ^ 192 * 2 ^ 192)) = false
      ∧ Instr.wellFormed (.fabricSecret wExp (2 ^ 256)) = false ∧ Instr.wellFormed (.getPdr false (2 ^ 32)) = false
      ∧ Instr.wellFormed (.getSensorReading false 65536) = false ∧ Instr.wellFormed (.retrain wExp 256) = false
      ∧ Instr.wellFormed (.restoreComplete 4096) = false := by decide
theorem test_wf_accepts : Instr.wellFormed (.nop wI) = true ∧ Instr.wellFormed (.play .seatCmd 4095) = true
    ∧ Instr.wellFormed (.railGood 18) = true ∧ Instr.wellFormed (.portTraining 71) = true := by decide

end Sys2Proof.Machine
end

section
/-! SUPPORT. The function page of the host interface (02, sections 2.2 and 2.3): what a host access, the interrupt operations, a
register write and the mailbox operations do to one function's page, and what they leave alone. -/

namespace Sys2Proof.Machine

/-! ## Host accesses -/

/-- Of function `f`'s registers an access that reaches them does what it is there to do (02, R27). -/
theorem State.hostAccess_reaches {s : State} {f : Nat} (h : s.hostReaches f) (act : State → State) : s.hostAccess f act = act s := by
  obtain ⟨hopen, hfn, hd0⟩ := h
  simp [State.hostAccess, hopen, hfn, hd0]

theorem State.hostAccess_closed {s : State} {f : Nat} (h : s.bar0Open = false ∨ s.fnEnabled f = false) (act : State → State) :
    s.hostAccess f act = s := by
  cases h with
  | inl hopen => simp [State.hostAccess, hopen]
  | inr hfn => simp [State.hostAccess, hfn]

theorem State.hostAccess_d3hot {s : State} {f : Nat} (hopen : s.bar0Open = true) (hfn : s.fnEnabled f = true)
    (hd3 : s.host.d3hot = true) (act : State → State) : s.hostAccess f act = s.aer 20 := by
  simp [State.hostAccess, hopen, hfn, hd3]

/-- What reaches some function reaches PF 0, which always exists (02, R23, R26). -/
theorem State.hostReaches_pf {s : State} {f : Nat} (h : s.hostReaches f) : s.hostReaches 0 := by
  obtain ⟨hopen, -, hd0⟩ := h
  exact ⟨hopen, rfl, hd0⟩

/-! ## Only one page and the outputs change -/

/-- From `s` to `t` only the page of function `f` and the outputs differ. -/
def State.onlyPage (s t : State) (f : Nat) : Prop :=
  t = { s with host := { s.host with fns := t.host.fns }, out := t.out } ∧ ∀ k, k ≠ f → t.fn k = s.fn k

theorem State.onlyPage_refl (s : State) (f : Nat) : s.onlyPage s f := ⟨rfl, fun _ _ => rfl⟩

theorem State.onlyPage.trans {s t u : State} {f : Nat} (hst : s.onlyPage t f) (htu : t.onlyPage u f) : s.onlyPage u f := by
  obtain ⟨ht, hkt⟩ := hst
  obtain ⟨hu, hku⟩ := htu
  refine ⟨?_, fun k hk => (hku k hk).trans (hkt k hk)⟩
  calc u = { t with host := { t.host with fns := u.host.fns }, out := u.out } := hu
    _ = { s with host := { s.host with fns := u.host.fns }, out := u.out } := by rw [ht]

theorem State.fn_modFn_ne (s : State) {f k : Nat} (g : FnPage → FnPage) (hk : k ≠ f) : (s.modFn f g).fn k = s.fn k := by
  rw [State.fn_modFn, if_neg hk]

theorem State.modFn_onlyPage (s : State) (f : Nat) (g : FnPage → FnPage) : s.onlyPage (s.modFn f g) f :=
  ⟨rfl, fun _ hk => s.fn_modFn_ne g hk⟩

theorem State.emit_onlyPage (s : State) (x : Output) (f : Nat) : s.onlyPage (s.emit x) f := ⟨rfl, fun _ _ => rfl⟩

@[simp] theorem State.fn_emit (s : State) (x : Output) (f : Nat) : (s.emit x).fn f = s.fn f := rfl

/-! ## Interrupt messages (02, R34) -/

theorem State.sendMsix_masked {s : State} {f v : Nat} (h : (Tbl.get {} (s.fn f).msix v).masked = true) :
    s.sendMsix f v = s.modFn f fun p => { p with pba := p.pba ||| (1 <<< v) } := by
  unfold State.sendMsix
  exact if_pos h

theorem State.sendMsix_unmasked {s : State} {f v : Nat} (h : (Tbl.get {} (s.fn f).msix v).masked = false) :
    s.sendMsix f v = s.emit (.msix f v (Tbl.get {} (s.fn f).msix v).addr (Tbl.get {} (s.fn f).msix v).data) := by
  unfold State.sendMsix
  exact if_neg (by rw [h]; decide)

/-- From `s` to `t` messages of function `f` were sent or left pending: nothing but its pending bits and the outputs differ. -/
def State.onlySends (s t : State) (f : Nat) : Prop :=
  s.onlyPage t f ∧ t.fn f = { s.fn f with pba := (t.fn f).pba }

theorem State.onlySends_refl (s : State) (f : Nat) : s.onlySends s f := ⟨s.onlyPage_refl f, rfl⟩

theorem State.onlySends.trans {s t u : State} {f : Nat} (hst : s.onlySends t f) (htu : t.onlySends u f) : s.onlySends u f := by
  obtain ⟨ht, hpt⟩ := hst
  obtain ⟨hu, hpu⟩ := htu
  refine ⟨ht.trans hu, ?_⟩
  calc u.fn f = { t.fn f with pba := (u.fn f).pba } := hpu
    _ = { s.fn f with pba := (u.fn f).pba } := by rw [hpt]

theorem State.sendMsix_onlySends (s : State) (f v : Nat) : s.onlySends (s.sendMsix f v) f := by
  cases h : (Tbl.get {} (s.fn f).msix v).masked with
  | true =>
    rw [State.sendMsix_masked h]
    exact ⟨s.modFn_onlyPage f _, by simp⟩
  | false =>
    rw [State.sendMsix_unmasked h]
    exact ⟨s.emit_onlyPage _ f, rfl⟩

/-- The messages of the chosen vectors of a list, one after the other. -/
theorem State.foldl_sendMsix_onlySends (s : State) (f : Nat) (p : Nat → Bool) (l : List Nat) :
    s.onlySends (l.foldl (fun s b => if p b then s.sendMsix f b else s) s) f := by
  induction l generalizing s with
  | nil => exact s.onlySends_refl f
  | cons b l ih =>
    rw [List.foldl_cons]
    split
    · exact (s.sendMsix_onlySends f b).trans (ih _)
    · exact ih s

/-- An IRQ_CAUSE_0 write gives the cause bits their new value; what else happens is messages (00, R4; 02, R34). -/
theorem State.clearCause_onlySends (s : State) (f : Nat) (v again : Quad) :
    (s.modFn f fun q => { q with cause := (q.cause &&& ~~~v) ||| (again &&& 0xFFFFFF1F) }).onlySends (s.clearCause f v again) f :=
  State.foldl_sendMsix_onlySends _ f _ _

/-- An IRQ_MASK_0 write gives the mask its new value; what else happens is messages (02, R34). -/
theorem State.writeMask_onlySends (s : State) (f : Nat) (v : Quad) :
    (s.modFn f fun q => { q with mask := v &&& 0xFFFFFF1F }).onlySends (s.writeMask f v) f :=
  State.foldl_sendMsix_onlySends _ f _ _

/-! ## Cause bits (02, R34, Table 2-7) -/

theorem getLsbD_one_shiftLeft (v i : Nat) : ((1 <<< v : Nat) : Quad).getLsbD i = (decide (i < 32) && decide (v = i)) := by
  rw [Nat.one_shiftLeft, BitVec.natCast_eq_ofNat, BitVec.getLsbD_ofNat, Nat.testBit_two_pow]

/-- A cause bit that is set already stays as it is when it is raised. -/
theorem or_one_shiftLeft_of_getLsbD {w : Quad} {v : Nat} (h : w.getLsbD v = true) : w ||| (1 <<< v) = w := by
  apply BitVec.eq_of_getLsbD_eq
  intro i hi
  rw [BitVec.getLsbD_or, getLsbD_one_shiftLeft]
  by_cases hiv : v = i
  · rw [← hiv, h, Bool.true_or]
  · simp [hiv]

theorem getLsbD_or_one_shiftLeft (w : Quad) {v : Nat} (hv : v < 32) : (w ||| (1 <<< v)).getLsbD v = true := by
  rw [BitVec.getLsbD_or, getLsbD_one_shiftLeft]
  simp [hv]

theorem not_getLsbD_setBit32_false {w : Quad} {v : Nat} : (setBit32 w v false).getLsbD v = false := by
  simp [setBit32]

/-- Raising a cause bit sets it; what else happens is its message. -/
theorem State.raiseIrq_onlySends (s : State) (f v : Nat) :
    (s.modFn f fun q => { q with cause := q.cause ||| (1 <<< v) }).onlySends (s.raiseIrq f v) f := by
  unfold State.raiseIrq
  dsimp only
  split
  next h =>
    have hsame : (s.modFn f fun q => { q with cause := q.cause ||| (1 <<< v) }).onlyPage s f :=
      ⟨rfl, fun k hk => (s.fn_modFn_ne _ hk).symm⟩
    refine ⟨hsame, ?_⟩
    rw [State.fn_modFn_self, or_one_shiftLeft_of_getLsbD h]
  next h =>
    split
    · exact State.onlySends_refl _ f
    · exact State.sendMsix_onlySends _ f v

theorem State.raiseIrq_onlyPage (s : State) (f v : Nat) : s.onlyPage (s.raiseIrq f v) f :=
  (s.modFn_onlyPage f _).trans (s.raiseIrq_onlySends f v).1

/-- The page of a function whose cause bit was raised: that bit is set, and its message may wait. -/
theorem State.fn_raiseIrq (s : State) (f v : Nat) :
    (s.raiseIrq f v).fn f
      = { s.fn f with cause := (s.fn f).cause ||| (1 <<< v), pba := ((s.raiseIrq f v).fn f).pba } := by
  have h := (s.raiseIrq_onlySends f v).2
  rwa [State.fn_modFn_self] at h

/-! ## Vector masks (02, R34, Table 2-3) -/

theorem State.maskVector_onlyPage (s : State) (f v : Nat) (m : Bool) : s.onlyPage (s.maskVector f v m) f := by
  unfold State.maskVector
  dsimp only
  split
  · exact ((s.modFn_onlyPage f _).trans (State.modFn_onlyPage _ f _)).trans (State.sendMsix_onlySends _ f v).1
  · exact s.modFn_onlyPage f _

theorem State.maskVector_masked (s : State) (f v : Nat) (m : Bool) :
    (Tbl.get {} ((s.maskVector f v m).fn f).msix v).masked = m := by
  unfold State.maskVector
  dsimp only
  split
  · rw [(State.sendMsix_onlySends _ f v).2]
    simp
  · simp

/-- Unmasking a vector whose message waits sends it: the pending bit is cleared and the message leaves (02, R34). -/
theorem State.maskVector_pending {s : State} {f v : Nat} (hp : (s.fn f).pba.getLsbD v = true) :
    ((s.maskVector f v false).fn f).pba.getLsbD v = false ∧
    (s.maskVector f v false).out
      = .msix f v (Tbl.get {} (s.fn f).msix v).addr (Tbl.get {} (s.fn f).msix v).data :: s.out := by
  unfold State.maskVector
  dsimp only
  rw [if_pos (by simp [hp]), State.sendMsix_unmasked (by simp)]
  simp [not_getLsbD_setBit32_false]

/-! ## Event FIFO (02, R33) -/

theorem State.popEvent_cons {s : State} {f : Nat} {e : Event} {es : List Event} (h : (s.fn f).events = e :: es) :
    s.popEvent f = (s.emit (.eventPop f (BitVec.ofNat 64 (eventWord (s.fn f))))).modFn f
      fun q => { q with events := es, eventsLost := false } := by
  simp [State.popEvent, h]

theorem State.popEvent_nil {s : State} {f : Nat} (h : (s.fn f).events = []) : s.popEvent f = s.emit (.eventPop f 0) := by
  simp [State.popEvent, eventWord, h]

/-! ## Register writes (00, R3, R5; 02, Tables 2-3 to 2-10) -/

/-- Eight bytes written at the start of an 8-byte register are its new value. -/
theorem mergeBytes_full (old : Nat) {data : List Byte} (h : data.length = 8) : mergeBytes old 0 data = leNat data := by
  unfold mergeBytes
  congr 1
  apply List.ext_getElem
  · simp [h]
  · intro i hi hd
    simp [hd]

/-- An aligned write of eight bytes is one write of one register. -/
theorem State.regWrite_one (s : State) (f : Func) {off : Nat} {data : List Byte} (hoff : off % 8 = 0) (h : data.length = 8) :
    s.regWrite f off data =
      if off < 0x1000 then s.writeFnReg f off 0 data else if f.val = 0 then s.writePfReg off 0 data else s := by
  have hne : data.isEmpty = false := by
    rw [List.isEmpty_eq_false_iff, ← List.length_pos_iff]
    omega
  have hfirst : off / 8 * 8 = off := by omega
  have hcount : (off + data.length - 1) / 8 - off / 8 + 1 = 1 := by omega
  have hpart : data.take 8 = data := List.take_of_length_le (by omega)
  unfold State.regWrite
  simp [hne, hfirst, hcount, hpart]

/-- A write inside the function page whose registers all ignore what they are brought changes nothing. -/
theorem State.regWrite_ignored {s : State} {f : Func} {off : Nat} {data : List Byte} (hend : off + data.length ≤ 0x1000)
    (hreg : ∀ r at0 part, r % 8 = 0 → off < r + 8 → r < off + data.length → s.writeFnReg f r at0 part = s) :
    s.regWrite f off data = s := by
  unfold State.regWrite
  refine List.foldlRecOn (motive := fun t => t = s) _ _ rfl ?_
  rintro t rfl i hi
  have hlast : off / 8 * 8 + 8 * i < off + data.length := by
    cases data with
    | nil => simp at hi
    | cons b d =>
      simp at hi
      simp
      omega
  dsimp only
  rw [if_pos (by omega)]
  exact hreg _ _ _ (by omega) (by omega) hlast

/-- While a message is posted, MBX_IN_0 ignores writes (02, R35). -/
theorem State.writeFnReg_inWin_posted {s : State} {f : Func} (hp : (s.fn f.val).inPost = true) {r : Nat} (hlo : 0x600 ≤ r)
    (hhi : r < 0xB00) (at0 : Nat) (part : List Byte) : s.writeFnReg f r at0 part = s := by
  unfold State.writeFnReg
  dsimp only
  split
  case h_7 => simp [hp, hlo, hhi, show ¬ r < 0x500 by omega]
  all_goals omega

/-- While a message is posted, MBX_IN_CTRL_0 ignores writes of length, and a second post (02, R35). -/
theorem State.writeFnReg_inCtrl_posted {s : State} {f : Func} (hp : (s.fn f.val).inPost = true) (at0 : Nat) (part : List Byte) :
    s.writeFnReg f 0x200 at0 part = s := by
  simp [State.writeFnReg, State.postIn, hp]

/-! ## The seat table's registers (02, R37) -/

theorem State.writeTable_live {s : State} (h : s.liveSeats ≠ []) (r : SeatTableReg) (v : Nat) : s.writeTable r v = s := by
  simp [State.writeTable, h]

theorem State.writeTable_base {s : State} (h : s.liveSeats = []) (v : Nat) :
    s.writeTable .base v = { s with host := { s.host with tableBase := BitVec.ofNat 40 (v / 2 ^ 16) } } := by
  have hbits : BitVec.ofNat 40 (bits v 16 40) = BitVec.ofNat 40 (v / 2 ^ 16) := by
    apply BitVec.eq_of_toNat_eq
    simp [bits]
  unfold State.writeTable
  rw [if_neg (by simp [h])]
  dsimp only
  rw [hbits]

theorem State.writeTable_size {s : State} (h : s.liveSeats = []) {v : Nat} (hv : v % 2 ^ 13 ≤ 4096) :
    s.writeTable .size v = { s with host := { s.host with tableSize := BitVec.ofNat 13 v } } := by
  have hbits : ¬ 4096 < bits v 0 13 := by simpa [bits] using hv
  simp [State.writeTable, h, hbits]

theorem State.writeTable_size_over (s : State) {v : Nat} (hv : 4096 < v % 2 ^ 13) : s.writeTable .size v = s := by
  have hbits : 4096 < bits v 0 13 := by simpa [bits] using hv
  simp [State.writeTable, hbits]

end Sys2Proof.Machine
end

section
/-! SUPPORT. The mailbox operations of the host interface (02, R35, R36; 16, R465 to R473): what taking a message, its answer and the
filling of the outbound window do to the function's page, and what they leave alone. -/

namespace Sys2Proof.Machine

/-! ## The windows (02, R35, R36) -/

@[simp] theorem winBytes_length (w : Tbl Byte) (n : Nat) : (winBytes w n).length = n := by
  simp [winBytes]

/-- A window read after bytes were stored: the stored byte where they lie, and else the byte of before. -/
theorem get_winPut (w : Tbl Byte) (o : Nat) (bs : List Byte) (i : Nat) :
    Tbl.get 0 (winPut w o bs) i = if o ≤ i ∧ i < o + bs.length then bs.getD (i - o) 0 else Tbl.get 0 w i := by
  induction bs generalizing w o with
  | nil =>
    rw [if_neg (by simp)]
    rfl
  | cons b bs ih =>
    rw [winPut, ih, Tbl.get_set, List.length_cons]
    by_cases hi : i = o
    · subst hi
      rw [if_neg (by omega), if_pos rfl, if_pos (by omega), Nat.sub_self, List.getD_cons_zero]
    · rw [if_neg hi]
      by_cases hlo : o + 1 ≤ i ∧ i < o + 1 + bs.length
      · have hsub : i - o = (i - (o + 1)) + 1 := by omega
        rw [if_pos hlo, if_pos (by omega), hsub, List.getD_cons_succ]
      · rw [if_neg hlo, if_neg (by omega)]

theorem get_winPut_zero (w : Tbl Byte) (bs : List Byte) {i : Nat} (hi : i < bs.length) :
    Tbl.get 0 (winPut w 0 bs) i = bs.getD i 0 := by
  rw [get_winPut, if_pos (by omega), Nat.sub_zero]

theorem State.postIn_free {s : State} {f : Nat} (hp : (s.fn f).inPost = false) (hl : (s.fn f).inLen.toNat ≤ 1280) :
    s.postIn f = s.modFn f fun q => { q with inPost := true } := by
  simp [State.postIn, hp, Nat.not_lt.mpr hl]

theorem State.postIn_tooLong {s : State} {f : Nat} (hp : (s.fn f).inPost = false) (hl : 1280 < (s.fn f).inLen.toNat) :
    s.postIn f = s.modFn f fun q => { q with accept := 0x02 } := by
  simp [State.postIn, hp, hl, statusCode]

theorem State.postIn_posted {s : State} {f : Nat} (hp : (s.fn f).inPost = true) : s.postIn f = s := by
  simp [State.postIn, hp]

/-! ## Taking a message (16, R466 to R470) -/

/-- The message that lies in MBX_IN_0 of function `f`. -/
def State.inMail (s : State) (f : Nat) : List Byte := winBytes (s.fn f).inWin (s.fn f).inLen.toNat

/-- Message `m` has a header and exactly the payload that it names, format version 1, and is a request (16, Table 16-4, R467). -/
def mailWellFormed (m : List Byte) : Prop :=
  32 ≤ m.length ∧ m.length = 32 + field m 0x12 2 ∧ field m 0 1 = 1 ∧ field m 7 1 % 4 = 0

/-- The request that message `m` of function `f` spells, from a host of incarnation `hostInc` (16, Table 16-4). -/
def mailReq (f : Nat) (hostInc : Quad) (m : List Byte) : Req :=
  { f := f, type := field m 2 2, seq := BitVec.ofNat 16 (field m 4 2), seat := field m 0x10 2, hostInc := hostInc
    minor := field m 1 1, recvInc := BitVec.ofNat 32 (field m 0xC 4), sendInc := BitVec.ofNat 32 (field m 8 4)
    payload := m.drop 32 }

/-- The message of function `f` is taken with accept status `st`: the window is free, and the cause mbx_in_free is raised. -/
def State.takeMail (s : State) (f : Nat) (st : Status) : State :=
  (s.modFn f fun q => { q with inPost := false, accept := statusCode st }).raiseIrq f 1

theorem State.takeMail_onlyPage (s : State) (f : Nat) (st : Status) : s.onlyPage (s.takeMail f st) f :=
  (s.modFn_onlyPage f _).trans (State.raiseIrq_onlyPage _ f 1)

@[simp] theorem State.takeMail_fw (s : State) (f : Nat) (st : Status) : (s.takeMail f st).fw = s.fw := by
  simp [State.takeMail]

theorem State.fn_takeMail (s : State) (f : Nat) (st : Status) :
    (s.takeMail f st).fn f = { s.fn f with
      inPost := false, accept := statusCode st, cause := (s.fn f).cause ||| (1 <<< 1), pba := ((s.takeMail f st).fn f).pba } := by
  have h := (s.modFn f fun q => { q with inPost := false, accept := statusCode st }).fn_raiseIrq f 1
  rwa [State.fn_modFn_self] at h

/-- The checks of a request do not read the function pages or the outputs. -/
theorem State.onlyPage.reqCheck {s t : State} {f : Nat} (h : s.onlyPage t f) (r : Req) : t.reqCheck r = s.reqCheck r := by
  rw [h.1]
  rfl

/-- From `s` to `t` function `f` was sent messages: of the pages only its own differs, and of that only the outbound queue. -/
def State.onlyQueues (s t : State) (f : Nat) : Prop :=
  t = { s with host := { s.host with fns := t.host.fns }, objs := t.objs, freeCtr := t.freeCtr }
    ∧ (∀ k, k ≠ f → t.fn k = s.fn k) ∧ t.fn f = { s.fn f with outQ := (t.fn f).outQ, outHeld := (t.fn f).outHeld }

theorem State.onlyQueues.trans {s t u : State} {f : Nat} (hst : s.onlyQueues t f) (htu : t.onlyQueues u f) : s.onlyQueues u f := by
  obtain ⟨ht, hkt, hft⟩ := hst
  obtain ⟨hu, hku, hfu⟩ := htu
  refine ⟨?_, fun k hk => (hku k hk).trans (hkt k hk), ?_⟩
  · calc u = { t with host := { t.host with fns := u.host.fns }, objs := u.objs, freeCtr := u.freeCtr } := hu
      _ = { s with host := { s.host with fns := u.host.fns }, objs := u.objs, freeCtr := u.freeCtr } := by rw [ht]
  · calc u.fn f = { t.fn f with outQ := (u.fn f).outQ, outHeld := (u.fn f).outHeld } := hfu
      _ = { s.fn f with outQ := (u.fn f).outQ, outHeld := (u.fn f).outHeld } := by rw [hft]

theorem State.bump_onlyQueues (s : State) (key w f : Nat) : s.onlyQueues (s.bump key w) f := ⟨rfl, fun _ _ => rfl, rfl⟩

theorem State.queueHint_onlyQueues (s : State) (f : Nat) : s.onlyQueues s.queueHint.2 f := ⟨rfl, fun _ _ => rfl, rfl⟩

theorem State.hinted_onlyQueues (s : State) (st : Status) (retry f : Nat) : s.onlyQueues (s.hinted st retry).2 f := by
  unfold State.hinted
  split <;> exact ⟨rfl, fun _ _ => rfl, rfl⟩

theorem State.queueMsg_onlyQueues (s : State) (f : Nat) (m : List Byte) : s.onlyQueues (s.queueMsg f m) f := by
  refine ⟨rfl, fun _ hk => s.fn_modFn_ne _ hk, ?_⟩
  unfold State.queueMsg
  rw [State.fn_modFn_self]
  split <;> rfl

/-- A reply goes to the queue of the request's function (16, R465, R470). -/
theorem State.reply_onlyQueues (s : State) (r : Req) (st : Status) (retry : Nat) (payload : List Byte) :
    s.onlyQueues (s.reply r st retry payload) r.f :=
  (s.hinted_onlyQueues st retry r.f).trans (State.queueMsg_onlyQueues _ r.f _)

/-- Function `f` has a message posted that the package takes: it is LIVE, and fewer than 8 requests of `f` are open (16, R466). -/
def State.mailWaits (s : State) (f : Nat) : Prop :=
  (s.fn f).inPost = true ∧ s.dev = .live ∧ (s.fw.reqs.filter (·.f == f)).length < 8

theorem State.mailWaits.guard {s : State} {f : Nat} (h : s.mailWaits f) :
    (!(s.fn f).inPost || s.dev = .cold || s.dev = .options || s.dev = .rom || s.dev = .recovering
      || 8 ≤ (s.fw.reqs.filter (·.f == f)).length) = false := by
  obtain ⟨hpost, hlive, hroom⟩ := h
  simp [hpost, hlive, hroom]

/-- A message of length 0 is taken and says nothing (16, R466). -/
theorem State.messageAccept_empty {s : State} {f : Func} (h : s.mailWaits f.val) (hlen : (s.fn f.val).inLen = 0) :
    exec (.messageAccept f) s = .next (s.takeMail f.val .ok) := by
  rw [exec_messageAccept]
  unfold execMessageAccept
  dsimp only
  rw [if_neg (by simp [h.guard]), if_pos (by simp [hlen])]
  rfl

/-- A message that is not well formed is taken and refused (16, R467). -/
theorem State.messageAccept_illFormed {s : State} {f : Func} (h : s.mailWaits f.val) (hlen : (s.fn f.val).inLen ≠ 0)
    (hm : ¬ mailWellFormed (s.inMail f.val)) : ∃ st, exec (.messageAccept f) s = .next (s.takeMail f.val st) := by
  rw [exec_messageAccept]
  unfold execMessageAccept
  dsimp only
  rw [if_neg (by simp [h.guard])]
  have hne : (winBytes (s.fn f.val).inWin (s.fn f.val).inLen.toNat).length ≠ 0 := by
    rw [winBytes_length]
    exact fun h0 => hlen (BitVec.eq_of_toNat_eq h0)
  rw [if_neg hne]
  split
  · exact ⟨_, rfl⟩
  · next hsize =>
    split
    · exact ⟨_, rfl⟩
    · next hver =>
      rw [if_pos]
      · exact ⟨_, rfl⟩
      · intro hreq
        unfold mailWellFormed State.inMail at hm
        simp only [Bool.or_eq_true, decide_eq_true_eq] at hsize
        exact hm ⟨by omega, by omega, by omega, hreq⟩

/-- A well-formed request is taken: one that fails a check is answered, and any other is open (16, R466 to R470). -/
theorem State.messageAccept_wellFormed {s : State} {f : Func} {r : Req} (h : s.mailWaits f.val)
    (hm : mailWellFormed (s.inMail f.val)) (hr : r = mailReq f.val (s.fn f.val).hostInc (s.inMail f.val)) :
    ∃ t, exec (.messageAccept f) s = .next t ∧
      ((s.reqCheck r ≠ none ∧ (s.takeMail f.val .ok).onlyQueues t f.val)
        ∨ (s.reqCheck r = none ∧ t = { s.takeMail f.val .ok with fw := { s.fw with reqs := s.fw.reqs ++ [r] } })) := by
  obtain ⟨h32, hsize, hver, hreq⟩ := hm
  have hf : r.f = f.val := by rw [hr]; rfl
  rw [← (s.takeMail_onlyPage f.val .ok).reqCheck r, ← s.takeMail_fw f.val .ok, exec_messageAccept]
  unfold execMessageAccept
  dsimp only
  unfold State.inMail at h32 hsize hver hreq hr
  unfold mailReq at hr
  rw [if_neg (by simp [h.guard]), if_neg (by omega), if_neg (by simp only [Bool.or_eq_true, decide_eq_true_eq]; omega),
    if_neg (by simp [hver]), if_neg (by simp [hreq]), ← hr]
  split
  · next st retry hcheck =>
    refine ⟨_, rfl, .inl ⟨by rw [State.takeMail, hcheck]; simp, ?_⟩⟩
    rw [← hf]
    split
    · exact ((State.bump_onlyQueues _ _ _ _).trans (State.queueHint_onlyQueues _ _)).trans (State.reply_onlyQueues _ r st _ _)
    · exact State.reply_onlyQueues _ r st _ _
  · next hcheck => exact ⟨_, rfl, .inr ⟨hcheck, rfl⟩⟩

end Sys2Proof.Machine
end

section
/-! SUPPORT. The statement on the registers that the host writes (02, sections 2.2, 2.3 and 2.5). -/

namespace Sys2Proof.Machine

/-! ## The commands whose access reaches its function (02, R27) -/

theorem execRegisterWrite_reaches {s : State} {f : Func} (h : s.hostReaches f.val) (off : Nat) (data : List Byte) :
    execRegisterWrite f off data s = .next (s.regWrite f off data) := by
  rw [execRegisterWrite, State.hostAccess_reaches h]

theorem execSeatTableWrite_reaches {s : State} {f : Nat} (h : s.hostReaches f) (r : SeatTableReg) (v : Word) :
    execSeatTableWrite r v s = .next (s.writeTable r v.toNat) := by
  rw [execSeatTableWrite, State.hostAccess_reaches (State.hostReaches_pf h)]

theorem execHifEventPop_reaches {s : State} {f : Func} (h : s.hostReaches f.val) : execHifEventPop f s = .next (s.popEvent f.val) := by
  obtain ⟨-, -, hd0⟩ := id h
  simp [execHifEventPop, State.hostAccess_reaches h, hd0]

theorem execIrqCauseClear_reaches {s : State} {f : Func} (h : s.hostReaches f.val) (v again : Quad) :
    execIrqCauseClear f v again s = .next (s.clearCause f.val v again) := by
  obtain ⟨hopen, hfn, hd0⟩ := h
  simp [execIrqCauseClear, hopen, hfn, hd0]

theorem execIrqMaskWrite_reaches {s : State} {f : Func} (h : s.hostReaches f.val) (v : Quad) :
    execIrqMaskWrite f v s = .next (s.writeMask f.val v) := by
  rw [execIrqMaskWrite, State.hostAccess_reaches h]

theorem execMsiXTableWrite_reaches {s : State} {f : Func} (h : s.hostReaches f.val) (v : Fin 32) (m : Bool) :
    execMsiXTableWrite f v m s = .next (s.maskVector f.val v.val m) := by
  rw [execMsiXTableWrite, State.hostAccess_reaches h]

/-- HIF_HOST_UPPER takes its 16 bits (02, Table 2-6). -/
theorem State.regWrite_hostUpper (s : State) (f : Func) {data : List Byte} (h : data.length = 8) :
    s.regWrite f 0x010 data = s.modFn f.val fun q => { q with hostUpper := BitVec.ofNat 16 (leNat data) } := by
  simp [s.regWrite_one f (off := 0x010) (by decide) h, State.writeFnReg, mergeBytes_full _ h]

/-- HIF_DOORBELL_STATUS is read-only (02, Table 2-5). -/
theorem State.regWrite_doorbellStatus (s : State) (f : Func) {data : List Byte} (h : data.length = 8) :
    s.regWrite f 0x008 data = s := by
  simp [s.regWrite_one f (off := 0x008) (by decide) h, State.writeFnReg]

/-- SEAT_CACHE_CTRL of PF 0 takes its three fields (02, Table 2-10). -/
theorem State.regWrite_cacheCtrl (s : State) {f : Func} {data : List Byte} (hf : f.val = 0) (h : data.length = 8) :
    s.regWrite f 0x2020 data = { s with host := { s.host with
      pinLimit := BitVec.ofNat 6 (leNat data), evictHalted := bit (leNat data) 8, holdHalted := bit (leNat data) 9 } } := by
  rw [s.regWrite_one f (by decide) h, if_neg (by decide), if_pos hf, State.writePfReg, mergeBytes_full _ h]

/-- Settles O3. Every write is the access's own action once it reaches the function, and each action has its lemma: the interrupt
registers through `onlySends`, what a write leaves alone when all that follows it is messages. -/
theorem hostRegistersTakeWrites : Obligations.HostRegistersTakeWrites := by
  unfold Obligations.HostRegistersTakeWrites
  intro s f
  refine ⟨fun off data hclosed => ?_, fun off data hopen hfn hd3 => ?_, fun h => ?_⟩
  · rw [exec_registerWrite, execRegisterWrite, State.hostAccess_closed hclosed]
  · rw [exec_registerWrite, execRegisterWrite, State.hostAccess_d3hot hopen hfn hd3]
  simp only [exec_seatTableWrite, exec_registerWrite, exec_hifEventPop, exec_irqCauseClear, exec_irqMaskWrite, exec_msiXTableWrite,
    execSeatTableWrite_reaches h, execRegisterWrite_reaches h, execHifEventPop_reaches h, execIrqCauseClear_reaches h,
    execIrqMaskWrite_reaches h, execMsiXTableWrite_reaches h]
  refine ⟨fun v hfree => ?base, fun v hfree hv => ?size, fun v hv => ?above, fun r v hlive => ?live,
    fun data h8 => ⟨⟨_, rfl, ?upper⟩, ?status, fun hf => ⟨_, rfl, ?cache⟩⟩, fun e es he => ⟨_, rfl, ?pop⟩, fun he => ?empty,
    fun v again => ⟨_, rfl, ?cause⟩, fun v => ⟨_, rfl, ?mask⟩, fun v m => ⟨_, rfl, ?vector⟩⟩
  case base => rw [State.writeTable_base hfree]
  case size => rw [State.writeTable_size hfree hv]
  case above => rw [State.writeTable_size_over s hv]
  case live => rw [State.writeTable_live hlive]
  case upper =>
    rw [s.regWrite_hostUpper f h8]
    exact ⟨by simp, rfl, fun k hk => s.fn_modFn_ne _ hk⟩
  case status => rw [s.regWrite_doorbellStatus f h8]
  case cache => exact s.regWrite_cacheCtrl hf h8
  case pop =>
    rw [State.popEvent_cons he]
    exact ⟨by simp, by simp, rfl, (s.emit_onlyPage _ _).trans (State.modFn_onlyPage _ _ _)⟩
  case empty => rw [State.popEvent_nil he]
  case cause =>
    obtain ⟨hframe, hpage⟩ := s.clearCause_onlySends f.val v again
    exact ⟨by rw [hpage, State.fn_modFn_self], (s.modFn_onlyPage _ _).trans hframe⟩
  case mask =>
    obtain ⟨hframe, hpage⟩ := s.writeMask_onlySends f.val v
    exact ⟨by rw [hpage, State.fn_modFn_self], by rw [hpage, State.fn_modFn_self], (s.modFn_onlyPage _ _).trans hframe⟩
  case vector =>
    refine ⟨s.maskVector_masked f.val v.val m, fun hm hp => ?_, s.maskVector_onlyPage f.val v.val m⟩
    subst hm
    exact State.maskVector_pending hp

end Sys2Proof.Machine
end

section
/-! SUPPORT. The statement on the mailbox windows (02, R35, R36; 16, R465 to R473). -/

namespace Sys2Proof.Machine

/-! ## The outbound window (16, R470, R473) -/

/-- A reply that leaves touches only the delayed resets of the boot state (15, R435). -/
theorem State.replyLeft_frame (s : State) (m : List Byte) : s.replyLeft m = { s with boot := (s.replyLeft m).boot } := by
  unfold State.replyLeft
  split <;> rfl

@[simp] theorem State.fn_replyLeft (s : State) (m : List Byte) (f : Nat) : (s.replyLeft m).fn f = s.fn f := by
  rw [State.replyLeft_frame]
  rfl

@[simp] theorem State.obj_replyLeft (s : State) (m : List Byte) (k d : Nat) : (s.replyLeft m).obj k d = s.obj k d := by
  rw [State.replyLeft_frame]
  rfl

@[simp] theorem State.fn_bump (s : State) (k w f : Nat) : (s.bump k w).fn f = s.fn f := rfl

@[simp] theorem State.obj_modFn (s : State) (f : Nat) (g : FnPage → FnPage) (k d : Nat) : (s.modFn f g).obj k d = s.obj k d := rfl

/-- The head message `m` has left the outbound queue of function `f`, `ms` stays, and the first held message moves up (16, R470). -/
def State.dequeueMail (s : State) (f : Nat) (m : List Byte) (ms : List (List Byte)) : State :=
  (s.modFn f fun q => { q with outQ := ms ++ q.outHeld.take 1, outHeld := q.outHeld.drop 1 }).replyLeft m

@[simp] theorem State.fn_dequeueMail (s : State) (f : Nat) (m : List Byte) (ms : List (List Byte)) :
    (s.dequeueMail f m ms).fn f = { s.fn f with outQ := ms ++ (s.fn f).outHeld.take 1, outHeld := (s.fn f).outHeld.drop 1 } := by
  simp [State.dequeueMail]

@[simp] theorem State.obj_dequeueMail (s : State) (f : Nat) (m : List Byte) (ms : List (List Byte)) (k d : Nat) :
    (s.dequeueMail f m ms).obj k d = s.obj k d := by
  simp [State.dequeueMail]

/-- Message `m` lies in MBX_OUT_0 of function `f`, and the cause mbx_out is raised (02, R36). -/
def State.fillOut (s : State) (f : Nat) (m : List Byte) : State :=
  (s.modFn f fun q => { q with outWin := winPut q.outWin 0 m, outLen := BitVec.ofNat 11 m.length, outFull := true }).raiseIrq f 0

theorem State.fn_fillOut (s : State) (f : Nat) (m : List Byte) :
    (s.fillOut f m).fn f = { s.fn f with
      outWin := winPut (s.fn f).outWin 0 m, outLen := BitVec.ofNat 11 m.length, outFull := true
      cause := (s.fn f).cause ||| (1 <<< 0), pba := ((s.fillOut f m).fn f).pba } := by
  have h := (s.modFn f fun q =>
    { q with outWin := winPut q.outWin 0 m, outLen := BitVec.ofNat 11 m.length, outFull := true }).fn_raiseIrq f 0
  rwa [State.fn_modFn_self] at h

/-- Filling the window after the queue moved up touches the function's page, the outputs and the boot state alone. -/
theorem State.dequeueMail_fillOut_frame (s : State) (f : Nat) (m : List Byte) (ms : List (List Byte)) (t : State)
    (ht : t = (s.dequeueMail f m ms).fillOut f m) :
    t = { s with host := { s.host with fns := t.host.fns }, out := t.out, boot := t.boot } := by
  have hd : s.dequeueMail f m ms = { s with
      host := { s.host with fns := (s.dequeueMail f m ms).host.fns }, boot := (s.dequeueMail f m ms).boot } := by
    unfold State.dequeueMail
    rw [State.replyLeft_frame]
    rfl
  have hfill : (s.dequeueMail f m ms).onlyPage t f := by
    rw [ht]
    exact (State.modFn_onlyPage _ f _).trans (State.raiseIrq_onlyPage _ f 0)
  have hboot : t.boot = (s.dequeueMail f m ms).boot := by rw [hfill.1]
  calc t = { s.dequeueMail f m ms with
          host := { (s.dequeueMail f m ms).host with fns := t.host.fns }, out := t.out } := hfill.1
    _ = { s with host := { s.host with fns := t.host.fns }, out := t.out, boot := t.boot } := by rw [hboot, hd]

/-- A full window takes no message (02, R36). -/
theorem State.mbxOutWrite_full {s : State} {f : Func} (h : (s.fn f.val).outFull = true) : exec (.mbxOutWrite f) s = .next s := by
  simp [execMbxOutWrite, h]

/-- A free window takes the next message when it is addressed to the host's incarnation (16, R470). -/
theorem State.mbxOutWrite_addressed {s : State} {f : Func} {m : List Byte} {ms : List (List Byte)}
    (hfree : (s.fn f.val).outFull = false) (hq : (s.fn f.val).outQ = m :: ms) (hinc : field m 0xC 4 = (s.fn f.val).hostInc.toNat) :
    exec (.mbxOutWrite f) s = .next ((s.dequeueMail f.val m ms).fillOut f.val m) := by
  simp [execMbxOutWrite, hfree, hq, hinc, State.dequeueMail, State.fillOut]

/-- A message to another incarnation is dropped and counted (16, R473). -/
theorem State.mbxOutWrite_dropped {s : State} {f : Func} {m : List Byte} {ms : List (List Byte)}
    (hfree : (s.fn f.val).outFull = false) (hq : (s.fn f.val).outQ = m :: ms) (hinc : field m 0xC 4 ≠ (s.fn f.val).hostInc.toNat) :
    exec (.mbxOutWrite f) s = .next ((s.dequeueMail f.val m ms).bump 0x800305 64) := by
  simp [execMbxOutWrite, hfree, hq, hinc, State.dequeueMail]

/-! ## What every taken message does (16, R466) -/

/-- From `s` to `t` the posted message of function `f` was taken: the window is free, the cause mbx_in_free stands, and of the pages only
`f`'s differs. -/
def State.tookMail (s t : State) (f : Nat) : Prop :=
  (t.fn f).inPost = false ∧ (t.fn f).cause.getLsbD 1 = true
    ∧ t = { s with host := { s.host with fns := t.host.fns }, out := t.out, fw := t.fw, objs := t.objs, freeCtr := t.freeCtr }
    ∧ ∀ k, k ≠ f → t.fn k = s.fn k

theorem State.takeMail_tookMail (s : State) (f : Nat) (st : Status) : s.tookMail (s.takeMail f st) f := by
  obtain ⟨hframe, hpages⟩ := s.takeMail_onlyPage f st
  refine ⟨by rw [State.fn_takeMail], ?_, ?_, hpages⟩
  · rw [State.fn_takeMail]
    exact getLsbD_or_one_shiftLeft _ (by decide)
  · rw [hframe]

/-- The answers to a taken message leave it taken. -/
theorem State.tookMail.onlyQueues {s t u : State} {f : Nat} (hst : s.tookMail t f) (htu : t.onlyQueues u f) : s.tookMail u f := by
  obtain ⟨hpost, hcause, ht, hkt⟩ := hst
  obtain ⟨hu, hku, hfu⟩ := htu
  refine ⟨by rw [hfu]; exact hpost, by rw [hfu]; exact hcause, ?_, fun k hk => (hku k hk).trans (hkt k hk)⟩
  rw [hu, ht]

/-- A request that is open from now on leaves its message taken. -/
theorem State.tookMail.withFw {s t : State} {f : Nat} (h : s.tookMail t f) (w : Fw) : s.tookMail { t with fw := w } f := by
  obtain ⟨hpost, hcause, ht, hkt⟩ := h
  refine ⟨hpost, hcause, ?_, hkt⟩
  rw [ht]

/-- What MESSAGE_ACCEPT does with every message that it takes (16, R466). -/
theorem State.messageAccept_tookMail {s : State} {f : Func} (h : s.mailWaits f.val) :
    ∃ t, exec (.messageAccept f) s = .next t ∧ s.tookMail t f.val
      ∧ ((s.fn f.val).inLen = 0 → (t.fn f.val).accept = 0x00 ∧ t.fw = s.fw)
      ∧ (mailWellFormed (s.inMail f.val) → ∀ r, r = mailReq f.val (s.fn f.val).hostInc (s.inMail f.val) → s.reqCheck r = none →
          (t.fn f.val).accept = 0x00 ∧ t.fw = { s.fw with reqs := s.fw.reqs ++ [r] }) := by
  have hok : ((s.takeMail f.val .ok).fn f.val).accept = 0x00 := by rw [State.fn_takeMail]; rfl
  by_cases hlen : (s.fn f.val).inLen = 0
  · refine ⟨_, State.messageAccept_empty h hlen, s.takeMail_tookMail _ _, fun _ => ⟨hok, by simp⟩, fun hm => ?_⟩
    have h32 := hm.1
    simp [State.inMail, hlen] at h32
  · by_cases hm : mailWellFormed (s.inMail f.val)
    · obtain ⟨t, ht, hcases⟩ := State.messageAccept_wellFormed h hm rfl
      refine ⟨t, ht, ?_, fun h0 => absurd h0 hlen, ?_⟩
      · obtain ⟨-, hqueues⟩ | ⟨-, rfl⟩ := hcases
        · exact (s.takeMail_tookMail _ _).onlyQueues hqueues
        · exact (s.takeMail_tookMail _ _).withFw _
      · rintro - r rfl hnone
        obtain ⟨hsome, -⟩ | ⟨-, rfl⟩ := hcases
        · exact absurd hnone hsome
        · exact ⟨hok, rfl⟩
    · obtain ⟨st, hst⟩ := State.messageAccept_illFormed h hlen hm
      exact ⟨_, hst, s.takeMail_tookMail _ _, fun h0 => absurd h0 hlen, fun hm' => absurd hm' hm⟩

/-! ## Writes while a message is posted (02, R35) -/

theorem State.regWrite_inWin_posted {s : State} {f : Func} (hp : (s.fn f.val).inPost = true) {off : Nat} {data : List Byte}
    (hlo : 0x600 ≤ off) (hhi : off + data.length ≤ 0xB00) : s.regWrite f off data = s :=
  State.regWrite_ignored (by omega) fun _ _ _ _ _ _ => State.writeFnReg_inWin_posted hp (by omega) (by omega) _ _

theorem State.regWrite_inCtrl_posted {s : State} {f : Func} (hp : (s.fn f.val).inPost = true) {off : Nat} {data : List Byte}
    (hlo : 0x200 ≤ off) (hhi : off + data.length ≤ 0x208) : s.regWrite f off data = s := by
  refine State.regWrite_ignored (by omega) fun r at0 part h8 hafter hbefore => ?_
  obtain rfl : r = 0x200 := by omega
  exact State.writeFnReg_inCtrl_posted hp at0 part

/-- Settles O4. A post and the writes of R35 are the access's own action; MESSAGE_ACCEPT goes by the cases of its message; MBX_OUT_WRITE
by the window and the incarnation that the message is addressed to. -/
theorem mailboxWindowsCarryMessages : Obligations.MailboxWindowsCarryMessages := by
  unfold Obligations.MailboxWindowsCarryMessages
  intro s f h
  have hpost : exec (.mbxInPost f) s = .next (s.postIn f.val) := by
    rw [exec_mbxInPost, execMbxInPost, State.hostAccess_reaches h]
  refine ⟨fun hfree hl => ?post, fun hfree hl => ?tooLong, fun hp => ⟨?again, fun off data hlo hhi => ?window,
    fun off data hlo hhi => ?ctrl⟩, State.mbxOutWrite_full, fun hp hlive hroom => ?accept, ?clear, fun m ms hfree hq hinc => ?fill,
    fun m ms hfree hq hinc => ?drop⟩
  case post => rw [hpost, State.postIn_free hfree hl]
  case tooLong => rw [hpost, State.postIn_tooLong hfree hl]
  case again => rw [hpost, State.postIn_posted hp]
  case window => rw [exec_registerWrite, execRegisterWrite_reaches h, State.regWrite_inWin_posted hp hlo hhi]
  case ctrl => rw [exec_registerWrite, execRegisterWrite_reaches h, State.regWrite_inCtrl_posted hp hlo hhi]
  case accept =>
    obtain ⟨t, ht, ⟨hfree, hcause, hframe, hpages⟩, hempty, hopen⟩ := State.messageAccept_tookMail ⟨hp, hlive, hroom⟩
    refine ⟨t, ht, hfree, hcause, hempty, ?_, hframe, hpages⟩
    rintro m r rfl h32 hsize hver hreq hr hnone
    exact hopen ⟨h32, hsize, hver, hreq⟩ r hr hnone
  case clear => rw [exec_mbxOutClear, execMbxOutClear, State.hostAccess_reaches h, State.clearOut]
  case fill =>
    refine ⟨_, State.mbxOutWrite_addressed hfree hq hinc, ?_⟩
    have hframe := s.dequeueMail_fillOut_frame f.val m ms _ rfl
    rw [State.fn_fillOut]
    refine ⟨rfl, rfl, fun i hi => get_winPut_zero _ _ hi, by simp, getLsbD_or_one_shiftLeft _ (by decide), hframe⟩
  case drop =>
    refine ⟨_, State.mbxOutWrite_dropped hfree hq hinc, ?_⟩
    simp [hfree, State.obj_bump, maxOf]

end Sys2Proof.Machine
end

section
/-! SUPPORT. What the clearing steps of a reset leave alone (12, R365; 15, R437, R443; 18, R535, R542): one relation between two states, kept by
each message, report, group, epoch, restore and parked seat on the way. -/

namespace Sys2Proof.Machine

/-! ## The relation -/

/-- From `s` to `t` nothing of what says which reset this was, which image runs and how often the package has been reset has changed, and no
group and no play has come up. A step that leaves a part as it is need not say so. -/
structure State.keepsCore (s t : State) : Prop where
  dev : t.dev = s.dev := by rfl
  boot : t.boot = s.boot := by rfl
  time : t.time = s.time := by rfl
  clk : t.clk = s.clk := by rfl
  pkgInc : t.fw.pkgInc = s.fw.pkgInc := by rfl
  journal : t.maint.journal = s.maint.journal := by rfl
  recovered : t.maint.recovered = s.maint.recovered := by rfl
  faulty : t.links.faulty = s.links.faulty := by rfl
  warmCount : Tbl.get none t.objs 0x110004 = Tbl.get none s.objs 0x110004 := by rfl
  groups : s.groups = [] → t.groups = [] := by exact fun h => h
  play : s.play = none → t.play = none := by exact fun h => h

theorem State.keepsCore_refl (s : State) : s.keepsCore s := {}

theorem State.keepsCore.trans {s t u : State} (hst : s.keepsCore t) (htu : t.keepsCore u) : s.keepsCore u where
  dev := htu.dev.trans hst.dev
  boot := htu.boot.trans hst.boot
  time := htu.time.trans hst.time
  clk := htu.clk.trans hst.clk
  pkgInc := htu.pkgInc.trans hst.pkgInc
  journal := htu.journal.trans hst.journal
  recovered := htu.recovered.trans hst.recovered
  faulty := htu.faulty.trans hst.faulty
  warmCount := htu.warmCount.trans hst.warmCount
  groups := fun h => htu.groups (hst.groups h)
  play := fun h => htu.play (hst.play h)

/-- A pass over a list whose every step keeps the core keeps it. -/
theorem State.foldl_keepsCore {α : Type} {f : State → α → State} (hf : ∀ (s : State) (a : α), s.keepsCore (f s a)) (l : List α) (s : State) :
    s.keepsCore (l.foldl f s) := by
  induction l generalizing s with
  | nil => exact s.keepsCore_refl
  | cons a l ih => exact (hf s a).trans (ih _)

theorem State.keepsCore.obj {s t : State} (h : s.keepsCore t) (d : Nat) : t.obj 0x110004 d = s.obj 0x110004 d := by
  simp only [State.obj, h.warmCount]

theorem State.keepsCore.now {s t : State} (h : s.keepsCore t) : t.now = s.now := by
  simp only [State.now, h.time]

/-! ## Counters, notices and reports (17, R485; 18, R512) -/

theorem State.setObj_objs_ne (s : State) {j k : Nat} (v : Nat) (hk : k ≠ j) : Tbl.get none (s.setObj j v).objs k = Tbl.get none s.objs k :=
  Tbl.get_set_ne none s.objs (some v) hk

theorem State.bump_objs_ne (s : State) {j k : Nat} (w n : Nat) (hk : k ≠ j) :
    Tbl.get none (s.bump j w n).objs k = Tbl.get none s.objs k := s.setObj_objs_ne _ hk

theorem State.setObj_keepsCore (s : State) {k : Nat} (v : Nat) (hk : 0x110004 ≠ k) : s.keepsCore (s.setObj k v) :=
  { warmCount := s.setObj_objs_ne v hk }

theorem State.bump_keepsCore (s : State) {k : Nat} (w n : Nat) (hk : 0x110004 ≠ k) : s.keepsCore (s.bump k w n) :=
  s.setObj_keepsCore _ hk

theorem State.notice_keepsCore (s : State) (f kind : Nat) (st : Status) (body : List Byte) : s.keepsCore (s.notice f kind st body) := by
  constructor <;> simp

/-- Of the objects a report changes errors_reported alone (18, R512). -/
theorem State.report_objs (s : State) (cls code action : Nat) (seat : Option Nat) (d : List Nat) (st : Option Status) (die : Nat)
    (x : List (List Byte)) : (s.report cls code action seat d st die x).objs = (s.bump 0x600001 64).objs := by
  unfold State.report
  dsimp only
  simp only [State.noticeErrors_frame, State.raiseAll_frame]
  rfl

theorem State.obj_report (s : State) (cls code action : Nat) (seat : Option Nat) (d : List Nat) (st : Option Status) (die : Nat)
    (x : List (List Byte)) {k : Nat} (dflt : Nat) (hk : k ≠ 0x600001) :
    (s.report cls code action seat d st die x).obj k dflt = s.obj k dflt := by
  have hbump : (s.report cls code action seat d st die x).obj k dflt = (s.bump 0x600001 64).obj k dflt := by
    simp only [State.obj, State.report_objs]
  rw [hbump, State.obj_bump, if_neg hk]

theorem State.report_keepsCore (s : State) (cls code action : Nat) (seat : Option Nat) (d : List Nat) (st : Option Status) (die : Nat)
    (x : List (List Byte)) : s.keepsCore (s.report cls code action seat d st die x) := by
  constructor
  case warmCount =>
    rw [State.report_objs]
    exact (s.bump_keepsCore 64 1 (by decide)).warmCount
  all_goals simp [State.report]

/-! ## What the fabric does for a message (11, R336, R337; 12, R358 to R365) -/

theorem State.emit_keepsCore (s : State) (x : Output) : s.keepsCore (s.emit x) := {}

theorem State.setConn_keepsCore (s : State) (id : Nat) (c : Option Conn) : s.keepsCore (s.setConn id c) := {}

theorem State.modPort_keepsCore (s : State) (n : Nat) (f : Port → Port) : s.keepsCore (s.modPort n f) := {}

theorem State.stampPair_keepsCore (s : State) (table : Half) (p : Packet) : s.keepsCore (s.stampPair table p).2 := by
  unfold State.stampPair
  split
  · exact s.keepsCore_refl
  · exact {}

theorem State.sendPacket_keepsCore (s : State) (p : Packet) (east : Bool) : s.keepsCore (s.sendPacket p east) :=
  (s.stampPair_keepsCore s.table.id { p with srcPos := s.table.position }).trans
    ({})

/-- The frame counter of a spine port is no reset counter. -/
theorem warmCount_ne_portObj {q n : Nat} (hn : n < 0x80) : 0x110004 ≠ portObj q n := by
  unfold portObj objKey
  split <;> omega

theorem State.emitData_keepsCore (s : State) (id : Nat) (bulk : Bool) (x : SpineTx) : s.keepsCore (s.emitData id bulk x) := by
  unfold State.emitData
  split
  · exact s.keepsCore_refl
  · split
    · exact s.keepsCore_refl
    · exact ((s.setConn_keepsCore _ _).trans (State.bump_keepsCore _ _ _ (warmCount_ne_portObj (by decide)))).trans
        (State.emit_keepsCore _ _)

theorem State.pumpStream_keepsCore (s : State) (id : Nat) (bulk : Bool) (n : Nat) : s.keepsCore (s.pumpStream id bulk n) := by
  induction n generalizing s with
  | zero => exact s.keepsCore_refl
  | succ n ih =>
    unfold State.pumpStream
    dsimp only
    split
    · exact s.keepsCore_refl
    · split
      · exact s.keepsCore_refl
      · split
        · exact s.keepsCore_refl
        · exact (((s.modPort_keepsCore _ _).trans (State.setConn_keepsCore _ _ _)).trans (State.emitData_keepsCore _ _ _ _)).trans (ih _)

theorem State.pumpConn_keepsCore (s : State) (id : Nat) : s.keepsCore (s.pumpConn id) :=
  (s.pumpStream_keepsCore id false 64).trans (State.pumpStream_keepsCore _ id true 64)

theorem State.sendCtrl_keepsCore (s : State) (id kind : Nat) (m : CtrlMsg) : s.keepsCore (s.sendCtrl id kind m) := {}

theorem State.openConn_keepsCore (s : State) (table : Half) (slot : Nat) : s.keepsCore (s.openConn table slot).1 := by
  unfold State.openConn
  split
  · split
    · exact s.setConn_keepsCore _ _
    · exact s.keepsCore_refl
  · split
    · exact s.keepsCore_refl
    · split
      · exact s.keepsCore_refl
      · exact (s.setConn_keepsCore _ _).trans (State.sendCtrl_keepsCore _ _ _ _)

theorem State.sendSpine_keepsCore (s : State) (id : Nat) (p : Packet) (cd : Nat) : s.keepsCore (s.sendSpine id p cd) := by
  unfold State.sendSpine
  split
  · exact s.keepsCore_refl
  · exact ((s.stampPair_keepsCore _ _).trans (State.setConn_keepsCore _ _ _)).trans (State.pumpConn_keepsCore _ _)

theorem State.sendTo_keepsCore (s : State) (table : Half) (slot : Nat) (p : Packet) (cd : Nat) : s.keepsCore (s.sendTo table slot p cd) := by
  unfold State.sendTo
  split
  · split
    · split
      · exact s.keepsCore_refl
      · exact s.sendPacket_keepsCore _ _
    · exact s.keepsCore_refl
  · extract_lets t
    split
    · exact (s.openConn_keepsCore _ _).trans (State.sendSpine_keepsCore _ _ _ _)
    · exact s.openConn_keepsCore _ _

/-! ## Groups that are destroyed (12, R365, R371) -/

theorem State.sendRec_keepsCore (s : State) (g : Group) (to' kind : Nat) (r : CollRec) : s.keepsCore (s.sendRec g to' kind r) := by
  unfold State.sendRec
  split
  · exact s.keepsCore_refl
  · split
    · exact s.keepsCore_refl
    · exact s.sendTo_keepsCore _ _ _ _

theorem State.sendAbort_keepsCore (s : State) (g : Group) (seq : Nat) (st : Status) : s.keepsCore (s.sendAbort g seq st) :=
  State.foldl_keepsCore (fun s t => s.sendRec_keepsCore g t _ _) _ s

theorem State.closeReleased_keepsCore (s : State) (id : Nat) : s.keepsCore (s.closeReleased id) := by
  unfold State.closeReleased
  split
  · exact s.keepsCore_refl
  · dsimp only
    split
    · exact (s.setConn_keepsCore _ _).trans (State.sendCtrl_keepsCore _ _ _ _)
    · exact s.keepsCore_refl

theorem State.releaseAnte_keepsCore (s : State) (g : Group) : s.keepsCore (s.releaseAnte g) := by
  refine State.foldl_keepsCore (fun s x => ?_) _ s
  split
  · exact s.keepsCore_refl
  · split
    · exact s.keepsCore_refl
    · exact (s.setConn_keepsCore _ _).trans (State.closeReleased_keepsCore _ _)

theorem State.destroyGroups_keepsCore (s : State) (n : Nat) (st : Status) : s.keepsCore (s.destroyGroups n st) := by
  unfold State.destroyGroups
  refine State.keepsCore.trans ?_ (State.foldl_keepsCore
    (fun s g => (s.sendAbort_keepsCore g _ st).trans (State.releaseAnte_keepsCore _ g)) _ _)
  exact { groups := fun h => by simp [h] }

theorem State.destroyAll_keepsCore (s : State) : s.keepsCore s.destroyAll :=
  State.foldl_keepsCore (fun s n => s.destroyGroups_keepsCore n _) _ s

/-! ## Epochs and restores that end (18, R535, R542) -/

theorem State.tallyEpoch_keepsCore (s : State) (n : Nat) : s.keepsCore (s.tallyEpoch n) := by
  unfold State.tallyEpoch
  split
  · exact s.keepsCore_refl
  · exact {}

theorem State.abandonEpoch_keepsCore (s : State) (n : Nat) (st : Status) : s.keepsCore (s.abandonEpoch n st) := by
  unfold State.abandonEpoch
  split
  · exact s.keepsCore_refl
  · next e _ =>
    refine State.keepsCore.trans ?_ (State.report_keepsCore _ _ _ _ _ _ _ _ _)
    refine State.keepsCore.trans
      (t := { s with rel := { s.rel with
        epochs := s.rel.epochs.filter (·.seat ≠ n), halves := Tbl.set none s.rel.halves (2 * n + e.half) none } })
      ({}) ?_
    split
    · exact State.keepsCore_refl _
    · exact State.tallyEpoch_keepsCore _ _

theorem State.abandonAll_keepsCore (s : State) (st : Status) : s.keepsCore (s.abandonAll st) :=
  State.foldl_keepsCore (fun s n => s.abandonEpoch_keepsCore n st) _ s

theorem State.endRestore_keepsCore (s : State) (k : Nat) (st : Status) : s.keepsCore (s.endRestore k st) := by
  unfold State.endRestore
  split
  · exact s.keepsCore_refl
  · refine State.keepsCore.trans
      (t := { s with maint := { s.maint with restores := s.maint.restores.filter (·.key ≠ k) } })
      ({}) ?_
    dsimp only
    split
    · exact State.report_keepsCore _ _ _ _ _ _ _ _ _
    · exact State.report_keepsCore _ _ _ _ _ _ _ _ _

theorem State.endRestores_keepsCore (s : State) : s.keepsCore s.endRestores :=
  State.foldl_keepsCore (fun s k => s.endRestore_keepsCore k _) _ s

/-! ## Seats that are cleared, parked or reset (09, R281; 15, R443; 18, Table 18-4) -/

theorem State.modSeat_keepsCore (s : State) (n : Nat) (g : SeatInfo → SeatInfo) : s.keepsCore (s.modSeat n g) := {}

theorem State.setSeat_keepsCore (s : State) (n : Nat) (st : SeatState) (cause : Option Byte) : s.keepsCore (s.setSeat n st cause) := by
  constructor <;> simp

theorem State.breakLocks_keepsCore (s : State) (n : Nat) : s.keepsCore (s.breakLocks n) := by
  unfold State.breakLocks
  dsimp only
  split
  · exact {}
  · refine State.keepsCore.trans ?_ (State.bump_keepsCore _ 32 _ (by decide))
    exact {}

theorem State.clearObjects_keepsCore (s : State) (n : Nat) : s.keepsCore (s.clearObjects n) :=
  have hzero : s.keepsCore (s.zeroTallies n) := {}
  (hzero.trans (State.breakLocks_keepsCore _ n)).trans (State.modSeat_keepsCore _ n _)

theorem State.refreshRaw_keepsCore (s : State) (n : Nat) : s.keepsCore (s.refreshRaw n) := by
  unfold State.refreshRaw
  dsimp only
  split
  · exact s.keepsCore_refl
  · exact s.modSeat_keepsCore n _

theorem State.writeEntry_keepsCore (s : State) (n : Nat) : s.keepsCore (s.writeEntry n) := by
  constructor <;> simp [State.writeEntry]

theorem State.parkSeat_keepsCore (s : State) (n : Nat) : s.keepsCore (s.parkSeat n) :=
  (((s.refreshRaw_keepsCore n).trans (State.modSeat_keepsCore _ n _)).trans (State.setSeat_keepsCore _ n _ _)).trans
    (State.writeEntry_keepsCore _ n)

theorem State.parkAll_keepsCore (s : State) : s.keepsCore s.parkAll := by
  unfold State.parkAll
  refine State.keepsCore.trans ?_ (State.foldl_keepsCore (fun s n => s.parkSeat_keepsCore n) _ _)
  exact { play := fun _ => rfl }

theorem State.remap_keepsCore (s : State) : s.keepsCore s.remap := by
  unfold State.remap
  dsimp only
  split
  · exact {}
  · refine State.keepsCore.trans ?_ (State.foldl_keepsCore (fun s e => s.report_keepsCore _ _ _ _ _ _ _ _) _ _)
    exact {}

theorem State.discardMasters_keepsCore (s : State) (n : Nat) : s.keepsCore (s.discardMasters n) := by
  unfold State.discardMasters
  dsimp only
  split <;> exact {}

theorem State.stopPlay_keepsCore (s : State) (n : Nat) : s.keepsCore (s.stopPlay n) := by
  unfold State.stopPlay
  split
  · exact { play := fun _ => rfl }
  · exact s.keepsCore_refl

theorem State.beginReset_keepsCore (s : State) (n src : Nat) : s.keepsCore (s.beginReset n src) := by
  unfold State.beginReset
  extract_lets i s1 s2 s3 s4 s5
  have h1 : s.keepsCore s1 := (s.discardMasters_keepsCore n).trans (State.stopPlay_keepsCore _ n)
  have hslab : s1.keepsCore s1.resetSlab := {}
  have h2 : s1.keepsCore s2 := (hslab.trans (State.breakLocks_keepsCore _ n)).trans (State.destroyGroups_keepsCore _ n _)
  have h3 : s2.keepsCore s3 := State.abandonEpoch_keepsCore _ n _
  have h4 : s3.keepsCore s4 := by
    unfold s4
    split
    · exact {}
    · exact s3.keepsCore_refl
  exact (((h1.trans h2).trans h3).trans h4).trans ((State.modSeat_keepsCore _ n _).trans (State.setSeat_keepsCore _ n _ _))

theorem State.dropBusy_keepsCore (s : State) (n : Nat) : s.keepsCore (s.dropBusy n) := by
  unfold State.dropBusy
  split
  · split
    · constructor <;> simp
    · exact s.keepsCore_refl
  · exact s.keepsCore_refl

theorem State.resetFromHost_keepsCore (s : State) (n src : Nat) : s.keepsCore (s.resetFromHost n src) := by
  unfold State.resetFromHost
  split
  · exact s.keepsCore_refl
  · split
    · exact s.modSeat_keepsCore n _
    · dsimp only
      refine State.keepsCore.trans ?_ ((State.modSeat_keepsCore _ n _).trans (State.beginReset_keepsCore _ n src))
      split
      · exact s.dropBusy_keepsCore n
      · exact s.keepsCore_refl

theorem State.flrPf_keepsCore (s : State) (src : Nat) : s.keepsCore (s.flrPf src) := by
  unfold State.flrPf
  have hmail : s.keepsCore (s.newMailSession fun _ => true) := {}
  refine hmail.trans ((State.foldl_keepsCore (fun s n => s.resetFromHost_keepsCore n src) (s.liveSeats.map (·.1)) _).trans ?_)
  exact {}

end Sys2Proof.Machine
end

section
/-! SUPPORT. What a cold reset, a warm reset, a device recovery and a host-port reset leave (15, R434 to R443, Tables 15-6, 15-9 and 15-12;
18, R522 to R526). -/

namespace Sys2Proof.Machine

/-! ## The shared steps -/

theorem State.setDev_dev (s : State) (d : DevState) : (s.setDev d).dev = d := by
  unfold State.setDev
  split
  next h => exact h
  next => simp

theorem State.setDev_keepsCore (s : State) (d : DevState) : ({ s with dev := d } : State).keepsCore (s.setDev d) := by
  constructor <;> simp [State.setDev_dev]

/-- A new incarnation touches the messages of the mailboxes and the counter of the discarded ones (16, R472). -/
theorem State.newIncarnation_frame (s : State) :
    s.newIncarnation = { s with mgmt := { s.mgmt with discarded := s.newIncarnation.mgmt.discarded }
                                fw := { s.fw with pkgInc := s.fw.pkgInc + 1, reqs := [] }, objs := s.newIncarnation.objs } := by
  unfold State.newIncarnation
  dsimp only
  split <;> rfl

theorem State.newIncarnation_objs (s : State) {k : Nat} (hk : k ≠ 0x800306) :
    Tbl.get none s.newIncarnation.objs k = Tbl.get none s.objs k := by
  unfold State.newIncarnation
  extract_lets count fs fw mgmt t n
  split
  · rfl
  · exact t.bump_objs_ne 64 n hk

/-- Steps of AVS rails touch the power state alone. -/
theorem State.stepRails_frame (mv : State → Nat → Nat) (l : List Nat) (s : State) :
    l.foldl (fun s c => s.stepRail c (mv s c)) s = { s with power := (l.foldl (fun s c => s.stepRail c (mv s c)) s).power } := by
  induction l generalizing s with
  | nil => rfl
  | cons c l ih =>
    rw [List.foldl_cons, ih]
    rfl

/-- Objects set along a list of ports touch the dictionary alone. -/
theorem State.setObjs_frame (p : Nat → Bool) (key : Nat → Nat) (l : List Nat) (s : State) :
    l.foldl (fun s n => if p n then s.setObj (key n) 1 else s) s
      = { s with objs := (l.foldl (fun s n => if p n then s.setObj (key n) 1 else s) s).objs } := by
  induction l generalizing s with
  | nil => rfl
  | cons n l ih =>
    rw [List.foldl_cons, ih]
    split <;> rfl

theorem State.loadMedia_frame (s : State) : s.loadMedia = { s with objs := s.loadMedia.objs } := by
  unfold State.loadMedia
  dsimp only
  rw [State.setObjs_frame, State.setObjs_frame (bit _)]

/-- Without a seat the unit map is recomputed and nobody is told (05, R139). -/
theorem State.remap_of_no_seats {s : State} (h : s.seats = []) : ∃ m, s.remap = { s with unitMap := m } := by
  unfold State.remap
  extract_lets full t bitsOf narrow off
  have hlive : t.liveSeats = [] := by simp [State.liveSeats, t, h]
  split
  · exact ⟨_, rfl⟩
  · rw [hlive]
    exact ⟨_, rfl⟩

/-! ## Cold resets (15, R434, R438, R439, Table 15-9) -/

/-- `t` holds what a cold reset leaves of `s`: the chip's own and the board's own contents, the causes, the pins, an incarnation more (15,
Table 15-6). -/
structure State.coldFrom (s t : State) (dev : DevState) : Prop where
  dev : t.dev = dev
  boot : t.boot = {
    fuses := s.boot.fuses, eeprom := s.boot.eeprom, cause := s.boot.cause, scope := s.boot.scope, detail := s.boot.detail
    seq := s.boot.seq, time := s.boot.time, resetLow := s.boot.resetLow, perstLow := s.boot.perstLow, told := 4 }
  fw : t.fw = { pkgInc := s.fw.pkgInc + 1 }
  good : t.power.good = s.power.good
  seats : t.seats = []
  memory : t.memory = {}
  groups : t.groups = []
  level : t.sec.level = 0
  coldCount : Tbl.get none t.objs 0x110005 = Tbl.get none s.objs 0x110005

theorem State.coldState_coldFrom (s : State) (dev : DevState) : s.coldFrom (s.coldState dev) dev := by
  have hboot : s.newIncarnation.boot = s.boot := by rw [State.newIncarnation_frame]
  have hgood : s.newIncarnation.power = s.power := by rw [State.newIncarnation_frame]
  have hfw : s.newIncarnation.fw.pkgInc = s.fw.pkgInc + 1 := by rw [State.newIncarnation_frame]
  have hcount := s.newIncarnation_objs (k := 0x110005) (by decide)
  unfold State.coldState
  generalize s.newIncarnation = u at hboot hgood hfw hcount ⊢
  generalize u.maint.coldJournal = j
  obtain ⟨j, lost⟩ := j
  extract_lets v objs
  dsimp -zeta only
  extract_lets t
  have ht : s.coldFrom t dev := by
    constructor
    case coldCount => exact (Tbl.get_set_self _ _ _ _).trans hcount
    all_goals simp [t, v, hboot, hgood, hfw]
  split
  · obtain ⟨hd, hb, hf, hg, hs, hm, hgr, hl, hc⟩ := ht
    exact ⟨hd, hb, hf, hg, hs, hm, hgr, hl, (t.setObj_objs_ne 7 (by decide)).trans hc⟩
  · exact ht

/-- `t` has loaded the options of `s` and awaits the crystal: the record and the votes are new, and seats, memory and security stay as they are
where no seat is up (15, R446 to R448, R451). -/
structure State.loadedFrom (s t : State) : Prop where
  boot : t.boot = { s.boot with
    held := none, waiting := true, voted := t.boot.voted, votes := t.boot.votes, record := t.boot.record, recState := t.boot.recState }
  seats : s.seats = [] → t.seats = []
  mem : s.seats = [] → t.memory.mem = s.memory.mem
  sec : s.seats = [] → t.sec = s.sec

theorem State.loadedFrom.congr {s t u : State} (h : s.loadedFrom t) (hboot : u.boot = t.boot) (hseats : u.seats = t.seats)
    (hmem : u.memory.mem = t.memory.mem) (hsec : u.sec = t.sec) : s.loadedFrom u where
  boot := by rw [hboot]; exact h.boot
  seats hs := hseats.trans (h.seats hs)
  mem hs := hmem.trans (h.mem hs)
  sec hs := hsec.trans (h.sec hs)

theorem State.loadedFrom.setDev {s t : State} (h : s.loadedFrom t) (d : DevState) : s.loadedFrom (t.setDev d) :=
  h.congr (by simp) (by simp) (by simp) (by simp)

theorem State.loadedFrom.remap {s t : State} (h : s.loadedFrom t) : s.loadedFrom t.remap := by
  obtain ⟨hboot, hseats, hmem, hsec⟩ := h
  have hmap : s.seats = [] → ∃ m, t.remap = { t with unitMap := m } := fun hs => State.remap_of_no_seats (hseats hs)
  refine ⟨by rw [t.remap_keepsCore.boot]; exact hboot, fun hs => ?_, fun hs => ?_, fun hs => ?_⟩
  all_goals
    obtain ⟨m, hm⟩ := hmap hs
    rw [hm]
  · exact hseats hs
  · exact hmem hs
  · exact hsec hs

theorem State.bringUp_loadedFrom (s : State) : s.loadedFrom s.bringUp := by
  unfold State.bringUp
  extract_lets votes boot1 s1 r boot2 s2 s3 mem table s4
  have h2 : s.loadedFrom s2 := ⟨rfl, id, fun _ => rfl, fun _ => rfl⟩
  have hrails : s3 = { s2 with power := s3.power } := State.stepRails_frame (fun s c => s.railTarget c 8) (List.range 10) s2
  clear_value s3
  have h3 : s.loadedFrom s3 := h2.congr (by rw [hrails]) (by rw [hrails]) (by rw [hrails]) (by rw [hrails])
  have hmedia := s4.loadMedia_frame
  have h4 : s.loadedFrom s4.loadMedia := h3.congr (by rw [hmedia]) (by rw [hmedia]) (by rw [hmedia]) (by rw [hmedia])
  split
  · exact h3.setDev _
  · exact h4.remap.setDev _

/-! ## A reset that runs (15, R437, R438) -/

theorem State.runReset_hostPort {s : State} (hdev : s.dev ≠ .options) (hidle : s.resetting = none) (cause : Nat) :
    s.runReset 1 cause = s.hostPortReset cause := by
  simp [State.runReset, hdev, hidle]

theorem State.runReset_warm {s : State} (hdev : s.dev ≠ .options) (hidle : s.resetting = none) (cause : Nat) (hold : Bool) :
    s.runReset 2 cause hold = s.warmReset cause hold := by
  simp [State.runReset, hdev, hidle]

theorem State.runReset_cold {s : State} (hdev : s.dev ≠ .options) (hidle : s.resetting = none) (cause : Nat) :
    s.runReset 4 cause = (s.beginCold cause 0).bringUp := by
  simp [State.runReset, hdev, hidle]

/-- A reset stays at its first step while RESET_N is low (20, R579). -/
def State.heldAt (s : State) (scope cause : Nat) : State := { s with boot := { s.boot with held := some (scope, cause) } }

theorem State.runReset_cold_held {s : State} (hdev : s.dev ≠ .options) (hidle : s.resetting = none) (cause : Nat) :
    s.runReset 4 cause true = (s.beginCold cause 0).heldAt 4 cause := by
  simp [State.runReset, hdev, hidle, State.heldAt]

/-- A reset as wide as the request absorbs it (15, R438). -/
theorem State.runReset_absorbed {s : State} {wide scope : Nat} (hdev : s.dev ≠ .options) (hbusy : s.resetting = some wide)
    (hle : scope ≤ wide) (cause : Nat) (hold : Bool) : s.runReset scope cause hold = s := by
  unfold State.runReset
  rw [if_neg hdev, hbusy]
  simp [hle]

/-- In OPTIONS a request starts the loading over with its cause (15, R450). -/
theorem State.runReset_options {s : State} (hdev : s.dev = .options) (scope cause : Nat) (hold : Bool) :
    s.runReset scope cause hold = s.noteReset (if scope = 2 then 4 else scope) cause 0 := by
  unfold State.runReset
  rw [if_pos hdev]

/-- The package has begun a cold reset for a cause, the options are loaded, and the crystal is awaited: nothing of its seats, its memory, its
debug level or a delayed reset is left (15, Tables 15-6 and 15-9). -/
structure State.coldStarted (t : State) (cause : Nat) : Prop where
  cause : t.boot.cause = cause
  scope : t.boot.scope = 4
  delayed : t.boot.delayed = none
  waiting : t.boot.waiting = true
  seats : t.seats = []
  mem : t.memory.mem = []
  level : t.sec.level = 0

/-- The first step of a cold reset: the state of Table 15-6 with this reset's cause, and the count of cold resets (15, R439). -/
theorem State.beginCold_boot (s : State) (cause detail : Nat) :
    (s.beginCold cause detail).boot = {
      fuses := s.boot.fuses, eeprom := s.boot.eeprom, cause := cause, scope := 4, detail := detail, seq := s.boot.seq + 1, time := s.now
      resetLow := s.boot.resetLow, perstLow := s.boot.perstLow, told := 4 } := by
  simpa [State.beginCold, State.noteReset] using ((s.noteReset 4 cause detail).coldState_coldFrom .options).boot

theorem State.beginCold_leaves (s : State) (cause detail : Nat) :
    (s.beginCold cause detail).dev = .options ∧ (s.beginCold cause detail).seats = [] ∧ (s.beginCold cause detail).memory = {} ∧
    (s.beginCold cause detail).sec.level = 0 := by
  have h := (s.noteReset 4 cause detail).coldState_coldFrom .options
  simp [State.beginCold, h.dev, h.seats, h.memory, h.level]

theorem State.bringUp_coldStarted (s : State) (cause : Nat) : (s.beginCold cause 0).bringUp.coldStarted cause := by
  obtain ⟨hboot, hseats, hmem, hsec⟩ := (s.beginCold cause 0).bringUp_loadedFrom
  obtain ⟨-, hseats0, hmem0, hlevel0⟩ := s.beginCold_leaves cause 0
  rw [State.beginCold_boot] at hboot
  exact {
    cause := by rw [hboot]
    scope := by rw [hboot]
    delayed := by rw [hboot]
    waiting := by rw [hboot]
    seats := hseats hseats0
    mem := by rw [hmem hseats0, hmem0]
    level := by rw [hsec hseats0, hlevel0] }

theorem State.runReset_coldStarted {s : State} (hdev : s.dev ≠ .options) (hidle : s.resetting = none) (cause : Nat) :
    (s.runReset 4 cause).coldStarted cause := by
  rw [State.runReset_cold hdev hidle]
  exact s.bringUp_coldStarted cause

/-! ## The host-port reset (15, R436, Table 15-6) -/

/-- `t` is what a host-port reset leaves of `s`: the device state, the boot state but for the causes and a LOAD, and no virtual function. -/
structure State.hostPortFrom (s t : State) (cause : Nat) : Prop where
  dev : t.dev = s.dev
  boot : t.boot = { s.boot with
    cause := cause, scope := 1, detail := 0, seq := s.boot.seq + 1, time := s.now, load := t.boot.load, code := t.boot.code }
  numVfs : t.host.numVfs = 0

theorem State.hostPortReset_hostPortFrom (s : State) (cause : Nat) : s.hostPortFrom (s.hostPortReset cause) cause := by
  unfold State.hostPortReset
  extract_lets u memory sec t fw boot
  have hu : (s.noteReset 1 cause 0).keepsCore u :=
    ((State.abandonAll_keepsCore _ _).trans (State.endRestores_keepsCore _)).trans (State.flrPf_keepsCore _ 3)
  have hboot : t.boot = (s.noteReset 1 cause 0).boot := hu.boot
  split
  · exact ⟨hu.dev, by simp [boot, hboot, State.noteReset], rfl⟩
  · exact ⟨hu.dev, by rw [hboot]; rfl, rfl⟩

/-! ## Folding (18, R525, R526) -/

theorem State.foldPackage_folded {s : State} (hdev : s.dev ≠ .folded) (reason : Nat) :
    (s.foldPackage reason).dev = .folded ∧ (s.foldPackage reason).obj 0x601003 0 = reason := by
  unfold State.foldPackage
  rw [if_neg hdev]
  extract_lets t u
  refine ⟨u.setDev_dev .folded, ?_⟩
  calc (u.setDev .folded).obj 0x601003 0 = u.obj 0x601003 0 := by simp [State.obj]
    _ = (t.setObj 0x601003 reason).obj 0x601003 0 := State.obj_report _ _ _ _ _ _ _ _ _ 0 (by decide)
    _ = reason := by simp

/-! ## Warm resets and device recoveries begin (15, R443, Tables 15-6 and 15-12) -/

/-- The core of the state once a warm reset or device recovery has begun: its causes, one more incarnation, the clock at divider 8, and no play
and no group. -/
def State.warmCore (s : State) (scope cause detail : Nat) (dev : DevState) : State :=
  { s with
    dev := dev, play := none, groups := []
    boot := { s.boot with
      cause := cause, scope := scope, detail := detail, seq := s.boot.seq + 1, time := s.now
      load := none, delayed := none, blockBusy := false, told := scope }
    fw := { s.fw with pkgInc := s.fw.pkgInc + 1 }
    time := { s.time with exchs := [], master := none }
    clk := { s.clk with
      gated := 0, ungating := 0, ledger := 8, div := 8, fallback := [], changes := if s.clk.div = 8 then s.clk.changes else s.clk.changes + 1 } }

theorem State.keepsCore.withDev {s t : State} (h : s.keepsCore t) (d : DevState) :
    ({ s with dev := d } : State).keepsCore { t with dev := d } :=
  { h with dev := rfl }

theorem State.newIncarnation_keepsCore (s : State) :
    ({ s with fw := { s.fw with pkgInc := s.fw.pkgInc + 1 } } : State).keepsCore s.newIncarnation := by
  have hcount := s.newIncarnation_objs (k := 0x110004) (by decide)
  constructor
  case warmCount => exact hcount
  case groups => exact fun h => by rw [State.newIncarnation_frame]; exact h
  case play => exact fun h => by rw [State.newIncarnation_frame]; exact h
  all_goals rw [State.newIncarnation_frame]

theorem State.withSync_keepsCore (s : State) (x : Sync) : s.keepsCore { s with sync := x } := { dev := rfl }

theorem State.dropVolatile_keepsCore (s : State) : s.keepsCore s.dropVolatile :=
  have hcount : Tbl.get none s.dropVolatile.objs 0x110004 = Tbl.get none s.objs 0x110004 :=
    (Tbl.get_set_ne none (Tbl.set none s.objs 0x200581 none) (k := 0x480080) none (by decide)).trans
      (Tbl.get_set_ne none s.objs none (by decide))
  { warmCount := hcount }

theorem State.beginWarm_keepsCore (s : State) (scope cause detail : Nat) (dev : DevState) :
    (s.warmCore scope cause detail dev).keepsCore (s.beginWarm scope cause detail dev) := by
  unfold State.beginWarm
  extract_lets s1 s2 sync2 s3 s4 es inCd inPkg host sync memory time rel fw clk boot sec maint s5 s6
  have h1 := State.newIncarnation_keepsCore (s.noteReset scope cause detail)
  have h2 : s1.keepsCore s2 :=
    ((State.abandonAll_keepsCore _ _).trans (State.endRestores_keepsCore _)).trans (State.destroyAll_keepsCore _)
  have h3 : s2.keepsCore s3 := by
    unfold s3
    split
    · exact s2.withSync_keepsCore _
    · exact s2.keepsCore_refl
  have h4 : s3.keepsCore s4 := State.foldl_keepsCore (fun s n => s.clearObjects_keepsCore n) _ _
  have hcore := ((h1.trans h2).trans h3).trans h4
  obtain ⟨p, hp⟩ : ∃ p, s6 = { s5 with power := p } :=
    ⟨_, State.stepRails_frame (fun s c => s.railTarget c 8) (List.range 8) s5⟩
  clear_value s6
  refine State.keepsCore.trans ?_ (State.setDev_keepsCore _ dev)
  refine State.keepsCore.trans ?_ (State.dropVolatile_keepsCore { s6 with dev := dev })
  rw [hp]
  obtain ⟨-, hboot, htime, hclk, hinc, hjournal, hrec, hfaulty, hcount, -, -⟩ := hcore
  clear_value s4
  exact {
    dev := rfl
    boot := by
      simp [s5, boot, hboot]
      rfl
    time := by simp [s5, time, htime]; rfl
    clk := by simp [s5, clk, hclk]; rfl
    pkgInc := hinc
    journal := hjournal
    recovered := hrec
    faulty := hfaulty
    warmCount := hcount
    groups := fun _ => rfl
    play := fun _ => rfl }

/-! ## Warm resets and device recoveries end (15, R455, Table 15-12; 18, Table 18-7) -/

theorem State.markSpares_clean {s : State} (h : s.links.faulty = []) : s.markSpares = s := by
  simp [State.markSpares, h]

/-- A pass whose every step gives back what it was given ends where it began. -/
theorem foldl_eq_of_fixed {α β : Type} {f : α → β → α} {a : α} (hf : ∀ b, f a b = a) (l : List β) : l.foldl f a = a := by
  induction l with
  | nil => rfl
  | cons b l ih => rw [List.foldl_cons, hf b, ih]

theorem State.assignSpares_clean {s : State} (h : s.links.faulty = []) : s.assignSpares = (s, true) := by
  unfold State.assignSpares
  refine foldl_eq_of_fixed (fun w => ?_) _
  rw [h, List.filter_nil, List.foldl_nil]

/-- With no faulty wire every link trains (10, R305, Table 10-5). -/
theorem State.trainLinks_clean {s : State} (h : s.links.faulty = []) : ∃ t, s.trainLinks = (t, true) ∧ s.keepsCore t := by
  unfold State.trainLinks
  extract_lets t
  have ht : (t.setObj 0x620103 0).links.faulty = [] := h
  refine ⟨t.setObj 0x620103 0, ?_, ?_⟩
  · rw [State.markSpares_clean ht, State.assignSpares_clean ht]
  · refine State.keepsCore.trans ?_ (t.setObj_keepsCore (k := 0x620103) 0 (by decide))
    exact { dev := rfl }

theorem State.resumeJournal_idle {s : State} (h : s.maint.journal.kind = 0) (staged : Option ImageFacts) :
    s.resumeJournal staged = (s, true) := by
  simp [State.resumeJournal, h]

theorem State.stepRail_keepsCore (s : State) (r mv : Nat) : s.keepsCore (s.stepRail r mv) := {}

theorem State.raiseRails_keepsCore (s : State) : s.keepsCore s.raiseRails := by
  refine State.foldl_keepsCore (fun s c => ?_) cds s
  dsimp only
  split
  · exact s.stepRail_keepsCore _ _
  · exact s.keepsCore_refl

theorem State.setClk_keepsCore (s : State) (f : Clk → Clk) : ({ s with clk := f s.clk } : State).keepsCore (s.setClk f) := by
  unfold State.setClk
  dsimp only
  split
  · exact State.raiseRails_keepsCore _
  · exact State.keepsCore_refl _

/-- LIVE is entered: nothing else of the core changes but the divider that the ledger asks for (15, Table 15-9 step 14). -/
theorem State.goLive_keepsCore (s : State) : ∃ d, ({ s with
    dev := .live, boot := { s.boot with beenLive := true }, clk := { s.clk with ledger := d } } : State).keepsCore s.goLive := by
  refine ⟨dividers.getD (s.free.1.toNat % 4) 8, State.keepsCore.trans ?_ (State.setDev_keepsCore _ .live)⟩
  refine State.keepsCore.trans ?_ ((State.setClk_keepsCore _ _).withDev .live)
  exact {}

theorem State.tellRestart_keepsCore (s : State) : s.keepsCore s.tellRestart :=
  State.foldl_keepsCore (fun s f => s.notice_keepsCore f _ _ _) _ s

/-- A warm reset or device recovery that ends is counted, by its scope (15, R439; 18, R524). -/
def State.countWarm (s : State) : State :=
  if s.boot.scope = 3 then
    ({ s with maint := { s.maint with recovered := s.maint.recovered ++ [s.now] } }).bump 0x601001 32
  else s.bump 0x110004 32

theorem State.keepsCore.countWarm {s t : State} (h : s.keepsCore t) : s.countWarm.keepsCore t.countWarm := by
  have hnow := h.now
  have hscope : t.boot.scope = s.boot.scope := by rw [h.boot]
  obtain ⟨hdev, hboot, htime, hclk, hinc, hjournal, hrec, hfaulty, hcount, hgroups, hplay⟩ := h
  unfold State.countWarm
  by_cases h3 : s.boot.scope = 3
  · rw [if_pos h3, if_pos (hscope.trans h3)]
    have hlist : t.maint.recovered ++ [t.now] = s.maint.recovered ++ [s.now] := by rw [hrec, hnow]
    exact ⟨hdev, hboot, htime, hclk, hinc, hjournal, hlist, hfaulty, by simpa [State.bump_objs_ne] using hcount, hgroups, hplay⟩
  · rw [if_neg h3, if_neg (hscope ▸ h3)]
    refine ⟨hdev, hboot, htime, hclk, hinc, hjournal, hrec, hfaulty, ?_, hgroups, hplay⟩
    simp [State.bump, State.setObj, State.obj, hcount]

/-- The reset is no longer held, and waits for nothing. -/
def State.unheld (s : State) : State := { s with boot := { s.boot with held := none, waiting := false } }

theorem State.keepsCore.unheld {s t : State} (h : s.keepsCore t) : s.unheld.keepsCore t.unheld :=
  { h with boot := by simp only [State.unheld, h.boot] }

/-- The core of a state that has entered LIVE with a divider in the ledger. -/
def State.asLive (s : State) (d : Nat) : State :=
  { s with dev := .live, boot := { s.boot with beenLive := true }, clk := { s.clk with ledger := d } }

theorem State.keepsCore.asLive {s t : State} (h : s.keepsCore t) (d : Nat) : (s.asLive d).keepsCore (t.asLive d) :=
  { h with dev := rfl, boot := by simp only [State.asLive, h.boot], clk := by simp only [State.asLive, h.clk] }

/-- The package runs the image that it was reset with and no link has failed: the reset ends in LIVE (15, R455). -/
theorem State.endWarm_live {s : State} {f : ImageFacts} (hcode : s.boot.code = some f) (hdigest : s.boot.digest = some f.digest)
    (hkind : s.maint.journal.kind = 0) (hfaulty : s.links.faulty = []) (staged : Option ImageFacts) :
    ∃ d, (s.unheld.countWarm.asLive d).keepsCore (s.endWarm staged false) := by
  obtain ⟨v, hv, htrain⟩ := State.trainLinks_clean (s := s.unheld) hfaulty
  have hready : s.unheld.keepsCore v.parkAll.remap := (htrain.trans v.parkAll_keepsCore).trans (State.remap_keepsCore _)
  have hend : s.endWarm staged false = v.parkAll.remap.countWarm.goLive.tellRestart := by
    unfold State.endWarm
    extract_lets boot s1 same
    have hsame : same = true := by simp [same, s1, boot, hcode, hdigest]
    rw [State.resumeJournal_idle (s := s1) hkind, hsame]
    dsimp only
    rw [show s1.trainLinks = (v, true) from hv]
    rfl
  obtain ⟨d, hlive⟩ := v.parkAll.remap.countWarm.goLive_keepsCore
  rw [hend]
  exact ⟨d, ((hready.countWarm.asLive d).trans hlive).trans (State.tellRestart_keepsCore _)⟩

/-- A warm reset or device recovery from beginning to end, of a package whose image and links stand. -/
theorem State.beginWarm_endWarm_live {s : State} {f : ImageFacts} (hcode : s.boot.code = some f)
    (hdigest : s.boot.digest = some f.digest) (hkind : s.maint.journal.kind = 0) (hfaulty : s.links.faulty = [])
    (scope cause detail : Nat) (dev : DevState) (staged : Option ImageFacts) :
    ∃ d, ((s.warmCore scope cause detail dev).unheld.countWarm.asLive d).keepsCore
      ((s.beginWarm scope cause detail dev).endWarm staged false) := by
  have hbegin := s.beginWarm_keepsCore scope cause detail dev
  obtain ⟨d, hend⟩ := State.endWarm_live (s := s.beginWarm scope cause detail dev) (f := f) (by rw [hbegin.boot]; exact hcode)
    (by rw [hbegin.boot]; exact hdigest) (by rw [hbegin.journal]; exact hkind) (by rw [hbegin.faulty]; exact hfaulty) staged
  exact ⟨d, (hbegin.unheld.countWarm.asLive d).trans hend⟩

end Sys2Proof.Machine
end

section
/-! SUPPORT. The statement on the sources of a reset (15, R434 to R439, R442; 18, R522 to R524; 20, R572, R579, R581). -/

namespace Sys2Proof.Machine

/-! ## Power and supplies (15, R434; 20, R572) -/

/-- While a rail is not good the package stays as it is (20, R572). -/
theorem State.railsUp_waits {s : State} (h : s.power.good ≠ 0x7FFFF) : s.railsUp = s := by
  unfold State.railsUp
  rw [if_neg]
  intro hup
  simp only [Bool.and_eq_true, decide_eq_true_eq] at hup
  obtain ⟨⟨⟨-, hgood⟩, -⟩, -⟩ := hup
  exact h hgood

/-- POWER_ON leaves what outlives the loss of VDD_KEEP, with the cause power-on (15, R434, R439). -/
theorem execPowerOn_waits {s : State} (h : s.power.good ||| (1 <<< 10) ≠ 0x7FFFF) :
    execPowerOn s = .next { s.unpowered with
      boot := { s.unpowered.boot with cause := 1, scope := 4, told := 4 }, fw := { pkgInc := 1 }
      power := { s.unpowered.power with good := s.power.good ||| (1 <<< 10) } } := by
  unfold execPowerOn
  dsimp only
  rw [State.railsUp_waits h]
  rfl

/-- A rail has failed. -/
def State.railLost (s : State) (rail : Nat) : State :=
  { s with power := { s.power with good := s.power.good &&& ~~~((1 : BitVec 19) <<< rail) } }

/-- A supply fault of a monitored rail other than VDD_KEEP, of a package that is up, is a cold reset (15, Table 15-2). -/
theorem execSupplyFault_cold {s : State} {rail : Nat} (hrail : rail < 19) (hkeep : rail ≠ 10) (hmon : s.monitored rail = true)
    (hdev : s.dev ≠ .cold) :
    execSupplyFault rail s = .next ((((s.railLost rail).noteReset 4 2 0).coldState .cold).bump 0x110005 32) := by
  simp [execSupplyFault, State.railLost, hmon, hkeep, hdev, show ¬ 19 ≤ rail by omega]

theorem execSupplyFault_ignored {s : State} {rail : Nat} (h : 19 ≤ rail ∨ s.monitored rail = false) :
    execSupplyFault rail s = .next s := by
  unfold execSupplyFault
  rw [if_pos (by simpa using h)]

theorem State.railLost_good (s : State) {rail : Nat} (hrail : rail < 19) : (s.railLost rail).power.good.getLsbD rail = false := by
  simp [State.railLost, hrail]

/-! ## The pins (15, R436, Table 15-2; 20, R579) -/

/-- RESET_N is low. -/
def State.resetPinLow (s : State) : State := { s with boot := { s.boot with resetLow := true } }

/-- PERST_N is low. -/
def State.perstPinLow (s : State) : State := { s with boot := { s.boot with perstLow := true } }

/-- The host's link is down. -/
def State.linkDown (s : State) : State := { s with host := { s.host with linkUp := false } }

theorem execResetNAssert_eq (s : State) :
    execResetNAssert s = .next (s.resetPinLow.runReset (if s.resetNAction = 1 then 2 else 4) 3 true) := rfl

theorem execPerstNAssert_eq (s : State) :
    execPerstNAssert s = .next (s.perstPinLow.runReset (s.perstAction + 1 + b2n (s.perstAction == 2)) 4).linkDown := rfl

theorem execPcieLinkDown_ignored {s : State} (h : s.boot.perstLow = true ∨ s.linkdownAction = 1) : execPcieLinkDown s = .next s := by
  unfold execPcieLinkDown
  rw [if_pos (by obtain h | h := h <;> simp [h])]

theorem execPcieLinkDown_resets {s : State} (hpin : s.boot.perstLow = false) (hact : s.linkdownAction = 0) (hup : s.host.linkUp = true) :
    execPcieLinkDown s = .next (s.runReset 1 5) := by
  simp [execPcieLinkDown, hpin, hact, hup]

/-! ## Warm resets (15, R437, R455) -/

/-- Before the first LIVE a warm reset runs as a cold reset (15, R437). -/
theorem State.warmReset_early {s : State} (h : s.boot.beenLive = false) (cause : Nat) :
    s.warmReset cause false = (s.beginCold cause 0).bringUp := by
  simp [State.warmReset, h]

theorem State.warmReset_early_held {s : State} (h : s.boot.beenLive = false) (cause : Nat) :
    s.warmReset cause true = (s.beginCold cause 0).heldAt 4 cause := by
  simp [State.warmReset, h, State.heldAt]

theorem State.warmReset_whole {s : State} (h : s.boot.beenLive = true) (hdev : s.dev ≠ .folded) (cause : Nat) :
    s.warmReset cause false = (s.beginWarm 2 cause 0 .rom).endWarm s.mgmt.staged false := by
  have hfolded : (s.dev == .folded) = false := beq_false_of_ne hdev
  simp [State.warmReset, h, hfolded]

theorem State.warmReset_held {s : State} (h : s.boot.beenLive = true) (hdev : s.dev ≠ .folded) (cause : Nat) :
    ∃ m, s.warmReset cause true = ({ s.beginWarm 2 cause 0 .rom with mgmt := m } : State).heldAt 2 cause := by
  simp [State.warmReset, h, hdev, State.heldAt]

theorem State.countWarm_warm {s : State} (h : s.boot.scope ≠ 3) : s.countWarm = s.bump 0x110004 32 := if_neg h

theorem State.countWarm_recovery {s : State} (h : s.boot.scope = 3) :
    s.countWarm = ({ s with maint := { s.maint with recovered := s.maint.recovered ++ [s.now] } }).bump 0x601001 32 := if_pos h

/-- A warm reset of a package that has been LIVE, whose image and links stand, ends in LIVE (15, R437, R455, Table 15-12). -/
theorem State.warmReset_live {s : State} {f : ImageFacts} (hlive : s.boot.beenLive = true) (hdev : s.dev ≠ .folded)
    (hcode : s.boot.code = some f) (hdigest : s.boot.digest = some f.digest) (hkind : s.maint.journal.kind = 0)
    (hfaulty : s.links.faulty = []) (cause : Nat) :
    ∃ d, (((s.warmCore 2 cause 0 .rom).unheld.bump 0x110004 32).asLive d).keepsCore (s.warmReset cause false) := by
  have h := State.beginWarm_endWarm_live hcode hdigest hkind hfaulty 2 cause 0 .rom s.mgmt.staged
  rwa [State.countWarm_warm (show (s.warmCore 2 cause 0 .rom).unheld.boot.scope ≠ 3 by simp [State.warmCore, State.unheld]),
    ← State.warmReset_whole hlive hdev] at h

/-- A device recovery that does not wait for the crystal, of a package whose image and links stand, ends in LIVE and is noted with its time
(18, R522 to R524). -/
theorem State.recover_live {s : State} {f : ImageFacts} {reason : Nat} (hfew : s.recentRecoveries < 3) (hreason : reason ≠ 2)
    (hcode : s.boot.code = some f) (hdigest : s.boot.digest = some f.digest) (hkind : s.maint.journal.kind = 0)
    (hfaulty : s.links.faulty = []) (cause : Nat) :
    ∃ u d, s.keepsCore u ∧ ((({ (u.warmCore 3 cause reason .recovering).unheld with maint := { u.maint with
      recovered := u.maint.recovered ++ [u.now] } } : State).bump 0x601001 32).asLive d).keepsCore (s.recover reason cause) := by
  unfold State.recover
  extract_lets maint s1 u staged t
  have hmaint : s.keepsCore s1 := { dev := rfl }
  have hu : s.keepsCore u := (hmaint.trans (s1.setObj_keepsCore reason (by decide))).trans (State.report_keepsCore _ _ _ _ _ _ _ _ _)
  rw [if_neg (show ¬ 3 ≤ s1.recentRecoveries from Nat.not_le.mpr hfew), if_neg hreason]
  obtain ⟨d, h⟩ := State.beginWarm_endWarm_live (s := u) (f := f) (by rw [hu.boot]; exact hcode) (by rw [hu.boot]; exact hdigest)
    (by rw [hu.journal]; exact hkind) (by rw [hu.faulty]; exact hfaulty) 3 cause reason .recovering staged
  refine ⟨u, d, hu, ?_⟩
  rwa [State.countWarm_recovery rfl] at h

theorem State.recover_folds {s : State} (hmany : 3 ≤ s.recentRecoveries) (hdev : s.dev ≠ .folded) (reason cause : Nat) :
    (s.recover reason cause).dev = .folded ∧ (s.recover reason cause).obj 0x601003 0 = 4 := by
  unfold State.recover
  extract_lets maint s1 u staged t
  rw [if_pos (show 3 ≤ s1.recentRecoveries from hmany)]
  exact State.foldPackage_folded (s := s1) hdev 4

/-! ## Reset commands (15, R435) -/

/-- An object of the dictionary that acts, written in LIVE by an expert session of a network or MCTP channel (17, R491). -/
theorem State.objAct_expertOn {s t : State} {ch : Channel} {index sub : Nat} {act : State → State × Status × Nat} {st : Status}
    (h : s.expertOn ch index) (hch : ∀ f, ch ≠ .mailbox f) (hact : act s = (t, st, 0)) (hst : st ≠ .conflict) :
    s.objAct ch index sub act = t.emit (.kdp ch 4 st 0 []) := by
  obtain ⟨hlive, hreach, x, hx, hexp⟩ := h
  have hoff : s.dictOff = false := by simp [State.dictOff, hlive]
  have hgate : s.stateGate index sub true = none := by simp [State.stateGate, hlive]
  have hses : s.anySession ch = some x := by
    cases ch with
    | mailbox f => exact absurd rfl (hch f)
    | net p => exact hx
    | mctp a b c => exact hx
  simp [State.objAct, hoff, hses, hgate, hreach, hexp, hact, State.hinted, hst]

theorem State.resetCommand_objAct {s : State} {ch : Channel} (hch : ∀ f, ch ≠ .mailbox f) (seq : Half) (v : Nat) :
    s.resetCommand ch seq v = s.objAct ch 0x1100 0x80 fun s => s.askReset ch v := by
  cases ch with
  | mailbox f => exact absurd rfl (hch f)
  | net p => rfl
  | mctp a b c => rfl

theorem State.askReset_taken {s : State} {ch : Channel} {v : Nat} (hv : v = 1 ∨ v = 2) (hmask : bit s.cmdResetMask (resetSource ch).1 = true)
    (hfree : s.boot.delayed = none) :
    s.askReset ch v = ({ s with boot := { s.boot with delayed := some (2 * v, (resetSource ch).2, true) } }, .ok, 0) := by
  simp [State.askReset, hmask, State.delayReset, hfree]
  omega

theorem State.askReset_masked {s : State} {ch : Channel} {v : Nat} (hv : v = 1 ∨ v = 2)
    (hmask : bit s.cmdResetMask (resetSource ch).1 = false) : s.askReset ch v = (s, .noAccess, 0) := by
  simp [State.askReset, hmask]
  omega

/-- A reset command that cmd_reset_mask lets through: the reset begins 1 ms after its reply (15, R435). -/
theorem State.resetCommand_taken {s : State} {ch : Channel} {v : Nat} (hexp : s.expertOn ch 0x1100) (hch : ∀ f, ch ≠ .mailbox f) (seq : Half)
    (hv : v = 1 ∨ v = 2) (hmask : bit s.cmdResetMask (resetSource ch).1 = true) (hfree : s.boot.delayed = none) :
    s.resetCommand ch seq v = { s with boot := { s.boot with delayed := some (2 * v, (resetSource ch).2, true) }
                                       out := .kdp ch 4 .ok 0 [] :: s.out } := by
  rw [State.resetCommand_objAct hch, State.objAct_expertOn hexp hch (State.askReset_taken hv hmask hfree) (by decide)]
  rfl

theorem State.resetCommand_masked {s : State} {ch : Channel} {v : Nat} (hexp : s.expertOn ch 0x1100) (hch : ∀ f, ch ≠ .mailbox f) (seq : Half)
    (hv : v = 1 ∨ v = 2) (hmask : bit s.cmdResetMask (resetSource ch).1 = false) :
    s.resetCommand ch seq v = { s with out := .kdp ch 4 .noAccess 0 [] :: s.out } := by
  rw [State.resetCommand_objAct hch, State.objAct_expertOn hexp hch (State.askReset_masked hv hmask) (by decide)]
  rfl

theorem State.dev_ne_options_of_ohmegRuns {s : State} (h : s.ohmegRuns = true) : s.dev ≠ .options := by
  intro hdev
  simp [State.ohmegRuns, hdev] at h

/-! ## The fused values (19, R547) -/

theorem Sec.row_congr {x y : Sec} (ha : x.rowA = y.rowA) (hb : x.rowB = y.rowB) (hc : x.rowC = y.rowC) : x.row = y.row := by
  simp only [Sec.row, ha, hb, hc]

theorem Sec.svn_congr {x y : Sec} (ha : x.rowA = y.rowA) (hb : x.rowB = y.rowB) (hc : x.rowC = y.rowC) : x.svn = y.svn := by
  simp only [Sec.svn, Sec.row_congr ha hb hc]

theorem Sec.revoked_congr {x y : Sec} (ha : x.rowA = y.rowA) (hb : x.rowB = y.rowB) (hc : x.rowC = y.rowC) : x.revoked = y.revoked := by
  simp only [Sec.revoked, Sec.row_congr ha hb hc]

/-! ## What each source leaves -/

/-- A supply fault leaves the package COLD, with its cause, and counted (15, R434, R439). -/
theorem execSupplyFault_leaves {s : State} {rail : Nat} (hrail : rail < 19) (hkeep : rail ≠ 10) (hmon : s.monitored rail = true)
    (hdev : s.dev ≠ .cold) : ∃ t, execSupplyFault rail s = .next t ∧ t.dev = .cold
      ∧ t.boot.cause = 0x02 ∧ t.boot.scope = 4 ∧ t.boot.seq = s.boot.seq + 1 ∧ t.boot.time = s.now ∧ t.fw.pkgInc = s.fw.pkgInc + 1
      ∧ t.power.good.getLsbD rail = false ∧ t.seats = [] ∧ t.memory = {} ∧ t.groups = []
      ∧ t.obj 0x110005 0 = min (s.obj 0x110005 0 + 1) (2 ^ 32 - 1) := by
  have hexec := execSupplyFault_cold hrail hkeep hmon hdev
  have hcold := ((s.railLost rail).noteReset 4 2 0).coldState_coldFrom .cold
  have hlost := s.railLost_good hrail
  generalize ((s.railLost rail).noteReset 4 2 0).coldState .cold = u at hexec hcold
  refine ⟨_, hexec, ?_⟩
  have hcount : u.obj 0x110005 0 = s.obj 0x110005 0 := by
    simp only [State.obj, hcold.coldCount]
    rfl
  simp [hcold.dev, hcold.boot, hcold.fw, hcold.good, hcold.seats, hcold.memory, hcold.groups, State.obj_bump, hcount, maxOf, State.noteReset,
    hlost]
  exact ⟨rfl, rfl, rfl⟩

/-- RESET_N with reset_n_action cold: a cold reset, held at its first step (15, Table 15-2; 20, R579). -/
theorem execResetNAssert_holdsCold {s : State} (hdev : s.dev ≠ .options) (hidle : s.resetting = none) (hact : s.resetNAction ≠ 1) :
    ∃ t, execResetNAssert s = .next t ∧ t.dev = .options ∧ t.boot.resetLow = true
      ∧ t.boot.held = some (4, 3) ∧ t.boot.cause = 0x03 ∧ t.boot.scope = 4 ∧ t.memory = {} ∧ t.seats = [] := by
  have hexec : execResetNAssert s = .next ((s.resetPinLow.beginCold 3 0).heldAt 4 3) := by
    rw [execResetNAssert_eq, if_neg hact, State.runReset_cold_held (s := s.resetPinLow) hdev hidle]
  have hboot := s.resetPinLow.beginCold_boot 3 0
  obtain ⟨hoptions, hseats, hmem, -⟩ := s.resetPinLow.beginCold_leaves 3 0
  generalize s.resetPinLow.beginCold 3 0 = u at hexec hboot hoptions hseats hmem
  refine ⟨_, hexec, hoptions, ?_, rfl, ?_, ?_, hmem, hseats⟩
  all_goals simp only [State.heldAt, hboot]
  rfl

/-- RESET_N with reset_n_action warm: a warm reset, held at its first part (15, R437, Table 15-2; 20, R579). -/
theorem execResetNAssert_holdsWarm {s : State} (hdev : s.dev ≠ .options) (hidle : s.resetting = none) (hact : s.resetNAction = 1)
    (hlive : s.boot.beenLive = true) (hfold : s.dev ≠ .folded) : ∃ t, execResetNAssert s = .next t
      ∧ t.dev = .rom ∧ t.boot.resetLow = true ∧ t.boot.held = some (2, 3) ∧ t.boot.cause = 0x03 ∧ t.boot.scope = 2 ∧ t.play = none := by
  obtain ⟨m, hm⟩ := State.warmReset_held (s := s.resetPinLow) hlive hfold 3
  have hexec : execResetNAssert s
      = .next (({ s.resetPinLow.beginWarm 2 3 0 .rom with mgmt := m } : State).heldAt 2 3) := by
    rw [execResetNAssert_eq, if_pos hact, State.runReset_warm (s := s.resetPinLow) hdev hidle, hm]
  have hbegin := s.resetPinLow.beginWarm_keepsCore 2 3 0 .rom
  generalize s.resetPinLow.beginWarm 2 3 0 .rom = u at hexec hbegin
  refine ⟨_, hexec, hbegin.dev, ?_, rfl, ?_, ?_, hbegin.play rfl⟩
  all_goals simp only [State.heldAt, hbegin.boot]
  all_goals rfl

/-- In OPTIONS RESET_N notes its cause and starts the loading over (15, R450). -/
theorem execResetNAssert_options {s : State} (hdev : s.dev = .options) :
    ∃ t, execResetNAssert s = .next t ∧ t.boot.cause = 0x03 ∧ t.boot.scope = 4 ∧ t.boot.seq = s.boot.seq + 1
      ∧ t.boot.held = s.boot.held ∧ t = { s with boot := t.boot } := by
  have hscope : (if (if s.resetNAction = 1 then 2 else 4) = 2 then 4 else (if s.resetNAction = 1 then 2 else 4)) = 4 := by
    split <;> decide
  have hexec : execResetNAssert s = .next (s.resetPinLow.noteReset 4 3 0) := by
    rw [execResetNAssert_eq, State.runReset_options (s := s.resetPinLow) hdev, hscope]
  exact ⟨_, hexec, rfl, rfl, rfl, rfl, rfl⟩

/-- The release of RESET_N lets a held cold reset proceed: the options are loaded (20, R579). -/
theorem execResetNRelease_loads {s : State} {cause : Nat} (hheld : s.boot.held = some (4, cause)) :
    ∃ t, execResetNRelease s = .next t ∧ t.boot.held = none ∧ t.boot.resetLow = false ∧ t.boot.waiting = true := by
  have hboot := State.bringUp_loadedFrom { s with boot := { s.boot with resetLow := false } } |>.boot
  have hexec : execResetNRelease s = .next (State.bringUp { s with boot := { s.boot with resetLow := false } }) := by
    simp [execResetNRelease, hheld]
  generalize State.bringUp { s with boot := { s.boot with resetLow := false } } = u at hexec hboot
  exact ⟨u, hexec, by rw [hboot], by rw [hboot], by rw [hboot]⟩

/-- PERST_N with perst_action 0: a host-port reset, and the link stays down (15, R434, R436). -/
theorem execPerstNAssert_hostPort {s : State} (hdev : s.dev ≠ .options) (hidle : s.resetting = none) (hact : s.perstAction = 0) :
    ∃ t, execPerstNAssert s = .next t ∧ t.dev = s.dev ∧ t.boot.perstLow = true
      ∧ t.host.linkUp = false ∧ t.host.numVfs = 0 ∧ t.boot.cause = 0x04 ∧ t.boot.scope = 1 ∧ t.boot.seq = s.boot.seq + 1 := by
  have hexec : execPerstNAssert s = .next (s.perstPinLow.hostPortReset 4).linkDown := by
    rw [execPerstNAssert_eq, hact, ← State.runReset_hostPort (s := s.perstPinLow) hdev hidle]
    rfl
  obtain ⟨hdev', hboot, hvfs⟩ := s.perstPinLow.hostPortReset_hostPortFrom 4
  generalize s.perstPinLow.hostPortReset 4 = u at hexec hdev' hboot hvfs
  have hdown : u.linkDown.boot = u.boot := rfl
  refine ⟨_, hexec, hdev', ?_, rfl, hvfs, ?_, ?_, ?_⟩
  all_goals rw [hdown, hboot]
  all_goals rfl

/-- PERST_N with perst_action 2: a cold reset, and the link stays down (15, R436). -/
theorem execPerstNAssert_cold {s : State} (hdev : s.dev ≠ .options) (hidle : s.resetting = none) (hact : s.perstAction = 2) :
    ∃ t, execPerstNAssert s = .next t ∧ t.boot.perstLow = true ∧ t.host.linkUp = false
      ∧ t.boot.cause = 0x04 ∧ t.boot.scope = 4 ∧ t.seats = [] ∧ t.memory.mem = [] := by
  have hexec : execPerstNAssert s = .next (s.perstPinLow.beginCold 4 0).bringUp.linkDown := by
    rw [execPerstNAssert_eq, hact, ← State.runReset_cold (s := s.perstPinLow) hdev hidle]
    rfl
  have hstart := s.perstPinLow.bringUp_coldStarted 4
  have hboot := (s.perstPinLow.beginCold 4 0).bringUp_loadedFrom.boot
  rw [State.beginCold_boot] at hboot
  generalize (s.perstPinLow.beginCold 4 0).bringUp = u at hexec hstart hboot
  have hpin : u.boot.perstLow = true := by rw [hboot]; rfl
  exact ⟨_, hexec, hpin, rfl, hstart.cause, hstart.scope, hstart.seats, hstart.mem⟩

/-- The loss of the host's link: a host-port reset (15, Table 15-2). -/
theorem execPcieLinkDown_hostPort {s : State} (hdev : s.dev ≠ .options) (hpin : s.boot.perstLow = false) (hact : s.linkdownAction = 0)
    (hup : s.host.linkUp = true) (hidle : s.resetting = none) : ∃ t, execPcieLinkDown s = .next t
      ∧ t.dev = s.dev ∧ t.boot.cause = 0x05 ∧ t.boot.scope = 1 ∧ t.host.numVfs = 0 := by
  have hexec : execPcieLinkDown s = .next (s.hostPortReset 5) := by
    rw [execPcieLinkDown_resets hpin hact hup, State.runReset_hostPort hdev hidle]
  obtain ⟨hdev', hboot, hvfs⟩ := s.hostPortReset_hostPortFrom 5
  generalize s.hostPortReset 5 = u at hexec hdev' hboot hvfs
  exact ⟨u, hexec, hdev', by rw [hboot], by rw [hboot], hvfs⟩

/-- The delay of an accepted cold reset command has passed (15, R435). -/
theorem execResetDelayExpiry_cold {s : State} {cause : Nat} (hdev : s.dev ≠ .options) (hdelay : s.boot.delayed = some (4, cause, true))
    (hidle : s.resetting = none) : ∃ t, execResetDelayExpiry s = .next t ∧ t.coldStarted cause :=
  ⟨_, by simp [execResetDelayExpiry, hdelay],
    State.runReset_coldStarted (s := { s with boot := { s.boot with delayed := none } }) hdev hidle cause⟩

/-- OHM-REL's warm reset of a package that has been LIVE, whose image and links stand (15, R437, R455). -/
theorem execPwrResetReqWarm_live {s : State} {f : ImageFacts} (hruns : s.ohmegRuns = true) (hfold : s.dev ≠ .folded)
    (hidle : s.resetting = none) (hlive : s.boot.beenLive = true) (hcode : s.boot.code = some f) (hdigest : s.boot.digest = some f.digest)
    (hkind : s.maint.journal.kind = 0) (hfaulty : s.links.faulty = []) :
    ∃ t, execPwrResetReqWarm s = .next t ∧ t.dev = .live ∧ t.boot.cause = 0x0B ∧ t.boot.scope = 2 ∧ t.boot.seq = s.boot.seq + 1
      ∧ t.fw.pkgInc = s.fw.pkgInc + 1 ∧ t.play = none ∧ t.groups = [] ∧ t.clk.div = 8 ∧ t.boot.code = some f
      ∧ t.obj 0x110004 0 = min (s.obj 0x110004 0 + 1) (2 ^ 32 - 1) := by
  have hexec : execPwrResetReqWarm s = .next (s.warmReset 0x0B false) := by
    rw [execPwrResetReqWarm, if_pos hruns, State.runReset_warm (State.dev_ne_options_of_ohmegRuns hruns) hidle]
  obtain ⟨d, h⟩ := State.warmReset_live hlive hfold hcode hdigest hkind hfaulty 0x0B
  generalize s.warmReset 0x0B false = t at hexec h
  refine ⟨t, hexec, h.dev, ?_, ?_, ?_, h.pkgInc, h.play rfl, h.groups rfl, ?_, ?_, ?_⟩
  case refine_5 => rw [h.boot]; exact hcode
  case refine_6 => exact (h.obj 0).trans (by exact State.obj_bump (s.warmCore 2 0x0B 0 .rom).unheld 0x110004 32 1 0x110004 0)
  case refine_4 => rw [h.clk]; rfl
  all_goals rw [h.boot]; rfl

/-- OHM-REL's device recovery (18, R522, R523). -/
theorem execPwrResetReqRecovery_live {s : State} {f : ImageFacts} {reason : Nat} (hdev : s.dev = .live) (hlo : 1 ≤ reason) (hhi : reason ≤ 5)
    (hclock : reason ≠ 2) (hidle : s.resetting = none) (hfew : s.recentRecoveries < 3) (hcode : s.boot.code = some f)
    (hdigest : s.boot.digest = some f.digest) (hkind : s.maint.journal.kind = 0) (hfaulty : s.links.faulty = []) :
    ∃ t, execPwrResetReqRecovery reason s = .next t ∧ t.dev = .live ∧ t.boot.cause = 0x0C ∧ t.boot.scope = 3
      ∧ t.boot.detail = reason ∧ t.fw.pkgInc = s.fw.pkgInc + 1 ∧ t.play = none ∧ t.groups = []
      ∧ t.maint.recovered = s.maint.recovered ++ [s.now] := by
  have hexec : execPwrResetReqRecovery reason s = .next (s.recover reason 0x0C) := by
    simp [execPwrResetReqRecovery, hdev, hlo, hhi, hidle]
  obtain ⟨u, d, hu, h⟩ := State.recover_live hfew hclock hcode hdigest hkind hfaulty 0x0C
  generalize s.recover reason 0x0C = t at hexec h
  refine ⟨t, hexec, h.dev, ?_, ?_, ?_, ?_, h.play rfl, h.groups rfl, ?_⟩
  case refine_4 => rw [h.pkgInc, ← hu.pkgInc]; rfl
  case refine_5 => rw [h.recovered, ← hu.recovered, ← hu.now]; rfl
  all_goals rw [h.boot]; rfl

/-- Settles O50. Each source's case is its own lemma: it runs at its width where no reset is in progress, and what a cold reset, a host-port
reset, a warm reset or a recovery leaves is said once for all sources. -/
theorem resetSourcesAct : Obligations.ResetSourcesAct := by
  unfold Obligations.ResetSourcesAct
  intro s
  simp only [exec_powerOn, exec_supplyFault, exec_resetNAssert, exec_resetNRelease, exec_perstNAssert, exec_perstNRelease, exec_pcieLinkDown,
    exec_resetRequestWarm, exec_resetRequestCold, exec_resetDelayExpiry, exec_pwrResetReqWarm, exec_pwrResetReqCold,
    exec_pwrResetReqRecovery, exec_jtagReset, exec_thermtrip]
  refine ⟨fun hgood => ?powerOn, fun rail => ⟨execSupplyFault_leaves, execSupplyFault_ignored⟩, execResetNAssert_holdsCold,
    execResetNAssert_holdsWarm, execResetNAssert_options, fun hdev hbusy => ?absorbed, fun hheld => ?free,
    fun cause => execResetNRelease_loads, execPerstNAssert_hostPort, execPerstNAssert_cold, rfl, execPcieLinkDown_hostPort,
    execPcieLinkDown_ignored, fun ch seq hexp hch => ⟨fun hmask hfree => ⟨?takenWarm, ?takenCold⟩, fun hmask => ⟨?maskedWarm, ?maskedCold⟩⟩,
    fun hnone => ?noDelay, fun cause hdev hdelay hidle => ?delay,
    fun f hruns hfold hidle hlive hcode hdigest hkind hfaulty =>
      ⟨execPwrResetReqWarm_live hruns hfold hidle hlive hcode hdigest hkind hfaulty,
        fun reason hdev hlo hhi hclock hfew =>
          execPwrResetReqRecovery_live hdev hlo hhi hclock hidle hfew hcode hdigest hkind hfaulty⟩,
    fun reason hdev hlo hhi hidle hmany => ?fold, fun hruns hidle => ?cold,
    fun hnever => ⟨fun cause hold => ?early, fun hruns hidle => ?earlyWarm⟩, fun hruns => ?noOhmeg,
    fun hlevel hdev hidle => ?jtag, fun hlevel => ?jtagLocked, fun temp => ⟨fun hhot htrip => ?tripped, fun hcool => ?cool⟩⟩
  case powerOn =>
    exact ⟨_, execPowerOn_waits hgood, rfl, rfl, rfl, rfl, rfl, rfl, rfl, rfl, rfl, rfl, rfl, rfl,
      Sec.svn_congr rfl rfl rfl, Sec.revoked_congr rfl rfl rfl⟩
  case absorbed =>
    rw [execResetNAssert_eq, State.runReset_absorbed (s := s.resetPinLow) hdev hbusy (by split <;> decide)]
    rfl
  case free => simp [execResetNRelease, hheld]
  case takenWarm => exact congrArg _ (State.resetCommand_taken hexp hch seq (.inl rfl) hmask hfree)
  case takenCold => exact congrArg _ (State.resetCommand_taken hexp hch seq (.inr rfl) hmask hfree)
  case maskedWarm => exact congrArg _ (State.resetCommand_masked hexp hch seq (.inl rfl) hmask)
  case maskedCold => exact congrArg _ (State.resetCommand_masked hexp hch seq (.inr rfl) hmask)
  case noDelay => simp [execResetDelayExpiry, hnone]
  case delay =>
    obtain ⟨t, ht, h⟩ := execResetDelayExpiry_cold hdev hdelay hidle
    exact ⟨t, ht, h.cause, h.scope, h.delayed, h.waiting, h.seats, h.mem⟩
  case fold =>
    have hexec : execPwrResetReqRecovery reason s = .next (s.recover reason 0x0C) := by
      simp [execPwrResetReqRecovery, hdev, hlo, hhi, hidle]
    exact ⟨_, hexec, State.recover_folds hmany (by simp [hdev]) reason 0x0C⟩
  case cold =>
    have h := State.runReset_coldStarted (State.dev_ne_options_of_ohmegRuns hruns) hidle 0x0B
    exact ⟨_, by rw [execPwrResetReqCold, if_pos hruns], h.cause, h.scope, h.waiting, h.seats, h.mem⟩
  case early =>
    cases hold with
    | true =>
      rw [State.warmReset_early_held hnever]
      simp [State.heldAt, State.beginCold_boot]
    | false =>
      rw [State.warmReset_early hnever]
      have h := s.bringUp_coldStarted cause
      exact ⟨h.scope, h.cause⟩
  case earlyWarm =>
    have h := s.bringUp_coldStarted 0x0B
    rw [← State.warmReset_early hnever, ← State.runReset_warm (State.dev_ne_options_of_ohmegRuns hruns) hidle] at h
    exact ⟨_, by rw [execPwrResetReqWarm, if_pos hruns], h.scope, h.cause, h.waiting, h.seats, h.mem⟩
  case noOhmeg => simp [execPwrResetReqWarm, execPwrResetReqCold, hruns]
  case jtag =>
    have h := State.runReset_coldStarted hdev hidle 0x0E
    exact ⟨_, by rw [execJtagReset, if_pos hlevel], h.cause, h.scope, h.waiting, h.level⟩
  case jtagLocked => rw [execJtagReset, if_neg hlevel]
  case tripped =>
    have hexec : execThermtrip temp s = .next s.stopped := by
      simp [execThermtrip, htrip, Int.not_lt.mpr hhot]
    exact ⟨_, hexec, rfl, rfl, rfl, rfl, rfl, rfl, rfl, rfl, rfl⟩
  case cool => simp [execThermtrip, hcool]

end Sys2Proof.Machine
end

section
/-! SUPPORT. Requests of the object dictionary (17, R487 to R503; 16, R465): the checks that a request passes, what each operation answers and
how its answer is held, how sessions close with their associations, and the OBJECT request of a mailbox. -/

namespace Sys2Proof.Machine

/-! ## Sessions and channels (17, R499) -/

theorem Session.isOpen_of_ne_mailbox {x : Session} (h : ∀ f, x.ch ≠ .mailbox f) : x.isOpen = true := by
  unfold Session.isOpen
  split
  · next f hch => exact absurd hch (h f)
  · rfl

theorem State.implicit_of_ne_mailbox {s : State} {ch : Channel} (h : ∀ f, ch ≠ .mailbox f) : s.implicit ch = s := by
  cases ch with
  | mailbox f => exact absurd rfl (h f)
  | net n => rfl
  | mctp b e x => rfl

/-- What `find?` gives for a channel and an identifier is a session of that channel with that identifier. -/
theorem Session.of_find? {l : List Session} {ch : Channel} {id : Quad} {x : Session}
    (h : l.find? (fun y => y.ch == ch && y.id == id) = some x) : x ∈ l ∧ x.ch = ch ∧ x.id = id := by
  have hp := List.find?_some h
  simp only [Bool.and_eq_true, beq_iff_eq] at hp
  obtain ⟨hch, hid⟩ := hp
  exact ⟨List.mem_of_find?_eq_some h, hch, hid⟩

theorem State.dictOff_of_live {s : State} (h : s.dev = .live) : s.dictOff = false := by
  simp [State.dictOff, h]

theorem State.stateGate_of_live {s : State} (h : s.dev = .live) (index sub : Nat) (w : Bool) : s.stateGate index sub w = none := by
  simp [State.stateGate, h]

/-- A change of sessions that keeps their channels and identifiers makes no session of another channel or identifier. -/
theorem State.mem_modSession {s : State} {ch : Channel} {id : Quad} {f : Session → Session} {y : Session}
    (hf : ∀ z, (f z).ch = z.ch ∧ (f z).id = z.id) (hy : y ∈ (s.modSession ch id f).kdp.sessions) :
    ∃ z ∈ s.kdp.sessions, z.ch = y.ch ∧ z.id = y.id := by
  obtain ⟨z, hz, rfl⟩ := List.mem_map.mp hy
  refine ⟨z, hz, ?_⟩
  split
  · exact ⟨(hf z).1.symm, (hf z).2.symm⟩
  · exact ⟨rfl, rfl⟩

/-- A session of the changed channel and identifier is a changed one. -/
theorem State.mem_modSession_self {s : State} {ch : Channel} {id : Quad} {f : Session → Session} {y : Session}
    (hy : y ∈ (s.modSession ch id f).kdp.sessions) (hch : y.ch = ch) (hid : y.id = id) : ∃ z ∈ s.kdp.sessions, y = f z := by
  obtain ⟨z, hz, rfl⟩ := List.mem_map.mp hy
  refine ⟨z, hz, ?_⟩
  split
  · rfl
  · next hne =>
    rw [if_neg hne] at hch hid
    exact absurd (by simp [hch, hid]) hne

/-! ## An answered request (17, R491, R503) -/

/-- From `s` to `t` output `o` is recorded, and sessions may differ. -/
def State.onlyAnswers (s t : State) (o : Output) : Prop :=
  t.out = o :: s.out ∧ t = { s with kdp := { s.kdp with sessions := t.kdp.sessions }, out := t.out }

/-- A change of sessions before the answer is none beside it. -/
theorem State.onlyAnswers.of_modSession {s t : State} {ch : Channel} {id : Quad} {f : Session → Session} {o : Output}
    (h : (s.modSession ch id f).onlyAnswers t o) : s.onlyAnswers t o := h

theorem State.emit_onlyAnswers (s : State) (o : Output) : s.onlyAnswers (s.emit o) o := ⟨rfl, rfl⟩

/-- Session `x` had a request of sequence `q` and operation `op` at time `now`, and holds its answer `r` (17, R499, R503). -/
def State.holdAnswer (s : State) (x : Session) (now : Word) (q : Half) (op : Nat) (r : KdpRes) : State :=
  (s.modSession x.ch x.id fun y => { y with last := now }).modSession x.ch x.id fun y =>
    { y with highest := some q, held := ((q, op, r.st, r.aux, r.data) :: y.held).take 32 }

theorem State.mem_holdAnswer {s : State} {x y : Session} {now : Word} {q : Half} {op : Nat} {r : KdpRes}
    (hy : y ∈ (s.holdAnswer x now q op r).kdp.sessions) : ∃ z ∈ s.kdp.sessions, z.ch = y.ch ∧ z.id = y.id := by
  unfold State.holdAnswer at hy
  obtain ⟨z, hz, hch, hid⟩ := State.mem_modSession (by exact fun _ => ⟨rfl, rfl⟩) hy
  obtain ⟨w, hw, hch', hid'⟩ := State.mem_modSession (by exact fun _ => ⟨rfl, rfl⟩) hz
  exact ⟨w, hw, hch'.trans hch, hid'.trans hid⟩

theorem State.asks.live {s : State} {ch : Channel} {m : KdpMsg} {x : Session} (h : s.asks ch m x) : s.dev = .live := by
  obtain ⟨hlive, -⟩ := h
  exact hlive

/-- The session of a new request. -/
theorem State.asks.session {s : State} {ch : Channel} {m : KdpMsg} {x : Session} (h : s.asks ch m x) :
    x ∈ s.kdp.sessions ∧ x.ch = ch ∧ x.id = m.session := by
  obtain ⟨-, -, -, -, hfind, -⟩ := h
  exact Session.of_find? hfind

theorem State.asks.ne_mailbox {s : State} {ch : Channel} {m : KdpMsg} {x : Session} (h : s.asks ch m x) (f : Func) :
    x.ch ≠ .mailbox f := by
  obtain ⟨-, hxch, -⟩ := h.session
  obtain ⟨-, -, -, hch, -⟩ := h
  rw [hxch]
  exact hch f

/-- A new request of an operation other than OPEN_SESSION is served by its operation, and the answer is held (17, R491, R503). -/
theorem State.asks.kdpRow {s t : State} {ch : Channel} {m : KdpMsg} {x : Session} {op : Nat} {r : KdpRes} (h : s.asks ch m x)
    (hop : op ≠ 1) (hserve : s.serveOp x op m = (t, r)) :
    s.kdpRow ch op m = (t.holdAnswer x s.time.ns m.sequence op r).emit (.kdp ch op r.st r.aux r.data) := by
  have hopen : x.isOpen = true := Session.isOpen_of_ne_mailbox h.ne_mailbox
  obtain ⟨hlive, hup, hmajor, hch, hfind, hseq, hroom⟩ := h
  have hin : s.serveIn x op m = (t.holdAnswer x s.time.ns m.sequence op r, r) := by
    simp [State.serveIn, hopen, Nat.not_le.mpr hroom, hserve, State.holdAnswer]
  simp [State.kdpRow, State.kdpServe, State.dictOff_of_live hlive, hup, hmajor, hop, State.implicit_of_ne_mailbox hch, hfind, hopen,
    hseq, hin]

/-- Beside what its operation does, a new request leaves its answer and changes sessions. -/
theorem State.asks.onlyAnswers {s t : State} {ch : Channel} {m : KdpMsg} {x : Session} {op : Nat} {r : KdpRes} (h : s.asks ch m x)
    (hop : op ≠ 1) (hserve : s.serveOp x op m = (t, r)) : t.onlyAnswers (s.kdpRow ch op m) (.kdp ch op r.st r.aux r.data) := by
  rw [h.kdpRow hop hserve]
  exact State.emit_onlyAnswers _ _

/-- A request whose sequence is held is answered as before, whatever it asks (17, R503). -/
theorem State.kdpRow_duplicate {s : State} {ch : Channel} {m : KdpMsg} {x : Session} {op op' aux : Nat} {st : Status} {d : List Byte}
    (hlive : s.dev = .live) (hup : s.channelUp ch = true) (hmajor : m.major = 1) (hch : ∀ f, ch ≠ .mailbox f)
    (hfind : s.kdp.sessions.find? (fun y => y.ch == ch && y.id == m.session) = some x)
    (hheld : x.held.find? (·.1 == m.sequence) = some (m.sequence, op', st, aux, d)) (hop : op ≠ 1) :
    s.onlyAnswers (s.kdpRow ch op m) (.kdp ch op st aux d) := by
  obtain ⟨-, hxch, -⟩ := Session.of_find? hfind
  have hopen : x.isOpen = true := Session.isOpen_of_ne_mailbox (by rw [hxch]; exact hch)
  have hseq : x.judgeSeq m.sequence = some (some (st, aux, d)) := by simp [Session.judgeSeq, hheld]
  have hrow : s.kdpRow ch op m
      = (s.modSession ch x.id fun y => { y with last := s.time.ns }).emit (.kdp ch op st aux d) := by
    simp [State.kdpRow, State.kdpServe, State.dictOff_of_live hlive, hup, hmajor, hop, State.implicit_of_ne_mailbox hch, hfind, hopen, hseq]
  rw [hrow]
  exact (State.emit_onlyAnswers _ _).of_modSession

/-- A message of another major version is answered before anything else is looked at (17, Table 17-5). -/
theorem State.kdpRow_version {s : State} {ch : Channel} {m : KdpMsg} (hlive : s.dev = .live) (hup : s.channelUp ch = true)
    (hmajor : m.major ≠ 1) (op : Nat) : s.kdpRow ch op m = s.emit (.kdp ch op .version 0 []) := by
  simp [State.kdpRow, State.kdpServe, State.dictOff_of_live hlive, hup, hmajor, refuse]

/-- A datagram on a dead association is counted, and not answered (17, R501). -/
theorem State.kdpRow_down {s : State} {n : Nat} {m : KdpMsg} (hlive : s.dev = .live) (hdown : s.channelUp (.net n) = false) (op : Nat) :
    s.kdpRow (.net n) op m = s.bump 0x430004 32 := by
  simp [State.kdpRow, State.kdpServe, State.dictOff_of_live hlive, hdown]

/-! ## The object of a request (17, R487, R488, R491) -/

theorem State.names.findObj {s : State} {m : KdpMsg} {x : Session} {ob : Obj} (h : s.names m x ob) (hlive : s.dev = .live) (w : Bool) :
    s.findObj x m.index m.sub w = .inr ob := by
  obtain ⟨hreach, hkind, hsub, hfind, hlevel⟩ := h
  have hne : objectsOf m.index ≠ [] := by
    intro hnil
    simp [hnil] at hfind
  have hlow : ¬ (0x80 ≤ m.sub ∧ x.expert = false) := by
    rintro ⟨hhigh, hbasic⟩
    obtain hlt | hexp := hlevel
    · omega
    · simp [hexp] at hbasic
  simp [State.findObj, State.stateGate_of_live hlive, hreach, hkind, hne, hsub, hfind, hlow]

/-- Sub-index 0 of every index that exists names its count (17, R487). -/
theorem State.findObj_count {s : State} {x : Session} {index : Nat} (hlive : s.dev = .live) (hreach : s.chanReaches x.ch index = true)
    (hne : objectsOf index ≠ []) (hseat : kindIndex index = 0x5000 → index - 0x5000 < s.entries) (w : Bool) :
    s.findObj x index 0 w = .inr countObject := by
  have hexists : ¬ (kindIndex index = 0x5000 ∧ s.entries ≤ index - 0x5000) := fun ⟨hk, hle⟩ => by
    have := hseat hk
    omega
  simp [State.findObj, State.stateGate_of_live hlive, hreach, hne, hexists]

theorem State.findObj_noIndex {s : State} {x : Session} {index : Nat} (hlive : s.dev = .live) (hreach : s.chanReaches x.ch index = true)
    (hnil : objectsOf index = []) (sub : Nat) (w : Bool) : s.findObj x index sub w = .inl (refuse .notFound) := by
  simp [State.findObj, State.stateGate_of_live hlive, hreach, hnil]

/-- An object that a request names stands at the request's sub-index. -/
theorem State.names.sub_eq {s : State} {m : KdpMsg} {x : Session} {ob : Obj} (h : s.names m x ob) : ob.sub = m.sub := by
  obtain ⟨-, -, -, hfind, -⟩ := h
  simpa using List.find?_some hfind

theorem State.names.valueFor {s : State} {m : KdpMsg} {x : Session} {ob : Obj} (h : s.names m x ob) :
    s.valueFor x m.index ob = s.readObj m.index ob := by
  have hsub := h.sub_eq
  obtain ⟨-, -, hne, -⟩ := h
  simp [State.valueFor, hsub, hne]

/-! ## READ (17, R494) -/

theorem State.serveRead_refused {s : State} {x : Session} {m : KdpMsg} {r : KdpRes} (hfind : s.findObj x m.index m.sub false = .inl r) :
    s.serveRead x m = (s, r) := by
  simp [State.serveRead, hfind]

theorem State.serveRead_writeOnly {s : State} {x : Session} {m : KdpMsg} {ob : Obj} (hfind : s.findObj x m.index m.sub false = .inr ob)
    (hacc : ob.access = .wo) : s.serveRead x m = (s, refuse .noAccess) := by
  simp [State.serveRead, hfind, hacc]

/-- A READ at offset 0 takes a snapshot and answers its first segment. -/
theorem State.serveRead_start {s : State} {x : Session} {m : KdpMsg} {ob : Obj} (hfind : s.findObj x m.index m.sub false = .inr ob)
    (hacc : ob.access ≠ .wo) (h0 : m.offset = 0) :
    s.serveRead x m = (s.modSession x.ch x.id fun y => { y with snapshot := some (objKey m.index m.sub, s.valueFor x m.index ob) },
      segment x m (s.valueFor x m.index ob)) := by
  simp [State.serveRead, hfind, hacc, h0]

/-- A READ at offset 0 of a new request: the value's length and its first segment. -/
theorem State.asks.read {s : State} {ch : Channel} {m : KdpMsg} {x : Session} {ob : Obj} (h : s.asks ch m x)
    (hfind : s.findObj x m.index m.sub false = .inr ob) (hacc : ob.access ≠ .wo) (h0 : m.offset = 0) :
    s.onlyAnswers (s.kdpRow ch 3 m)
      (.kdp ch 3 .ok (s.valueFor x m.index ob).length (segment x m (s.valueFor x m.index ob)).data) :=
  (h.onlyAnswers (op := 3) (by decide) (State.serveRead_start hfind hacc h0)).of_modSession

/-- The longest message allows a first segment of 1,216 bytes. -/
theorem segment_data_whole {x : Session} {m : KdpMsg} (v : List Byte) (h0 : m.offset = 0) (hlen : m.length = 0) (hmax : x.maxMsg = 1244) :
    (segment x m v).data = v.take 1216 := by
  simp [segment, h0, hlen, hmax]

/-- Every message has room for a value of one byte. -/
theorem segment_data_byte {x : Session} {m : KdpMsg} (b : Byte) (h0 : m.offset = 0) (hlen : m.length = 0) : (segment x m [b]).data = [b] := by
  simp only [segment, h0, hlen, List.drop_zero]
  exact List.take_of_length_le (by simp; omega)

/-! ## WRITE and WRITE_IF (17, R486, R493, R495) -/

theorem State.serveWrite_readOnly {s : State} {x : Session} {m : KdpMsg} {ob : Obj} (hfind : s.findObj x m.index m.sub true = .inr ob)
    (hacc : ob.access.writable = false) : s.serveWrite x m = (s, refuse .noAccess) := by
  simp [State.serveWrite, hfind, hacc]

theorem State.serveWrite_wrongSize {s : State} {x : Session} {m : KdpMsg} {ob : Obj} (hfind : s.findObj x m.index m.sub true = .inr ob)
    (hacc : ob.access.writable = true) (hdom : ob.type.isDomain = false) (hsize : m.data.length ≠ ob.type.size) :
    s.serveWrite x m = (s, refuse .badArg) := by
  simp [State.serveWrite, hfind, hacc, hdom, hsize]

/-- An answer of the owning rule that has no retry-after is passed on. -/
theorem applied_ok (t : State) : applied (t, .ok, 0) = (t, refuse .ok) := by
  simp [applied, State.hinted, retryable]

theorem State.serveWrite_ok {s t : State} {x : Session} {m : KdpMsg} {ob : Obj} (hfind : s.findObj x m.index m.sub true = .inr ob)
    (hacc : ob.access.writable = true) (hdom : ob.type.isDomain = false) (h0 : m.offset = 0) (hsize : m.data.length = ob.type.size)
    (hwrite : s.writeObj x.ch m.index ob m.data = (t, .ok, 0)) : s.serveWrite x m = (t, refuse .ok) := by
  simp [State.serveWrite, hfind, hacc, hdom, h0, hsize, hwrite, applied_ok]

theorem State.serveWriteIf_ok {s t : State} {x : Session} {m : KdpMsg} {ob : Obj} (hfind : s.findObj x m.index m.sub true = .inr ob)
    (hacc : ob.access.writable = true) (hwo : ob.access ≠ .wo) (hdom : ob.type.isDomain = false) (h0 : m.offset = 0)
    (hsize : m.data.length = 2 * ob.type.size) (hcur : m.data.take ob.type.size = s.readObj m.index ob)
    (hwrite : s.writeObj x.ch m.index ob (m.data.drop ob.type.size) = (t, .ok, 0)) : s.serveWriteIf x m = (t, refuse .ok) := by
  simp [State.serveWriteIf, hfind, hacc, hwo, hdom, h0, hsize, hcur, hwrite, applied_ok]

/-- An expected value that is not the current one is answered with the current one (17, R493). -/
theorem State.serveWriteIf_differs {s : State} {x : Session} {m : KdpMsg} {ob : Obj} (hfind : s.findObj x m.index m.sub true = .inr ob)
    (hacc : ob.access.writable = true) (hwo : ob.access ≠ .wo) (hdom : ob.type.isDomain = false) (h0 : m.offset = 0)
    (hsize : m.data.length = 2 * ob.type.size) (hcur : m.data.take ob.type.size ≠ s.readObj m.index ob) :
    s.serveWriteIf x m = (s, { st := .conflict, data := s.readObj m.index ob }) := by
  simp [State.serveWriteIf, hfind, hacc, hwo, hdom, h0, hsize, Ne.symm hcur]

/-! ## DESCRIBE (17, R500, Table 17-8) -/

/-- The attributes of an object as DESCRIBE lays them out. -/
def Obj.described (ob : Obj) : List Byte :=
  leBytes 1 ob.type.code ++ leBytes 1 ob.access.code ++ leBytes 1 (b2n (decide (0x80 ≤ ob.sub)) + 2 * ob.persist.code) ++ [0]
    ++ leBytes 4 ob.type.size ++ zeros 8 ++ str32 ob.name

theorem State.serveDescribe_found {s : State} {x : Session} {m : KdpMsg} {ob : Obj} (hfind : s.findObj x m.index m.sub false = .inr ob) :
    s.serveDescribe x m = (s, { st := .ok, data := ob.described }) := by
  simp [State.serveDescribe, hfind, Obj.described]

@[simp] theorem padTo_length (n : Nat) (bs : List Byte) : (padTo n bs).length = n := by
  simp [padTo, zeros]
  omega

theorem Obj.described_length (ob : Obj) : ob.described.length = 48 := by
  simp [Obj.described, leBytes, zeros, str32]

theorem Obj.described_codes (ob : Obj) : ob.described.take 2 = leBytes 1 ob.type.code ++ leBytes 1 ob.access.code := rfl

theorem Obj.described_size (ob : Obj) : (ob.described.drop 4).take 4 = leBytes 4 ob.type.size := rfl

theorem Obj.described_name (ob : Obj) : ob.described.drop 16 = str32 ob.name := rfl

/-! ## Sessions close (17, R499, R502) -/

theorem State.mem_closeSessions {s : State} {p : Session → Bool} {y : Session} :
    y ∈ (s.closeSessions p).kdp.sessions ↔ y ∈ s.kdp.sessions ∧ p y = false := by
  simp [State.closeSessions]

/-- The association of a network session is gone from table `t`. -/
def dropAssoc (t : Tbl (Option Assoc)) (x : Session) : Tbl (Option Assoc) :=
  match x.ch with
  | .net n => Tbl.set none t n none
  | _ => t

theorem get_dropAssoc (t : Tbl (Option Assoc)) (x : Session) (n : Nat) :
    Tbl.get none (dropAssoc t x) n = if x.ch = .net n then none else Tbl.get none t n := by
  unfold dropAssoc
  split
  · next k hch => simp [hch, Tbl.get_set, eq_comm]
  · next hch => rw [if_neg (hch n)]

theorem get_foldl_dropAssoc (l : List Session) (t : Tbl (Option Assoc)) (n : Nat) :
    Tbl.get none (l.foldl dropAssoc t) n = if ∃ x ∈ l, x.ch = .net n then none else Tbl.get none t n := by
  induction l generalizing t with
  | nil => simp
  | cons x l ih =>
    rw [List.foldl_cons, ih, get_dropAssoc]
    by_cases hx : x.ch = .net n
    · simp [hx]
    · simp [hx]

theorem State.closeSessions_assocs (s : State) (p : Session → Bool) :
    (s.closeSessions p).kdp.assocs = (s.kdp.sessions.filter p).foldl dropAssoc s.kdp.assocs := rfl

/-- An association closes with its session (17, R502). -/
theorem State.closeSessions_closes_assoc {s : State} {p : Session → Bool} {x : Session} {n : Nat} (hx : x ∈ s.kdp.sessions)
    (hp : p x = true) (hch : x.ch = .net n) : Tbl.get none (s.closeSessions p).kdp.assocs n = none := by
  rw [State.closeSessions_assocs, get_foldl_dropAssoc, if_pos ⟨x, List.mem_filter.mpr ⟨hx, hp⟩, hch⟩]

theorem State.serveClose_of_ne_mailbox {s : State} {x : Session} (h : ∀ f, x.ch ≠ .mailbox f) :
    s.serveClose x = (s.closeSessions fun y => y.ch == x.ch && y.id == x.id, refuse .ok) := by
  unfold State.serveClose
  split
  · next f hch => exact absurd hch (h f)
  · rfl

/-! ## OBJECT (16, R465, R470, Table 16-5; 17, R509) -/

/-- A request that is answered with a status that is not retryable carries no retry-after (16, R470). -/
theorem State.answer_answered (s : State) (r : Req) {st : Status} (hst : retryable st = false) (payload : List Byte) :
    s.answered (s.answer r st 0 payload) r st 0 payload := by
  have hne : st ≠ .conflict := by
    rintro rfl
    exact absurd hst (by decide)
  constructor
  · simp [State.answer, State.reply, State.hinted, hne]
  · simp only [State.answer, State.reply, State.hinted, hne, decide_false, Bool.false_and, hst, State.queueMsg]
    rw [State.fn_modFn_self]
    rfl

theorem State.answer_memory_objs (s : State) (r : Req) (st : Status) (retry : Nat) (payload : List Byte) :
    (s.answer r st retry payload).memory = s.memory ∧ (s.answer r st retry payload).objs = s.objs := by
  simp [State.answer, State.reply]

theorem execObject_short {s : State} {f : Func} {seq : Half} {r : Req} (hopen : s.openReq f.val seq 5 = some r)
    (hlen : r.payload.length < 28) : execObject f seq s = .next (s.answer r .badArg) := by
  simp [execObject, hopen, hlen]

/-- The reply of an OBJECT request carries the answer of the message that it holds; a reset command is the one that does more. -/
theorem execObject_answers {s t : State} {f : Func} {seq : Half} {r : Req} {op : Nat} {m : KdpMsg} {a : KdpRes}
    (hopen : s.openReq f.val seq 5 = some r) (hmsg : kdpOf r.payload = (op, m)) (hlen : 28 + m.length ≤ r.payload.length)
    (hclass : classZero op m = false) (hserve : s.kdpServe (.mailbox f) op m = (t, some a)) :
    execObject f seq s = .next (t.answer r a.st (if retryable a.st then a.aux else 0) (kdpBytes op m a)) := by
  have hwhole : ¬ (r.payload.length < 28 ∨ r.payload.length < 28 + if op = 3 then 0 else m.length) := by
    split <;> omega
  simp [execObject, hopen, hmsg, hwhole, hserve, hclass]

/-- The implicit session of a mailbox function (17, R499). -/
def implicitSession (f : Func) : Session := { id := 0, ch := .mailbox f, expert := f.val == 0 }

/-- The first request of a mailbox function brings its implicit session. -/
theorem State.implicit_first {s : State} {f : Func} (h : s.kdp.sessions.any (·.ch == Channel.mailbox f) = false) :
    s.implicit (.mailbox f) = { s with kdp := { s.kdp with sessions := s.kdp.sessions ++ [implicitSession f] } } := by
  simp only [State.implicit, h]
  rfl

theorem State.find?_implicit_first {s : State} {f : Func} {id : Quad} (h : s.kdp.sessions.any (·.ch == Channel.mailbox f) = false)
    (hid : id = 0) :
    (s.implicit (.mailbox f)).kdp.sessions.find? (fun y => y.ch == Channel.mailbox f && y.id == id) = some (implicitSession f) := by
  have hold : s.kdp.sessions.find? (fun y => y.ch == Channel.mailbox f && y.id == id) = none := by
    simp only [List.find?_eq_none, List.any_eq_false] at h ⊢
    intro y hy hp
    exact h y hy (Bool.and_eq_true _ _ ▸ hp).1
  rw [State.implicit_first h, List.find?_append, hold]
  simp [implicitSession, hid]

/-- KEEPALIVE in a mailbox function's first request is answered, and only sessions change (17, R499). -/
theorem State.kdpServe_keepalive_first {s : State} {f : Func} {m : KdpMsg} (hlive : s.dev = .live) (hup : s.fnEnabled f.val = true)
    (hmajor : m.major = 1) (hses : m.session = 0) (hnone : s.kdp.sessions.any (·.ch == Channel.mailbox f) = false) :
    ∃ t, s.kdpServe (.mailbox f) 7 m = (t, some (refuse .ok)) ∧ t = { s with kdp := { s.kdp with sessions := t.kdp.sessions } } := by
  have hup' : s.channelUp (.mailbox f) = true := hup
  have hopen : (implicitSession f).isOpen = false := rfl
  refine ⟨(s.implicit (.mailbox f)).modSession (implicitSession f).ch (implicitSession f).id
    fun y => { y with last := (s.implicit (.mailbox f)).time.ns }, ?_, ?_⟩
  · simp [State.kdpServe, State.dictOff_of_live hlive, hup', hmajor, State.find?_implicit_first hnone hses, hopen, State.serveIn,
      State.serveOp]
  · rw [State.implicit_first hnone]
    rfl

theorem kdpBytes_take_four (op : Nat) (m : KdpMsg) (r : KdpRes) :
    (kdpBytes op m r).take 4 = [1, 0, BitVec.ofNat 8 op, statusCode r.st] := rfl

/-- OBJECT with the KEEPALIVE of a mailbox function's first request: the reply carries its answer (17, R499, R509). -/
theorem execObject_keepalive_first {s : State} {f : Func} {seq : Half} {r : Req} {m : KdpMsg} (hopen : s.openReq f.val seq 5 = some r)
    (hmsg : kdpOf r.payload = (7, m)) (hlen : 28 + m.length ≤ r.payload.length) (hmajor : m.major = 1) (hses : m.session = 0)
    (hlive : s.dev = .live) (hup : s.fnEnabled f.val = true) (hnone : s.kdp.sessions.any (·.ch == Channel.mailbox f) = false) :
    ∃ t, execObject f seq s = .next t ∧ s.answered t r .ok 0 (kdpBytes 7 m (refuse .ok)) ∧ t.memory = s.memory ∧ t.objs = s.objs := by
  obtain ⟨t, hserve, ht⟩ := State.kdpServe_keepalive_first hlive hup hmajor hses hnone
  have hanswered := t.answer_answered r (st := .ok) rfl (kdpBytes 7 m (refuse .ok))
  have hframe := t.answer_memory_objs r .ok 0 (kdpBytes 7 m (refuse .ok))
  have hexec := execObject_answers hopen hmsg hlen rfl hserve
  rw [ht] at hanswered hframe hexec
  exact ⟨_, hexec, hanswered, hframe⟩

end Sys2Proof.Machine
end

section
/-! SUPPORT. The statement on the dictionary's operations (17, R485, R487, R491 to R495, R499 to R503; Tables 17-4 to 17-8). -/

namespace Sys2Proof.Machine

/-! ## The power cap, an object that is read and written (14, R424, Table 14-13) -/

/-- The row of 0x2000.02 in the catalogue. -/
def powerCap : Obj := obj 0x02 "power_cap" .u32 .rw .retained 3000

theorem State.names_powerCap {s : State} {m : KdpMsg} {x : Session} (hreach : s.chanReaches x.ch 0x2000 = true) (hindex : m.index = 0x2000)
    (hsub : m.sub = 2) : s.names m x powerCap := by
  unfold State.names
  rw [hindex, hsub]
  exact ⟨hreach, by decide, by decide, by decide, .inl (by decide)⟩

theorem State.writeObj_powerCap (s : State) (ch : Channel) {index : Nat} {data : List Byte} (hindex : index = 0x2000)
    (hlo : 1500 ≤ leNat data) (hhi : leNat data ≤ 3000) :
    s.writeObj ch index powerCap data = (s.setObj 0x200002 (leNat data), .ok, 0) := by
  subst hindex
  have hrange : inRange 0x2000 powerCap.sub (leNat data) powerCap = true :=
    show (decide (1500 ≤ leNat data) && decide (leNat data ≤ 3000)) = true by simp [hlo, hhi]
  unfold State.writeObj
  rw [if_neg (by simp [hrange])]
  rfl

theorem State.readObj_powerCap (s : State) {index : Nat} (hindex : index = 0x2000) :
    s.readObj index powerCap = leBytes 4 (s.obj 0x200002 3000) := by
  subst hindex
  rfl

/-! ## OPEN_SESSION (17, R499, R502, Table 17-7) -/

/-- The first session of a package: a network channel opens it at the basic level. -/
theorem State.kdpRow_open_first {s : State} {n : Nat} {m : KdpMsg} (hlive : s.dev = .live) (hup : s.channelUp (.net n) = true)
    (hmajor : m.major = 1) (hlen : m.data.length = 8) (hlevel : field m.data 0 1 = 0) (hnone : s.kdp.sessions = [])
    (hid : s.kdp.lastId + 1 ≠ 0) :
    ∃ (x : Session) (d : List Byte), x.id = s.kdp.lastId + 1 ∧ x.ch = .net n ∧ x.expert = false ∧ d.take 4 = leBytes 4 x.id.toNat
      ∧ s.kdpRow (.net n) 1 m
        = ({ s with kdp := { s.kdp with sessions := [x], lastId := x.id } } : State).emit (.kdp (.net n) 1 .ok 0 d) := by
  refine ⟨{ id := s.kdp.lastId + 1, ch := .net n, maxMsg := max 64 (min 1244 (field m.data 2 2)), last := s.time.ns },
    leBytes 4 (s.kdp.lastId + 1).toNat ++ leBytes 1 0 ++ [0] ++ leBytes 2 (Config.identity 3), rfl, rfl, rfl, rfl, ?_⟩
  have hnext : ¬ s.kdp.lastId + 1#32 = 0#32 := hid
  simp [State.kdpRow, State.kdpServe, State.dictOff_of_live hlive, hup, hmajor, State.serveOpen, hlen, hlevel, hnone, hnext,
    -BitVec.toNat_add]

/-! ## CLOSE_SESSION (17, R499, R502) -/

/-- A session that is asked to close is gone, and a network channel's association with it. -/
theorem State.asks.close {s : State} {ch : Channel} {m : KdpMsg} {x : Session} (h : s.asks ch m x) :
    (∀ y ∈ (s.kdpRow ch 2 m).kdp.sessions, ¬(y.ch = ch ∧ y.id = m.session))
      ∧ ∀ n, ch = .net n → Tbl.get none (s.kdpRow ch 2 m).kdp.assocs n = none := by
  obtain ⟨hmem, hch, hid⟩ := h.session
  rw [h.kdpRow (op := 2) (by decide) (State.serveClose_of_ne_mailbox h.ne_mailbox)]
  constructor
  · rintro y hy ⟨hych, hyid⟩
    obtain ⟨z, hz, hzch, hzid⟩ := State.mem_holdAnswer hy
    obtain ⟨-, hkept⟩ := State.mem_closeSessions.mp hz
    simp [hzch, hzid, hych, hyid, hch, hid] at hkept
  · rintro n rfl
    exact State.closeSessions_closes_assoc hmem (by simp) hch

/-! ## Associations (17, R501) -/

/-- The first number without an association. -/
def State.freeAssoc (s : State) : Option Nat := (List.range 8).find? fun n => (Tbl.get none s.kdp.assocs n).isNone

/-- Association `a` stands at number `n`. -/
def State.withAssoc (s : State) (n : Nat) (a : Assoc) : State :=
  { s with kdp := { s.kdp with assocs := Tbl.set none s.kdp.assocs n (some a) } }

theorem State.get_assocs_withAssoc (s : State) (n k : Nat) (a : Assoc) :
    Tbl.get none (s.withAssoc n a).kdp.assocs k = if k = n then some a else Tbl.get none s.kdp.assocs k :=
  Tbl.get_set none s.kdp.assocs n k (some a)

/-- A client whose chain ends under an anchor that is set has the free association. -/
theorem execDtlsHandshake_associates {s : State} {a : Fin 3} {n : Nat} (hlive : s.dev = .live) (hown : s.ownsAddress a = true)
    (hfree : s.freeAssoc = some n) (hon : s.obj 0x430086 1 ≠ 0) (hanchor : s.hasAnchor true = true) (peer : Quad) :
    execDtlsHandshake true false peer a s
      = .next ((s.withAssoc n { expert := true, basic := false, peer := peer, addr := a }).emit (.dtlsCertificate n s.certificate)) := by
  unfold State.freeAssoc at hfree
  simp [execDtlsHandshake, State.dictOff_of_live hlive, hown, hfree, hon, hanchor, State.withAssoc]

/-- A client whose chain ends under no anchor that is set is counted. -/
theorem execDtlsHandshake_refused {s : State} {a : Fin 3} {n : Nat} {e b : Bool} (hlive : s.dev = .live) (hown : s.ownsAddress a = true)
    (hfree : s.freeAssoc = some n) (hexpert : (e && s.hasAnchor true) = false) (hbasic : (b && s.hasAnchor false) = false) (peer : Quad) :
    execDtlsHandshake e b peer a s = .next (s.bump 0x700103 32) := by
  unfold State.freeAssoc at hfree
  simp only [execDtlsHandshake, State.dictOff_of_live hlive, hown, hfree, hexpert, hbasic]
  rfl

/-- Settles O54. A new request is one operation and one answer (`State.asks.onlyAnswers`), and each operation's answer is its own lemma
once the object is found; a held sequence, another version and a dead channel are turned away before. -/
theorem dictionaryOperationsAnswer : Obligations.DictionaryOperationsAnswer := by
  unfold Obligations.DictionaryOperationsAnswer
  intro s ch m
  simp only [exec_kdpRead, exec_kdpWrite, exec_writeIf, exec_describe, exec_keepalive, exec_closeSession, exec_openSession, exec_object,
    exec_sessionIdleTimeout, exec_snapshotLapse, exec_stagingLapse, exec_dtlsHandshake]
  refine ⟨fun x ob v h hob hacc hv h0 hlen hmax => ⟨_, rfl, ?read⟩,
    fun x n h hreach hne hseat hsub h0 hn => ⟨fun hlen => ⟨_, rfl, ?readCount⟩, ⟨_, rfl, ?writeCount⟩, ?describeCount⟩,
    fun x ob h hob hacc => ⟨_, rfl, ?readWriteOnly⟩, fun x h hreach hnil => ⟨_, rfl, ?readNoIndex⟩,
    fun x ob h hob hacc => ⟨_, rfl, ?writeReadOnly⟩, fun x ob h hob hacc hdom hsize => ⟨_, rfl, ?writeWrongSize⟩,
    fun x h hreach hindex hsub h0 => ⟨fun hlen hlo hhi => ⟨_, rfl, ?write⟩, fun hlen hcur hlo hhi => ⟨_, rfl, ?writeIf⟩,
      fun hlen hcur => ⟨_, rfl, ?writeIfDiffers⟩⟩,
    fun x ob h hob => ⟨_, ob.described, rfl, ?describe⟩, fun x h => ⟨_, rfl, ?keepalive⟩, fun x h => ⟨_, rfl, ?close⟩,
    fun n hch hlive hup hmajor hlen hlevel hnone hid => ?opens,
    fun x op st aux d hlive hup hmajor hch hfind hheld => ⟨_, rfl, State.kdpRow_duplicate hlive hup hmajor hch hfind hheld (by decide)⟩,
    fun hlive hup hmajor => congrArg _ (State.kdpRow_version hlive hup hmajor 3), fun n hch hlive hdown => ⟨_, rfl, ?down⟩,
    fun f seq r hopen => ⟨fun hlen => ⟨_, execObject_short hopen hlen, s.answer_answered r rfl []⟩,
      fun hlen hop hmajor hses hlive hup hnone => ?object⟩,
    fun id => ⟨_, rfl, ?idle⟩, fun id => ⟨_, rfl, ?snapshot⟩, fun id => rfl,
    fun peer a n hlive hown hfree hon => ⟨fun hanchor => ⟨_, execDtlsHandshake_associates hlive hown hfree hon hanchor peer, ?associates⟩,
      fun e b hexpert hbasic => ⟨_, execDtlsHandshake_refused hlive hown hfree hexpert hbasic peer, ?refused⟩⟩⟩
  case read =>
    have hread := h.read (hob.findObj h.live false) hacc h0
    rwa [hob.valueFor, segment_data_whole _ h0 hlen hmax, ← hv] at hread
  case readCount =>
    have hread := h.read (by rw [hsub]; exact State.findObj_count h.live hreach hne hseat false) (by decide) h0
    have hvalue : s.valueFor x m.index countObject = [BitVec.ofNat 8 n] := by rw [hn]; rfl
    rwa [hvalue, segment_data_byte _ h0 hlen] at hread
  case writeCount =>
    exact h.onlyAnswers (op := 4) (by decide)
      (State.serveWrite_readOnly (by rw [hsub]; exact State.findObj_count h.live hreach hne hseat true) rfl)
  case describeCount =>
    obtain ⟨hout, hframe⟩ := h.onlyAnswers (op := 6) (by decide)
      (State.serveDescribe_found (by rw [hsub]; exact State.findObj_count h.live hreach hne hseat false))
    exact ⟨_, _, rfl, hout, rfl, hframe⟩
  case readWriteOnly =>
    exact h.onlyAnswers (op := 3) (by decide) (State.serveRead_writeOnly (hob.findObj h.live false) hacc)
  case readNoIndex =>
    exact h.onlyAnswers (op := 3) (by decide) (State.serveRead_refused (State.findObj_noIndex h.live hreach hnil m.sub false))
  case writeReadOnly =>
    exact h.onlyAnswers (op := 4) (by decide) (State.serveWrite_readOnly (hob.findObj h.live true) hacc)
  case writeWrongSize =>
    exact h.onlyAnswers (op := 4) (by decide) (State.serveWrite_wrongSize (hob.findObj h.live true) hacc hdom hsize)
  case write =>
    have hfind := (State.names_powerCap hreach hindex hsub).findObj h.live true
    obtain ⟨hout, hframe⟩ := h.onlyAnswers (op := 4) (by decide)
      (State.serveWrite_ok hfind rfl rfl h0 hlen (s.writeObj_powerCap x.ch hindex hlo hhi))
    exact ⟨by rw [hframe]; exact s.obj_setObj_self _ _ _, hout, by rw [hframe]; rfl⟩
  case writeIf =>
    have hfind := (State.names_powerCap hreach hindex hsub).findObj h.live true
    rw [← s.readObj_powerCap hindex] at hcur
    obtain ⟨hout, hframe⟩ := h.onlyAnswers (op := 5) (by decide)
      (State.serveWriteIf_ok hfind rfl (by decide) rfl h0 hlen hcur (s.writeObj_powerCap x.ch hindex hlo hhi))
    exact ⟨by rw [hframe]; exact s.obj_setObj_self _ _ _, hout, by rw [hframe]; rfl⟩
  case writeIfDiffers =>
    have hfind := (State.names_powerCap hreach hindex hsub).findObj h.live true
    rw [← s.readObj_powerCap hindex] at hcur ⊢
    exact h.onlyAnswers (op := 5) (by decide) (State.serveWriteIf_differs hfind rfl (by decide) rfl h0 hlen hcur)
  case describe =>
    obtain ⟨hout, hframe⟩ := h.onlyAnswers (op := 6) (by decide) (State.serveDescribe_found (hob.findObj h.live false))
    exact ⟨hout, ob.described_length, ob.described_codes, ob.described_size, ob.described_name, hframe⟩
  case keepalive => exact h.onlyAnswers (op := 7) (by decide) rfl
  case close =>
    obtain ⟨hgone, hassoc⟩ := h.close
    obtain ⟨hout, hframe⟩ := h.onlyAnswers (op := 2) (by decide) (State.serveClose_of_ne_mailbox h.ne_mailbox)
    exact ⟨hout, hgone, hassoc, by rw [hframe]; rfl⟩
  case opens =>
    subst hch
    obtain ⟨x, d, hxid, hxch, hbasic, hd, hrow⟩ := State.kdpRow_open_first hlive hup hmajor hlen hlevel hnone hid
    exact ⟨_, x, d, by rw [execOpenSession, hrow], rfl, hxid, hxch, hbasic, hxid, rfl, hd, rfl⟩
  case down =>
    subst hch
    rw [State.kdpRow_down hlive hdown]
    exact ⟨s.obj_bump _ _ _ _ _, rfl⟩
  case object =>
    obtain ⟨t, ht, hanswered, hframe⟩ := execObject_keepalive_first hopen (Prod.ext hop rfl) hlen hmajor hses hlive hup hnone
    exact ⟨t, _, ht, hanswered, kdpBytes_take_four _ _ _, hframe⟩
  case idle =>
    refine ⟨fun y hy hid => ?_, fun y hy hid => State.mem_closeSessions.mpr ⟨hy, by simp [hid]⟩, rfl⟩
    obtain ⟨-, hkept⟩ := State.mem_closeSessions.mp hy
    simpa [hid] using hkept
  case snapshot =>
    refine ⟨fun y hy hch hid => ?_, rfl⟩
    obtain ⟨z, -, rfl⟩ := State.mem_modSession_self hy hch hid
    rfl
  case associates =>
    refine ⟨?_, fun k hk => ?_, rfl⟩
    · simp [State.get_assocs_withAssoc]
    · simp [State.get_assocs_withAssoc, hk]
  case refused => exact ⟨s.obj_bump _ _ _ _ _, rfl⟩

end Sys2Proof.Machine
end
